-- ==== Sys2Proof/Word.lean ====
section
/-!
DEFINITION. The word types of the Iaxia 9720 family and their plainest arithmetic: bytes, little-endian
byte lists (00 R12) and bit fields. All registers are 32 bits wide (00 R12); addresses are 64 bits.
-/
namespace Sys2Proof

/-- One byte of memory, of a packet or of a frame. -/
abbrev Byte := BitVec 8

/-- A BAR0 register or a 32-bit FP32 pattern (00 R12, 03 R63). -/
abbrev Word := BitVec 32

/-- A 64-bit address, scalar register or item id. -/
abbrev Addr := BitVec 64

/-- A vector register of 512 bits (04 R95). -/
abbrev VReg := BitVec 512

/-- `n` bytes of `v`, least significant first (00 R12). -/
def leBytes (n v : Nat) : List Byte :=
  match n with
  | 0 => []
  | k + 1 => BitVec.ofNat 8 v :: leBytes k (v / 256)

/-- The number a little-endian byte list stands for (00 R12). -/
def leNat : List Byte → Nat
  | [] => 0
  | b :: bs => b.toNat + 256 * leNat bs

/-- Bits `[hi:lo]` of a number, bit 0 the least significant (00 Notation). -/
def bits (v hi lo : Nat) : Nat := v / 2 ^ lo % 2 ^ (hi + 1 - lo)

/-- Bit `i` of a number. -/
def bitAt (v i : Nat) : Bool := v / 2 ^ i % 2 == 1

/-- 1 for true, 0 for false: the way a register shows a one-bit field. -/
def boolNat (b : Bool) : Nat := if b then 1 else 0

/-- The value of `n` bits read as two's complement. -/
def signed (n v : Nat) : Int := if v % 2 ^ n < 2 ^ (n - 1) then (v % 2 ^ n : Nat) else (v % 2 ^ n : Nat) - (2 ^ n : Nat)

/-- Ceiling of a quotient; 0 for a zero divisor. -/
def ceilDiv (a b : Nat) : Nat := if b = 0 then 0 else (a + b - 1) / b

/-- The least multiple of `b` at or above `a`. -/
def roundUp (a b : Nat) : Nat := ceilDiv a b * b

end Sys2Proof
end

