-- ==== Sys2Proof/Syntax.lean ====
section
/-!
DEFINITION. The commands of the Iaxia 9720: one constructor of `Instr` for each row of
spec/opcode_table.json, with the row's operands. A thread row names its seat, context and guard and carries the
instruction's fields (04 R98); an opcode row names the in-flight command that intake made (18 R475); a unit row
names the unit issue (04 R109); an event row carries what the event brings from outside.
-/
namespace Sys2Proof

/-- Where a thread instruction issues: global seat, context, guard field PG (04 R94, R98). -/
structure Iss where
  seat : Nat
  ctx : Nat
  pg : BitVec 3
  deriving DecidableEq, Repr

/-- A unit issue: its seat, its context and its ticket (04 R107, R109). -/
structure IssueKey where
  seat : Nat
  ctx : Nat
  ticket : Nat
  deriving DecidableEq, Repr

/-- A query of a search command: the command's handle and the query's place in it (18 R485). -/
structure QueryKey where
  cmd : Nat
  idx : Nat
  deriving DecidableEq, Repr

/-- ADD, SUB, AND, OR, XOR (04 R100). -/
inductive ArithOp | add | sub | and | or | xor
  deriving DecidableEq, Repr

/-- ADDI, ANDI, ORI, XORI (04 R100). -/
inductive ImmOp | addi | andi | ori | xori
  deriving DecidableEq, Repr

/-- SHL, SHR, SRA (04 R100). -/
inductive ShiftOp | shl | shr | sra
  deriving DecidableEq, Repr

/-- MIN, MAX, MINU, MAXU (04 R100). -/
inductive MinMaxOp | min | max | minu | maxu
  deriving DecidableEq, Repr

/-- CMP.EQ, .NE, .LT, .LTU, .GE, .GEU (04 R100). -/
inductive CmpOp | eq | ne | lt | ltu | ge | geu
  deriving DecidableEq, Repr

/-- PAND, POR, PXOR (04 R100). -/
inductive PredOp | pand | por | pxor
  deriving DecidableEq, Repr

/-- The lane type of a vector instruction, FN[7:6] (04 R101); type 3 is illegal. -/
inductive LaneTy | fp32 | bf16 | int32
  deriving DecidableEq, Repr

/-- VADD, VSUB, VMUL (04 R101). -/
inductive VArithOp | vadd | vsub | vmul
  deriving DecidableEq, Repr

/-- VAND, VOR, VXOR (04 R101). -/
inductive VLogicOp | vand | vor | vxor
  deriving DecidableEq, Repr

/-- VCMPEQ, VCMPLT, VCMPLE (04 R101). -/
inductive VCmpOp | vcmpeq | vcmplt | vcmple
  deriving DecidableEq, Repr

/-- VREDSUM, VREDMAX, VREDMIN (04 R101). -/
inductive VRedOp | vredsum | vredmax | vredmin
  deriving DecidableEq, Repr

/-- A transient that meets a tile while it runs or drains: none, one accumulator bit of a cell inverted, or the two
copies of the drain conversion disagreeing (03 R77, R79). -/
inductive Upset
  | none
  | cell (row col : Nat) (bit : BitVec 5)
  | copies
  deriving DecidableEq, Repr

/-- What ends the collecting batch (05 R141). -/
inductive CloseCause | window | full | deadline
  deriving DecidableEq, Repr

/-- What the shadow lanes or copies of a pass or piece showed: the run agreed, the first run disagreed and the repeat
agreed, the repeat disagreed too and another engine agreed, or that disagreed as well (03 R87, R88, 06 R178). -/
inductive Shadow | agree | repeated | moved | failed
  deriving DecidableEq, Repr

/-- What the re-rank stage brings: the model head's outputs, sequence by sequence and row by row, or none when the stock kernel faulted; and
whether the meld unit had to repeat the ranking (07 R187, R188, R193). -/
structure RerankRun where
  heads : Option (List (List Word))
  shadow : Shadow
  deriving DecidableEq, Repr

/-- The pack stage of a command, and whether its stock kernel met an unrepaired fault (07 R191, R193). -/
structure PackRun where
  cmd : Nat
  faulted : Bool
  deriving DecidableEq, Repr

/-- What reading one page came to: the step of 13 R334 that gave its data, or none. -/
inductive ReadResult | hard | soft | rebuilt | lost
  deriving DecidableEq, Repr

/-- The three media writes that a supply or firmware step may meet. -/
inductive WriteResult | done | failed
  deriving DecidableEq, Repr

/-- A node of a draft tree as the draft kernel writes it (10 R247). -/
structure DraftNode where
  token : Nat
  parent : Nat
  depth : Nat
  deriving DecidableEq, Repr

/-- The modes in which the CXL port trains (17 R442). -/
inductive CxlMode | cxl31 | cxl20 | pcie
  deriving DecidableEq, Repr

/-- What the host refused (17 R448): a read of a submission queue, a write of a completion queue, or a request of an
in-flight command's work. -/
inductive RejectOf
  | sqRead (tenant queue : Nat)
  | cqWrite (tenant queue : Nat)
  | work (cmd : Nat)
  deriving DecidableEq, Repr

/-- How long a page or block repair took out of the machine: the outcome of one bring-up (19 R505): whether the flash
journal is torn and where, which units failed to start, whether the S-die starts. -/
structure BringUp where
  tornAt : Option Nat
  sDieStarts : Bool
  deriving DecidableEq, Repr

/-- The commands, in the order of spec/opcode_table.json. -/
inductive Instr
  -- scalar instructions (04 R100)
  | addSubAndOrXor (i : Iss) (op : ArithOp) (d a b : BitVec 5)
  | shlShrSra (i : Iss) (op : ShiftOp) (d a b : BitVec 5)
  | mulMulhu (i : Iss) (high : Bool) (d a b : BitVec 5)
  | divuRemu (i : Iss) (rem : Bool) (d a b : BitVec 5)
  | minMaxMinuMaxu (i : Iss) (op : MinMaxOp) (d a b : BitVec 5)
  | addiAndiOriXori (i : Iss) (op : ImmOp) (d a : BitVec 5) (imm : BitVec 13)
  | shliShriSrai (i : Iss) (op : ShiftOp) (d a : BitVec 5) (imm : BitVec 13)
  | cmp (i : Iss) (op : CmpOp) (d a b : BitVec 5)
  | br (i : Iss) (imm : BitVec 13)
  | jr (i : Iss) (a : BitVec 5)
  | jal (i : Iss) (d a : BitVec 5) (imm : BitVec 13)
  | pandPorPxor (i : Iss) (op : PredOp) (d a b : BitVec 5)
  | pnot (i : Iss) (d a : BitVec 5)
  | pfromsPtos (i : Iss) (toScalar : Bool) (d a : BitVec 5)
  -- memory instructions (04 R100, R119, R122)
  | ldsSts (i : Iss) (store : Bool) (sz : BitVec 2) (d a : BitVec 5) (off : BitVec 11)
  | ldSt (i : Iss) (store : Bool) (sz : BitVec 2) (d a : BitVec 5) (off : BitVec 11)
  | vldsVsts (i : Iss) (store : Bool) (sz : BitVec 2) (d a : BitVec 5) (off : BitVec 11)
  | vldVst (i : Iss) (store : Bool) (sz : BitVec 2) (d a : BitVec 5) (off : BitVec 11)
  | amo (i : Iss) (fn : BitVec 8) (d a b : BitVec 5)
  | fenceAcq (i : Iss)
  | fenceRel (i : Iss)
  | fenceSys (i : Iss)
  | hbarSync (i : Iss) (bar : BitVec 4)
  | hbarArrive (i : Iss) (bar : BitVec 4)
  | hbarWait (i : Iss) (bar : BitVec 4)
  | hbarInit (i : Iss) (bar : BitVec 4) (a : BitVec 5)
  -- DMA and unit issue (04 R106 to R110)
  | dma (i : Iss) (d a : BitVec 5)
  | dmaComplete (seat ctx ticket : Nat) (crcBad : Bool)
  | dwait (i : Iss) (a : BitVec 5)
  | dtest (i : Iss) (d a : BitVec 5)
  | uissue (i : Iss) (d a : BitVec 5)
  | uwait (i : Iss) (a : BitVec 5)
  | utest (i : Iss) (d a : BitVec 5)
  -- matrix array (02 R33 to R45, 03 R66 to R84)
  | mstream (i : Iss) (a : BitVec 5)
  | mrun (i : Iss)
  | matrixRunDone (seat : Nat) (chained : Bool) (drainStall queueStall : Nat)
  | mwaitRun (i : Iss)
  | mwaitAll (i : Iss)
  | mdrain (i : Iss) (a b : BitVec 5) (upset : Upset)
  | tileRerun (seat : Nat) (upset : Upset)
  | tileRepairOther (seat other : Nat) (upset : Upset)
  | relayout (i : Iss) (a : BitVec 5)
  | csrr (i : Iss) (d : BitVec 5) (imm : BitVec 13)
  | tspawn (i : Iss) (d a b : BitVec 5)
  | nop (i : Iss)
  | halt (i : Iss)
  | liLih (i : Iss) (high : Bool) (d : BitVec 5) (imm : Word)
  | addl (i : Iss) (d a : BitVec 5) (imm : Word)
  | brl (i : Iss) (imm : Word)
  -- vector instructions (04 R101)
  | vaddVsubVmul (i : Iss) (op : VArithOp) (ty : LaneTy) (d a b : BitVec 5)
  | vfma (i : Iss) (ty : LaneTy) (d a b : BitVec 5)
  | vdivVsqrt (i : Iss) (sqrt : Bool) (d a b : BitVec 5)
  | vminVmax (i : Iss) (max : Bool) (ty : LaneTy) (d a b : BitVec 5)
  | vexp2 (i : Iss) (ty : LaneTy) (d a : BitVec 5)
  | vandVorVxor (i : Iss) (op : VLogicOp) (ty : LaneTy) (d a b : BitVec 5)
  | vshlVsra (i : Iss) (sra : Bool) (d a b : BitVec 5)
  | vcmpeqVcmpltVcmple (i : Iss) (op : VCmpOp) (ty : LaneTy) (d a b : BitVec 5)
  | vsel (i : Iss) (ty : LaneTy) (d a b : BitVec 5)
  | vredsumVredmaxVredmin (i : Iss) (op : VRedOp) (ty : LaneTy) (d a : BitVec 5)
  | vargmax (i : Iss) (ty : LaneTy) (d a : BitVec 5)
  | vbcast (i : Iss) (ty : LaneTy) (d a : BitVec 5)
  | vtos (i : Iss) (ty : LaneTy) (d a b : BitVec 5)
  | vcvt (i : Iss) (ty : LaneTy) (d a : BitVec 5)
  | vwiden (i : Iss) (d a half : BitVec 5)
  | vnarrow (i : Iss) (d a half : BitVec 5)
  | vpack (i : Iss) (d a b : BitVec 5)
  | vmxscale (i : Iss) (d a b : BitVec 5)
  -- seat events
  | tvaLoadData (seat ctx : Nat)
  | parityRefetchDone (seat line : Nat)
  | seatClearDone (seat : Nat)
  | steadyLoadWindow (seat activeCells gapCycles : Nat)
  | trickBoundary (hand : Nat)
  | seatSaveDone (seat : Nat)
  -- registers
  | seatModeWrite (v : Word)
  | audCtrlWrite (v : Word)
  | audInjectWrite (v : Word)
  | counterLoRead (off : Nat)
  | registerWrite (off width : Nat) (v : Addr)
  -- one query through the module (01, 05, 07)
  | pipeQuery (cmd : Nat)
  | queryTokenize (cmd : Nat)
  | embed (cmd : Nat) (vec : List Word)
  | coarseSearch (q : QueryKey)
  | probeSetArrive (q : QueryKey)
  | batchClose (cause : CloseCause)
  | batchStartScoring
  | probePass (engine : Nat) (shadow : Shadow) (hotParity : Nat)
  | farSegmentScore (coll list seg : Nat) (read : ReadResult) (shadows : List Shadow)
  | farLimitExpire (q : QueryKey)
  | searchMerge (q : QueryKey) (shadows : List Shadow)
  | refine (q : QueryKey)
  | rebalance
  | visitsHalve
  | exactBatchStart
  | srchQuery (cmd : Nat)
  | srchInsert (cmd : Nat)
  | markWaitRelease (coll list : Nat)
  | epochPublish (coll : Nat)
  | srchDelete (cmd : Nat)
  | srchCompact (cmd : Nat)
  | compactionDone (coll list : Nat)
  | searchProbe (k : IssueKey)
  | meldTopk (k : IssueKey)
  | meldMerge (k : IssueKey)
  | meldTopp (k : IssueKey)
  | meldPiece (k : IssueKey) (shadow : Shadow)
  | meldMergeGroup (k : IssueKey) (shadow : Shadow)
  | passageFetch (cmd : Nat) (reads : List (Addr × ReadResult))
  | rerank (cmd : Nat) (scores : RerankRun)
  | pack (cmd : PackRun)
  | pipeReturn (cmd : Nat)
  | tokenize (k : IssueKey)
  | detokenize (k : IssueKey)
  | deckCacheFill (deck line : Nat) (parityBad : Bool)
  | grammarMask (k : IssueKey)
  | grammarAdvance (k : IssueKey)
  | grammarFork (k : IssueKey)
  -- generation (10)
  | genStart (cmd : Nat)
  | prefillChunk (req : Nat)
  | draftTree (req : Nat) (nodes : List DraftNode)
  | acceptStep (req : Nat) (logits : List (List Word)) (repaired : Bool)
  | ringStall (req : Nat)
  | kvRebuild (req page : Nat)
  | genCancel (cmd : Nat)
  | budgetDeposit (cmd : Nat)
  | srvCtrlWrite (v : Word)
  | srvSpecWrite (v : Word)
  | srvTWeightWrite (tenant : Nat) (v : Word)
  -- embedding tables (11)
  | embLookup (cmd : Nat)
  | gatherLookup (k : IssueKey)
  | embUpdate (cmd : Nat)
  | gatherUpdate (k : IssueKey)
  | lookupReq (msg : List Byte)
  | lookupRsp (msg : List Byte)
  | update (msg : List Byte)
  | updateAck (msg : List Byte)
  | load (msg : List Byte)
  | embCheckpoint (table : Nat)
  | embCheckpointDone (table : Nat)
  | sketchHalve
  | embCtrlWrite (v : Word)
  -- tiers and media (12, 13)
  | demandFetch (tenant block : Nat)
  | fetchComplete (tenant block : Nat) (checksPass : Bool)
  | tierFetch (k : IssueKey)
  | tierWriteback (k : IssueKey)
  | t1LineRepairDone (line : Nat)
  | quotaSet (cmd : Nat)
  | mediaWrite (cmd : Nat) (res : WriteResult)
  | mediaRead (cmd : Nat)
  | mediaTrim (cmd : Nat)
  | mediaUnseal (cmd : Nat)
  | journalProgram (res : WriteResult)
  | mapCheckpoint
  | nandReadDone (lpn : Nat) (res : ReadResult) (codewords : Nat)
  | nandProgramDone (block : Nat) (res : WriteResult)
  | dieFail (die : Nat)
  | dieRebuildDone (die : Nat)
  | patrolStep (corrected : List Nat)
  | holdupFlush
  -- the Dealer and objects (14, 18)
  | dealHand (cmd : Nat)
  | resizeHand (cmd : Nat)
  | freeHand (cmd : Nat)
  | modelLoad (cmd : Nat)
  | modelEvict (cmd : Nat)
  | evictionComplete (kind number : Nat)
  | kernelRun (cmd : Nat)
  | dlrCtrlWrite (v : Word)
  | dlrTLimitWrite (tenant : Nat) (v : Word)
  -- failure and recovery (15)
  | coreWatchdog (cluster core : Nat)
  | clusterWatchdog (cluster : Nat)
  | fence (holder : BitVec 16) (generation : BitVec 16)
  | unitWatchdog (unit : Nat)
  | channelLoss (channel : Nat) (answers : Bool)
  | channelRehomeDone (channel : Nat)
  | dieLoss (die : Nat)
  | sDieLoss
  | phaseLoss (rail : Nat)
  | converterLoss
  | fltInjectWrite (v : Word)
  -- links and the cell (16)
  | linkTrained (link lanes : Nat) (hb : List Byte)
  | heartbeatSend
  | heartbeat (link : Nat) (frame : List Byte)
  | data (link : Nat) (frame : List Byte)
  | ctrl (link : Nat) (frame : List Byte)
  | nak (link : Nat) (frame : List Byte)
  | heartbeatTimeout (link : Nat)
  | laneFail (link lane : Nat)
  | spareTrained (link : Nat)
  | linkRetrainRetry (link : Nat) (trains : Bool)
  | peerLost (mem : Nat)
  | membership (msg : List Byte)
  | knock (link : Nat)
  | lnkCellWrite (v : Word)
  | lnkKnockWrite (v : Word)
  -- CXL, DOE and SPDM (17, 20)
  | configRequest (off : Nat)
  | perstAssert
  | perstDeassert
  | cxlHotReset
  | linkDown
  | flr
  | hdmRead (off len : Nat)
  | hdmWrite (off : Nat) (bytes : List Byte)
  | snoop (addr : Addr)
  | hifHdmWrite (v : Word)
  | hifBiasFlipWrite (v : Word)
  | biasFlipDone
  | msixVectorUnmask (vec : Nat)
  | doeDiscovery (idx : Nat)
  | cdatRead (entry : Nat)
  | getVersion
  | getCapabilities
  | negotiateAlgorithms (offered : BitVec 4)
  | getDigests
  | getCertificate (slot : Nat)
  | setCertificate (slot : Nat)
  | challenge (nonce : List Byte)
  | getMeasurements (index : Nat)
  | keyExchange
  | finish (verifies : Bool)
  | endSession
  | ideKm (keys : List Byte)
  | ideFail
  -- queues and module opcodes (18)
  | sqTail (tenant queue width : Nat) (v : Word)
  | cqHead (tenant queue width : Nat) (v : Word)
  | tenantCtrl (tenant width : Nat) (v : Word)
  | intake
  | cmdAdminCtrlWrite (v : Word)
  | fold (cmd : Nat)
  | identify (cmd : Nat)
  | cfgCommit (cmd : Nat) (res : WriteResult)
  | tenantCreate (cmd : Nat)
  | tenantReset (cmd : Nat)
  | queueCreate (cmd : Nat)
  | srchQueryLegacy (cmd : Nat)
  | identifyLegacy (cmd : Nat)
  | srchInsertLegacy (cmd : Nat)
  | srchDeleteLegacy (cmd : Nat)
  | mediaReadLegacy (cmd : Nat)
  | mediaWriteLegacy (cmd : Nat) (res : WriteResult)
  | embLookupLegacy (cmd : Nat)
  | dumpRead (cmd : Nat)
  | fwStage (cmd : Nat) (res : WriteResult)
  | fwActivate (cmd : Nat) (loads : Bool)
  | probationPass
  -- power (19, 22)
  | powerOn
  | uvWarn
  | uvRelease
  | issueLevelStep
  | brownOut
  | alwaysOnLoss
  | foldOvercurrent
  | capWindow (millivolts watts : Nat)
  | pwrCapWrite (v : Word)
  | thermalWindow (junctions : List Nat)
  | thermalTrip
  | tripRelease
  | bringUp (o : BringUp)
  | domainSwitch
  | sidebandReset
  | receiverDetect
  | smbusWakeTransaction
  | pldmMonitorRead (sensor : Nat)
  | pldmFwUpdate (image : List Byte)
  | sensorPoll (readings : List Nat)
  | aliveToggle
  | secDebugSubmit (v : Word)
  | debugUnlock
  | secOpkeyBurn (v : Word)
  | bypass
  | idcode
  | samplePreload
  | extest
  | highz
  | romCheck (matches' : Bool)
  | fatalError (cause : Nat)
  | dumpInfo
  | dumpChunk (off : Nat)
  -- the later rows
  | illegalEncoding (i : Iss) (w0 w1 : Word)
  | cxlLinkTrained (mode : CxlMode) (width rate : Nat)
  | hostReject (what : RejectOf)
  | leave (mem : Nat)
  | clusterReady (cluster : Nat)
  | bridgeRetrain (dieA dieB : Nat)
  | retrainFail (link : Nat)
  | spareTrainFail (link : Nat)
  deriving DecidableEq, Repr

end Sys2Proof
end

