-- ==== Sys2Proof/Decode.lean ====
section
/-!
DEFINITION. The words of thread instructions (04 R98 to R102): an encoder, the register ranges and types that are legal,
and a decoder total on any two words. The opcode table gives its rows no bits, so no table word spells a command.
-/
namespace Sys2Proof

/-- The command a table word spells: the table gives no row any bits. -/
def decodeTableWord (_nbits _w : Nat) : Option Instr := none

/-! ### Encoding -/

/-- Format R (04 R98). -/
def encR (op d a pg b fn : Nat) : Nat := op * 2 ^ 26 + d * 2 ^ 21 + a * 2 ^ 16 + pg * 2 ^ 13 + b * 2 ^ 8 + fn

/-- Format I (04 R98): IMM is the low 13 bits. -/
def encI (op d a pg imm : Nat) : Nat := op * 2 ^ 26 + d * 2 ^ 21 + a * 2 ^ 16 + pg * 2 ^ 13 + imm

/-- Format M (04 R98). -/
def encM (op d a pg sz off : Nat) : Nat := op * 2 ^ 26 + d * 2 ^ 21 + a * 2 ^ 16 + pg * 2 ^ 13 + sz * 2 ^ 11 + off

/-- Word 0 of format L (04 R98). -/
def encL (d a pg lop : Nat) : Nat := 0x3E * 2 ^ 26 + d * 2 ^ 21 + a * 2 ^ 16 + pg * 2 ^ 13 + lop * 2 ^ 8

/-- FN[7:6] of a vector instruction (04 R101). -/
def LaneTy.code : LaneTy → Nat
  | .fp32 => 0
  | .bf16 => 1
  | .int32 => 2

/-- FN of a vector instruction from its type and operation (04 R101). -/
def vfn (ty : LaneTy) (op : Nat) : Nat := ty.code * 64 + op

/-- FN of the logic and arithmetic group of OP 0x00 (04 R100). -/
def ArithOp.fn : ArithOp → Nat
  | .add => 0 | .sub => 1 | .and => 2 | .or => 3 | .xor => 4

/-- FN of a register shift (04 R100). -/
def ShiftOp.fn : ShiftOp → Nat
  | .shl => 5 | .shr => 6 | .sra => 7

/-- FN of a minimum or maximum (04 R100). -/
def MinMaxOp.fn : MinMaxOp → Nat
  | .min => 12 | .max => 13 | .minu => 14 | .maxu => 15

/-- OP of an immediate instruction (04 R100). -/
def ImmOp.op : ImmOp → Nat
  | .addi => 1 | .andi => 2 | .ori => 3 | .xori => 4

/-- FN of a comparison (04 R100). -/
def CmpOp.fn : CmpOp → Nat
  | .eq => 0 | .ne => 1 | .lt => 2 | .ltu => 3 | .ge => 4 | .geu => 5

/-- FN of predicate logic (04 R100). -/
def PredOp.fn : PredOp → Nat
  | .pand => 0 | .por => 1 | .pxor => 2

/-- Operation code of vector arithmetic (04 R101). -/
def VArithOp.fn : VArithOp → Nat
  | .vadd => 0 | .vsub => 1 | .vmul => 2

/-- Operation code of vector logic (04 R101). -/
def VLogicOp.fn : VLogicOp → Nat
  | .vand => 0x09 | .vor => 0x0A | .vxor => 0x0B

/-- Operation code of a vector comparison (04 R101). -/
def VCmpOp.fn : VCmpOp → Nat
  | .vcmpeq => 0x10 | .vcmplt => 0x11 | .vcmple => 0x12

/-- Operation code of a reduction (04 R101). -/
def VRedOp.fn : VRedOp → Nat
  | .vredsum => 0x18 | .vredmax => 0x19 | .vredmin => 0x1A

/-- The first word of a thread instruction (04 R98, R100, R101); 0 for the other commands. -/
def threadWord : Instr → Nat
  | .addSubAndOrXor i op d a b => encR 0 d.toNat a.toNat i.pg.toNat b.toNat op.fn
  | .shlShrSra i op d a b => encR 0 d.toNat a.toNat i.pg.toNat b.toNat op.fn
  | .mulMulhu i high d a b => encR 0 d.toNat a.toNat i.pg.toNat b.toNat (8 + boolNat high)
  | .divuRemu i rem d a b => encR 0 d.toNat a.toNat i.pg.toNat b.toNat (10 + boolNat rem)
  | .minMaxMinuMaxu i op d a b => encR 0 d.toNat a.toNat i.pg.toNat b.toNat op.fn
  | .addiAndiOriXori i op d a imm => encI op.op d.toNat a.toNat i.pg.toNat imm.toNat
  | .shliShriSrai i op d a imm => encI op.fn d.toNat a.toNat i.pg.toNat imm.toNat
  | .cmp i op d a b => encR 8 d.toNat a.toNat i.pg.toNat b.toNat op.fn
  | .br i imm => encI 9 0 0 i.pg.toNat imm.toNat
  | .jr i a => encR 10 0 a.toNat i.pg.toNat 0 0
  | .jal i d a imm => encI 11 d.toNat a.toNat i.pg.toNat imm.toNat
  | .pandPorPxor i op d a b => encR 12 d.toNat a.toNat i.pg.toNat b.toNat op.fn
  | .pnot i d a => encR 12 d.toNat a.toNat i.pg.toNat 0 3
  | .pfromsPtos i ts d a => encR 12 d.toNat a.toNat i.pg.toNat 0 (4 + boolNat ts)
  | .ldsSts i st sz d a off => encM (0x10 + boolNat st) d.toNat a.toNat i.pg.toNat sz.toNat off.toNat
  | .ldSt i st sz d a off => encM (0x12 + boolNat st) d.toNat a.toNat i.pg.toNat sz.toNat off.toNat
  | .vldsVsts i st sz d a off => encM (0x14 + boolNat st) d.toNat a.toNat i.pg.toNat sz.toNat off.toNat
  | .vldVst i st sz d a off => encM (0x16 + boolNat st) d.toNat a.toNat i.pg.toNat sz.toNat off.toNat
  | .amo i fn d a b => encR 0x18 d.toNat a.toNat i.pg.toNat b.toNat fn.toNat
  | .fenceAcq i => encR 0x19 0 0 i.pg.toNat 0 0
  | .fenceRel i => encR 0x19 0 0 i.pg.toNat 0 1
  | .fenceSys i => encR 0x19 0 0 i.pg.toNat 0 2
  | .hbarSync i bar => encI 0x1A 0 0 i.pg.toNat bar.toNat
  | .hbarArrive i bar => encI 0x1A 0 0 i.pg.toNat (16 + bar.toNat)
  | .hbarWait i bar => encI 0x1A 0 0 i.pg.toNat (32 + bar.toNat)
  | .hbarInit i bar a => encI 0x1A 0 a.toNat i.pg.toNat (48 + bar.toNat)
  | .dma i d a => encR 0x1C d.toNat a.toNat i.pg.toNat 0 0
  | .dwait i a => encR 0x1C 0 a.toNat i.pg.toNat 0 1
  | .dtest i d a => encR 0x1C d.toNat a.toNat i.pg.toNat 0 2
  | .uissue i d a => encR 0x1D d.toNat a.toNat i.pg.toNat 0 0
  | .uwait i a => encR 0x1D 0 a.toNat i.pg.toNat 0 1
  | .utest i d a => encR 0x1D d.toNat a.toNat i.pg.toNat 0 2
  | .mstream i a => encR 0x20 0 a.toNat i.pg.toNat 0 0
  | .mrun i => encR 0x20 0 0 i.pg.toNat 0 1
  | .mwaitRun i => encR 0x20 0 0 i.pg.toNat 0 2
  | .mwaitAll i => encR 0x20 0 0 i.pg.toNat 0 3
  | .mdrain i a b _ => encR 0x20 0 a.toNat i.pg.toNat b.toNat 4
  | .relayout i a => encR 0x21 0 a.toNat i.pg.toNat 0 0
  | .csrr i d imm => encI 0x3C d.toNat 0 i.pg.toNat imm.toNat
  | .tspawn i d a b => encR 0x3D d.toNat a.toNat i.pg.toNat b.toNat 0
  | .nop i => encR 0x3F 0 0 i.pg.toNat 0 0
  | .halt i => encR 0x3F 0 0 i.pg.toNat 0 1
  | .liLih i high d _ => encL d.toNat 0 i.pg.toNat (boolNat high)
  | .addl i d a _ => encL d.toNat a.toNat i.pg.toNat 2
  | .brl i _ => encL 0 0 i.pg.toNat 3
  | .vaddVsubVmul i op ty d a b => encR 0x30 d.toNat a.toNat i.pg.toNat b.toNat (vfn ty op.fn)
  | .vfma i ty d a b => encR 0x30 d.toNat a.toNat i.pg.toNat b.toNat (vfn ty 3)
  | .vdivVsqrt i sq d a b => encR 0x30 d.toNat a.toNat i.pg.toNat b.toNat (vfn .fp32 (4 + boolNat sq))
  | .vminVmax i mx ty d a b => encR 0x30 d.toNat a.toNat i.pg.toNat b.toNat (vfn ty (6 + boolNat mx))
  | .vexp2 i ty d a => encR 0x30 d.toNat a.toNat i.pg.toNat 0 (vfn ty 8)
  | .vandVorVxor i op ty d a b => encR 0x30 d.toNat a.toNat i.pg.toNat b.toNat (vfn ty op.fn)
  | .vshlVsra i sra d a b => encR 0x30 d.toNat a.toNat i.pg.toNat b.toNat (vfn .int32 (0x0C + boolNat sra))
  | .vcmpeqVcmpltVcmple i op ty d a b => encR 0x30 d.toNat a.toNat i.pg.toNat b.toNat (vfn ty op.fn)
  | .vsel i ty d a b => encR 0x30 d.toNat a.toNat i.pg.toNat b.toNat (vfn ty 0x13)
  | .vredsumVredmaxVredmin i op ty d a => encR 0x30 d.toNat a.toNat i.pg.toNat 0 (vfn ty op.fn)
  | .vargmax i ty d a => encR 0x30 d.toNat a.toNat i.pg.toNat 0 (vfn ty 0x1B)
  | .vbcast i ty d a => encR 0x30 d.toNat a.toNat i.pg.toNat 0 (vfn ty 0x20)
  | .vtos i ty d a b => encR 0x30 d.toNat a.toNat i.pg.toNat b.toNat (vfn ty 0x21)
  | .vcvt i ty d a => encR 0x30 d.toNat a.toNat i.pg.toNat 0 (vfn ty 0x22)
  | .vwiden i d a half => encR 0x30 d.toNat a.toNat i.pg.toNat half.toNat (vfn .bf16 0x23)
  | .vnarrow i d a half => encR 0x30 d.toNat a.toNat i.pg.toNat half.toNat (vfn .bf16 0x24)
  | .vpack i d a b => encR 0x30 d.toNat a.toNat i.pg.toNat b.toNat (vfn .fp32 0x26)
  | .vmxscale i d a b => encR 0x30 d.toNat a.toNat i.pg.toNat b.toNat (vfn .fp32 0x27)
  | _ => 0

/-- Bytes of a thread instruction: 8 in the long form, else 4 (04 R98). -/
def threadLen : Instr → Nat
  | .liLih .. => 8
  | .addl .. => 8
  | .brl .. => 8
  | _ => 4

/-! ### Legality -/

/-- A vector register field in range (04 R98). -/
def vOk (r : BitVec 5) : Bool := r.toNat < 16

/-- A predicate register field in range (04 R98). -/
def pOk (r : BitVec 5) : Bool := r.toNat < 8

/-- Whether a thread instruction is legal: register fields in range, the operation defined for its type, fixed fields as
the table has them (04 R98 to R102, R122, R123). -/
def threadLegal : Instr → Bool
  | .shliShriSrai _ _ _ _ imm => imm.toNat < 64
  | .cmp _ _ d _ _ => pOk d
  | .pandPorPxor _ _ d a b => pOk d && pOk a && pOk b
  | .pnot _ d a => pOk d && pOk a
  | .pfromsPtos _ ts d a => if ts then pOk a else pOk d
  | .vldsVsts _ _ sz d _ _ => sz == 0 && vOk d
  | .vldVst _ _ sz d _ _ => sz == 0 && vOk d
  | .amo _ fn _ _ _ => fn.toNat % 8 < 6 && fn.toNat < 32
  | .dtest _ d _ => pOk d
  | .utest _ d _ => pOk d
  | .csrr _ _ imm => imm.toNat < 8
  | .vaddVsubVmul _ _ _ d a b => vOk d && vOk a && vOk b
  | .vfma _ ty d a b => ty != .int32 && vOk d && vOk a && vOk b
  | .vdivVsqrt _ sq d a b => vOk d && vOk a && (sq || vOk b)
  | .vminVmax _ _ _ d a b => vOk d && vOk a && vOk b
  | .vexp2 _ ty d a => ty != .int32 && vOk d && vOk a
  | .vandVorVxor _ _ _ d a b => vOk d && vOk a && vOk b
  | .vshlVsra _ _ d a b => vOk d && vOk a && vOk b
  | .vcmpeqVcmpltVcmple _ _ _ d a b => pOk d && vOk a && vOk b
  | .vsel _ _ d a b => vOk d && vOk a && vOk b
  | .vredsumVredmaxVredmin _ _ ty d a => ty != .bf16 && vOk d && vOk a
  | .vargmax _ ty d a => ty != .bf16 && vOk d && vOk a
  | .vbcast _ _ d _ => vOk d
  | .vtos _ _ _ a _ => vOk a
  | .vcvt _ ty d a => ty != .bf16 && vOk d && vOk a
  | .vwiden _ d a h => vOk d && vOk a && h.toNat < 2
  | .vnarrow _ d a h => vOk d && vOk a && h.toNat < 2
  | .vpack _ d a _ => vOk d && a.toNat < 15 && a.toNat % 2 == 0
  | .vmxscale _ d a _ => vOk d && a.toNat < 15 && a.toNat % 2 == 0
  | _ => true

/-! ### Decoding -/

/-- OP 0x00 (04 R100). -/
def decodeAlu (i : Iss) (d a b : BitVec 5) (fn : Nat) : Option Instr :=
  match fn with
  | 0 => some (.addSubAndOrXor i .add d a b)
  | 1 => some (.addSubAndOrXor i .sub d a b)
  | 2 => some (.addSubAndOrXor i .and d a b)
  | 3 => some (.addSubAndOrXor i .or d a b)
  | 4 => some (.addSubAndOrXor i .xor d a b)
  | 5 => some (.shlShrSra i .shl d a b)
  | 6 => some (.shlShrSra i .shr d a b)
  | 7 => some (.shlShrSra i .sra d a b)
  | 8 => some (.mulMulhu i false d a b)
  | 9 => some (.mulMulhu i true d a b)
  | 10 => some (.divuRemu i false d a b)
  | 11 => some (.divuRemu i true d a b)
  | 12 => some (.minMaxMinuMaxu i .min d a b)
  | 13 => some (.minMaxMinuMaxu i .max d a b)
  | 14 => some (.minMaxMinuMaxu i .minu d a b)
  | 15 => some (.minMaxMinuMaxu i .maxu d a b)
  | _ => none

/-- OP 0x08 (04 R100). -/
def decodeCmp (i : Iss) (d a b : BitVec 5) (fn : Nat) : Option Instr :=
  match fn with
  | 0 => some (.cmp i .eq d a b)
  | 1 => some (.cmp i .ne d a b)
  | 2 => some (.cmp i .lt d a b)
  | 3 => some (.cmp i .ltu d a b)
  | 4 => some (.cmp i .ge d a b)
  | 5 => some (.cmp i .geu d a b)
  | _ => none

/-- OP 0x0C (04 R100). -/
def decodePred (i : Iss) (d a b : BitVec 5) (fn : Nat) : Option Instr :=
  match fn with
  | 0 => some (.pandPorPxor i .pand d a b)
  | 1 => some (.pandPorPxor i .por d a b)
  | 2 => some (.pandPorPxor i .pxor d a b)
  | 3 => some (.pnot i d a)
  | 4 => some (.pfromsPtos i false d a)
  | 5 => some (.pfromsPtos i true d a)
  | _ => none

/-- OP 0x1A: IMM[6:4] selects the barrier operation (04 R123). -/
def decodeHbar (i : Iss) (a : BitVec 5) (imm : Nat) : Option Instr :=
  let bar := BitVec.ofNat 4 imm
  match bits imm 6 4 with
  | 0 => some (.hbarSync i bar)
  | 1 => some (.hbarArrive i bar)
  | 2 => some (.hbarWait i bar)
  | 3 => some (.hbarInit i bar a)
  | _ => none

/-- OP 0x20 (04 R100). -/
def decodeMatrix (i : Iss) (a b : BitVec 5) (fn : Nat) : Option Instr :=
  match fn with
  | 0 => some (.mstream i a)
  | 1 => some (.mrun i)
  | 2 => some (.mwaitRun i)
  | 3 => some (.mwaitAll i)
  | 4 => some (.mdrain i a b .none)
  | _ => none

/-- Lane type of FN[7:6] (04 R101). -/
def decodeLane (c : Nat) : Option LaneTy :=
  match c with
  | 0 => some .fp32
  | 1 => some .bf16
  | 2 => some .int32
  | _ => none

/-- OP 0x30 under a lane type (04 R101): an operation with one type only is refused under the others. -/
def decodeVector (i : Iss) (ty : LaneTy) (d a b : BitVec 5) (op : Nat) : Option Instr :=
  let only (t : LaneTy) (x : Instr) : Option Instr := if ty = t then some x else none
  match op with
  | 0x00 => some (.vaddVsubVmul i .vadd ty d a b)
  | 0x01 => some (.vaddVsubVmul i .vsub ty d a b)
  | 0x02 => some (.vaddVsubVmul i .vmul ty d a b)
  | 0x03 => some (.vfma i ty d a b)
  | 0x04 => only .fp32 (.vdivVsqrt i false d a b)
  | 0x05 => only .fp32 (.vdivVsqrt i true d a b)
  | 0x06 => some (.vminVmax i false ty d a b)
  | 0x07 => some (.vminVmax i true ty d a b)
  | 0x08 => some (.vexp2 i ty d a)
  | 0x09 => some (.vandVorVxor i .vand ty d a b)
  | 0x0A => some (.vandVorVxor i .vor ty d a b)
  | 0x0B => some (.vandVorVxor i .vxor ty d a b)
  | 0x0C => only .int32 (.vshlVsra i false d a b)
  | 0x0D => only .int32 (.vshlVsra i true d a b)
  | 0x10 => some (.vcmpeqVcmpltVcmple i .vcmpeq ty d a b)
  | 0x11 => some (.vcmpeqVcmpltVcmple i .vcmplt ty d a b)
  | 0x12 => some (.vcmpeqVcmpltVcmple i .vcmple ty d a b)
  | 0x13 => some (.vsel i ty d a b)
  | 0x18 => some (.vredsumVredmaxVredmin i .vredsum ty d a)
  | 0x19 => some (.vredsumVredmaxVredmin i .vredmax ty d a)
  | 0x1A => some (.vredsumVredmaxVredmin i .vredmin ty d a)
  | 0x1B => some (.vargmax i ty d a)
  | 0x20 => some (.vbcast i ty d a)
  | 0x21 => some (.vtos i ty d a b)
  | 0x22 => some (.vcvt i ty d a)
  | 0x23 => only .bf16 (.vwiden i d a b)
  | 0x24 => only .bf16 (.vnarrow i d a b)
  | 0x26 => only .fp32 (.vpack i d a b)
  | 0x27 => only .fp32 (.vmxscale i d a b)
  | _ => none

/-- OP 0x3E: word 0 [7:0] is reserved (04 R98). -/
def decodeLong (i : Iss) (d a : BitVec 5) (lop res : Nat) (imm : Word) : Option Instr :=
  if res ≠ 0 then none else
  match lop with
  | 0 => some (.liLih i false d imm)
  | 1 => some (.liLih i true d imm)
  | 2 => some (.addl i d a imm)
  | 3 => some (.brl i imm)
  | _ => none

/-- By OP; the fields as 04 R98 lays them out. -/
def decodeOp (i : Iss) (op : Nat) (d a b : BitVec 5) (fn imm sz off : Nat) (w1 : Word) : Option Instr :=
  let im := BitVec.ofNat 13 imm
  let sz := BitVec.ofNat 2 sz
  let off := BitVec.ofNat 11 off
  match op with
  | 0x00 => decodeAlu i d a b fn
  | 0x01 => some (.addiAndiOriXori i .addi d a im)
  | 0x02 => some (.addiAndiOriXori i .andi d a im)
  | 0x03 => some (.addiAndiOriXori i .ori d a im)
  | 0x04 => some (.addiAndiOriXori i .xori d a im)
  | 0x05 => some (.shliShriSrai i .shl d a im)
  | 0x06 => some (.shliShriSrai i .shr d a im)
  | 0x07 => some (.shliShriSrai i .sra d a im)
  | 0x08 => decodeCmp i d a b fn
  | 0x09 => some (.br i im)
  | 0x0A => if fn = 0 then some (.jr i a) else none
  | 0x0B => some (.jal i d a im)
  | 0x0C => decodePred i d a b fn
  | 0x10 => some (.ldsSts i false sz d a off)
  | 0x11 => some (.ldsSts i true sz d a off)
  | 0x12 => some (.ldSt i false sz d a off)
  | 0x13 => some (.ldSt i true sz d a off)
  | 0x14 => some (.vldsVsts i false sz d a off)
  | 0x15 => some (.vldsVsts i true sz d a off)
  | 0x16 => some (.vldVst i false sz d a off)
  | 0x17 => some (.vldVst i true sz d a off)
  | 0x18 => some (.amo i (BitVec.ofNat 8 fn) d a b)
  | 0x19 => if fn = 0 then some (.fenceAcq i) else if fn = 1 then some (.fenceRel i)
            else if fn = 2 then some (.fenceSys i) else none
  | 0x1A => decodeHbar i a imm
  | 0x1C => if fn = 0 then some (.dma i d a) else if fn = 1 then some (.dwait i a)
            else if fn = 2 then some (.dtest i d a) else none
  | 0x1D => if fn = 0 then some (.uissue i d a) else if fn = 1 then some (.uwait i a)
            else if fn = 2 then some (.utest i d a) else none
  | 0x20 => decodeMatrix i a b fn
  | 0x21 => if fn = 0 then some (.relayout i a) else none
  | 0x30 => (decodeLane (bits fn 7 6)).bind (fun ty => decodeVector i ty d a b (bits fn 5 0))
  | 0x3C => some (.csrr i d im)
  | 0x3D => if fn = 0 then some (.tspawn i d a b) else none
  | 0x3E => decodeLong i d a b.toNat fn w1
  | 0x3F => if fn = 0 then some (.nop i) else if fn = 1 then some (.halt i) else none
  | _ => none

/-- The instruction of context `ctx` of seat `seat` that two words stand for; none for an encoding that is illegal
(04 R99). The second word is used by the long form only. -/
def decodeThread (seat ctx : Nat) (w0 w1 : Word) : Option Instr :=
  let w := w0.toNat
  let i : Iss := { seat := seat, ctx := ctx, pg := BitVec.ofNat 3 (bits w 15 13) }
  (decodeOp i (bits w 31 26) (BitVec.ofNat 5 (bits w 25 21)) (BitVec.ofNat 5 (bits w 20 16))
    (BitVec.ofNat 5 (bits w 12 8)) (bits w 7 0) (bits w 12 0) (bits w 12 11) (bits w 10 0) w1).bind
    (fun x => if threadLegal x then some x else none)

end Sys2Proof
end

