-- ==== Sys2Proof/Config.lean ====
section
/-!
DEFINITION. What an implementation fixes and the values the manual leaves open. Every constant here is opaque, so no
proof can lean on a value of it (notes/assumptions/6.md, 10.md, 11.md).
-/
namespace Sys2Proof

/-- MOD_SERIAL, fixed at manufacture (21 R546). -/
opaque Config.serial : Addr

/-- MOD_ID.STEPPING, per silicon (21 R545). -/
opaque Config.stepping : Byte

/-- The `i`-th part of the `n`-th free value the module draws; `State.fresh` counts the draws. -/
opaque Config.free : (n i : Nat) → Nat

/-- The request generator's draw for a seed and an output position, as a fraction of 2^53 (10 R253). -/
opaque Config.draw : (seed : Addr) → (n : Nat) → Nat

/-- The exponential of a nonpositive binary32 number, of which the pattern is cut to [0, 1], and the logarithm of a number in [0, 1), in the
binary32 of a softmax: neither has a stated rounding (10 R253). -/
opaque Config.exp32 : Word → Nat
opaque Config.ln32 : Word → Word

/-- The memory channel that serves a 128-byte line of a die's T1, which an atomic waits for while it is re-homed (04 R122). -/
opaque Config.channelOf : (die line : Nat) → Nat

/-- Bytes of the block table and the lifetime counters as a checkpoint slot holds them (13 R332). -/
opaque Config.tableBytes : Nat

/-- The set of the row cache a row of a table maps to, and its counter in row `j` of the frequency sketch, 0 to 16,383
(11 R285): the hash functions are the module's own. -/
opaque Config.embSet : (table row : Nat) → Nat
opaque Config.sketchIdx : (j table row : Nat) → Nat

/-- Whether a signature verifies under the key named (20 R525, R528, R534): 0 the Gomaum release key, 1 the operator
key, 2 the debug key. Arguments: key, signed bytes, signature bytes. -/
opaque Config.verifies : (key : Nat) → (signed signature : List Byte) → Bool

/-- A signature by the alias key of the image with a DIGEST (20 R531, R532). -/
opaque Config.sign : (digest signed : List Byte) → List Byte

/-- The certificate chain in SPDM slot 0 under an image with a DIGEST and an SVN (20 R531). -/
opaque Config.chain : (digest : List Byte) → (svn : Nat) → List Byte

/-- Objects whose layout other specifications give: a DOE Discovery answer, and a CDAT entry of the window with its bytes, read
latency in ns and bandwidth in GB/s (17 R455). -/
opaque Config.doeDiscovery : (index : Nat) → List Byte
opaque Config.cdatEntry : (entry bytes latency bandwidth : Nat) → List Byte

/-- A word of configuration space that the manual does not give (17 R445). -/
opaque Config.configSpace : (off : Nat) → Word

/-- SPDM answers whose contents the SPDM specification defines, by request code (20 R532). -/
opaque Config.spdmBody : (code : Nat) → List Byte

/-- The bytes of Gomaum's ROM code, measured at index 1 (20 R533). -/
opaque Config.rom : List Byte

/-- The CXL component registers, whose contents the CXL specification defines and the manual does not give (17 R446). -/
opaque Config.cxlComponent : (off : Nat) → Nat

/-- Codes of the event log for the counters of the FLT_ block (23 R568). -/
opaque Config.eventCode : (counter : Nat) → Nat

/-- Whether the payload of a CTRL frame offers a spare: the manual gives CTRL frames no layout (16 R427). -/
opaque Config.ctrlOffer : (payload : List Byte) → Bool

end Sys2Proof
end

