-- ==== Sys2Proof/Machine/Types.lean ====
section
/-!
DEFINITION. The parts of the module's state, chapter by chapter, as plain data. `State.lean` puts them together.
Numbers that software never masks or shifts are `Nat`; registers, addresses and register contents are bit vectors.
-/
namespace Sys2Proof.Machine

/-- The parts of the family (00 R2, R3). -/
inductive Variant | v9720 | v9714 | v9706
  deriving DecidableEq, Repr

/-! ### Seats and threads (02, 03, 04) -/

/-- States of a thread context (04 R94). -/
inductive CtxMode | idle | running | faulted
  deriving DecidableEq, Repr

/-- What a RUNNING context waits on; `none` is ready (04 R94). -/
inductive Wait
  | none
  /-- DWAIT on a ticket, or on all of them (04 R100). -/
  | dma (ticket : Option Nat)
  /-- UWAIT on a ticket, or on all of them (04 R100, R121). -/
  | unit (ticket : Option Nat)
  /-- MWAIT.RUN and MWAIT.ALL (04 R100). -/
  | matrix (all : Bool)
  /-- MDRAIN waits for a tile to complete (02 R34), or for its repair (03 R81). -/
  | drain
  /-- A DMA or unit issue beyond its limit (04 R107, R110). -/
  | slot
  /-- HBAR WAIT: barrier and phase of the last arrival (04 R123). -/
  | barrier (bar phase : Nat)
  /-- HALT waits for the context's outstanding work (04 R104). -/
  | halt
  /-- An access to a T1 page with PRESENT 0, by 64 KiB block (04 R117). -/
  | page (block : Nat)
  /-- A seat-buffer line under refetch (03 R85). -/
  | parity (line : Nat)
  /-- An access to a location under channel re-homing (04 R118, R122, 12 R309). -/
  | homing
  deriving DecidableEq, Repr

/-- An outstanding TVA load or atomic with return: the register it will write and the value it will bring (04 R96). -/
structure Load where
  vec : Bool
  dst : Nat
  val : VReg
  /-- The address, length and lanes of a load, which reads again when its seat stops; none for an atomic, which keeps its value (14 R365). -/
  again : Option (Nat × Nat × Word) := none
  deriving DecidableEq, Repr

/-- A DMA descriptor as copied at issue, with its ticket (04 R106, R107). -/
structure Dma where
  ticket : Nat
  src : Nat
  dst : Nat
  length : Nat
  srcAddr : Bool
  dstAddr : Bool
  zero : Bool
  decomp : Bool
  deriving DecidableEq, Repr

/-- One hardware thread context (04 R95). -/
structure Ctx where
  mode : CtxMode
  wait : Wait
  s : List Addr
  v : List VReg
  p : List Word
  pc : Addr
  /-- The stream descriptor pointer of MSTREAM; none before the first MSTREAM of the invocation (04 R104). -/
  stream : Option Nat
  nextDma : Nat
  nextUnit : Nat
  dmas : List Dma
  /-- Tickets of unit issues not yet completed (04 R110). -/
  units : List Nat
  loads : List Load
  /-- The phase of the context's last arrival at each barrier (04 R123). -/
  arrivals : List (Nat × Nat)
  /-- The place in issue order of a matrix instruction of the context that waits at the seat's matrix queue, and whether it is an MDRAIN (02
  R35). -/
  turn : Option (Nat × Bool)
  deriving DecidableEq, Repr

/-- A floating value: NaN, an infinity, or the dyadic number `m * 2^e` with its sign, zeros included (03 R63, R66). -/
inductive FVal
  | nan
  | inf (neg : Bool)
  | num (neg : Bool) (m : Nat) (e : Int)
  deriving DecidableEq, Repr

/-- The stream descriptor of 02 R38. -/
structure StreamDesc where
  aBase : Nat
  bBase : Nat
  aScale : Nat
  bScale : Nat
  k : Nat
  aStride : Nat
  bStride : Nat
  aFmt : Nat
  bFmt : Nat
  m : Nat
  n : Nat
  cont : Bool
  rowValid : BitVec 64
  colValid : BitVec 64
  deriving DecidableEq, Repr

/-- A run in the matrix queue: the descriptor as copied, the issuing context, and the operands as they stood when the
MRUN took effect (04 R120). -/
structure Run where
  desc : StreamDesc
  ctx : Nat
  a : List (List FVal)
  b : List (List FVal)
  tolShift : Nat
  deriving DecidableEq, Repr

/-- A tile in an accumulator set: its runs in order (02 R34, R42, 03 R82). -/
structure Tile where
  runs : List Run
  deriving DecidableEq, Repr

/-- The decoded MDRAIN control word with its target (04 R105). -/
structure Drain where
  ctx : Nat
  target : Nat
  fmt : Nat
  stoch : Bool
  nanOpt : Bool
  column : Bool
  act : Nat
  dstride : Nat
  deriving DecidableEq, Repr

/-- A tile under repair: the step of 03 R81 that runs. -/
structure Repair where
  tile : Tile
  drain : Drain
  step : Nat
  deriving DecidableEq, Repr

/-- States of a seat (02 R31), in SEAT_STATE's code order (R60). -/
inductive SeatMode | dark | idle | dealt | quarantined
  deriving DecidableEq, Repr

/-- Steady-load mode of one seat (02 R55): the running average of active cells, whether a gap has reached 3,600 cycles, the
cells that run dummy MACs, and the issue rate in tenths. -/
structure Steady where
  on : Bool
  average : Nat
  gapped : Bool
  dummy : Nat
  rate : Nat
  deriving DecidableEq, Repr

/-- The state of one seat as it was saved (14 R366, R367), or as it stood at a trick boundary (03 R85): contexts, accumulators,
matrix queue, seat-buffer bytes. -/
structure SavedSeat where
  ctxs : List Ctx
  sets : List Tile
  queue : List Run
  sbuf : List Host.Cell
  /-- Bytes of the seat buffer that are kept: SBUF_BYTES of the kernel for a suspended seat, all for one that moves (14 R367). -/
  kept : Nat
  /-- The die that homes the save area (12 R306). -/
  die : Nat
  deriving DecidableEq, Repr

/-- What the array's last run and drain leave for the timing of the next (02 R44, R45, R48): the last run's descriptor, whether the
last drain had COLUMN and no tile has followed it, and the range that drain wrote. -/
structure ArrayTail where
  last : Option StreamDesc
  column : Bool
  target : Option (Nat × Nat)
  deriving DecidableEq, Repr

/-- One seat (02 R30 to R60). -/
structure Seat where
  mode : SeatMode
  hand : Nat
  ctxs : List Ctx
  /-- Accumulator sets in use, oldest tile first, at most two (02 R34). -/
  sets : List Tile
  queue : List Run
  repair : Option Repair
  /-- Tiles drained since each strike in the window (03 R83). -/
  strikes : List Nat
  clearing : Bool
  saving : Bool
  /-- The invocation whose rank this seat runs. -/
  inv : Option Nat
  /-- Seat-buffer words whose parity fails, by byte offset (03 R85). -/
  badWords : List Nat
  /-- Lines DMA wrote since the last boundary, with the memory key of their source (03 R85). -/
  dmaLines : List (Nat × Nat)
  /-- Words of such lines that a store or a drain has written since: they have no source (03 R85). -/
  storedWords : List Nat
  /-- What its contexts stored through the TVA since the boundary: memory key, bytes that stood there, bytes stored; newest first (15 R389). -/
  writes : List (Nat × List Byte × List Byte)
  /-- The seat as it stood at its hand's last trick boundary, or when its work came to it (03 R85). -/
  mark : Option SavedSeat
  tail : ArrayTail
  steady : Steady
  deriving DecidableEq, Repr

/-- A hand barrier (04 R123). -/
structure Barrier where
  init : Bool
  count : Nat
  phase : Nat
  arrived : Nat
  deriving DecidableEq, Repr

/-- The fault record of 04 R112. -/
structure FaultRec where
  kind : Nat
  ctx : Nat
  rank : Nat
  instr : Word
  pc : Addr
  addr : Addr
  deriving DecidableEq, Repr

/-- One kernel invocation (04 R113, R125, R126). -/
structure Invocation where
  id : Nat
  tenant : Nat
  hand : Nat
  cmd : Nat
  model : Nat
  kernel : Nat
  stock : Bool
  sbufBytes : Nat
  /-- Rank i runs on the i-th seat of this list; empty while suspended. -/
  seats : List Nat
  seatCount : Nat
  barriers : List Barrier
  fault : Option FaultRec
  /-- The status with which the work ends at the next boundary: ABORTED_FAULT, or QUOTA_EXCEEDED (03 R81, 04 R113, 12
  R308, R311, 17 R448). -/
  stop : Option Nat
  saved : Option (List SavedSeat)
  boundaries : Nat
  entry : Addr
  arg : Addr
  deriving DecidableEq, Repr

/-- A unit issue that passed 04 R109, as copied at issue. -/
structure UnitIssue where
  key : IssueKey
  tenant : Nat
  stock : Bool
  unit : Nat
  op : Nat
  body : List Byte
  done : Addr
  tag : Addr
  recovered : Bool
  /-- The issue has passed its unit's checks and is being worked on. -/
  begun : Bool
  deriving DecidableEq, Repr

/-- Who waits for a unit or an engine: a command or a unit issue. -/
inductive Waiter | cmd (h : Nat) | issue (k : IssueKey)
  deriving DecidableEq, Repr

/-! ### Audit registers (03 R89 to R91) -/

/-- AUD_CTRL. -/
structure AudCtrl where
  tolErr : Bool
  tolShift : Nat
  deriving DecidableEq, Repr

/-- AUD_LAST. -/
structure AudLast where
  valid : Bool
  kind : Nat
  unit : Nat
  row : Nat
  col : Nat
  deriving DecidableEq, Repr

/-- AUD_INJECT. -/
structure AudInject where
  arm : Bool
  seat : Nat
  row : Nat
  col : Nat
  bit : Nat
  deriving DecidableEq, Repr

/-! ### Hands (14) -/

/-- DLR_CTRL (14 R380). -/
structure DlrCtrl where
  err : Bool
  runTricks : Nat
  trickKcyc : Nat
  deriving DecidableEq, Repr

/-- A RESIZE_HAND not yet in effect (14 R362, R379). -/
structure Resize where
  cmds : List Nat
  /-- Seats the hand is to hold. -/
  target : Nat
  /-- IDLE seats reserved for the growth (14 R362, R369). -/
  grow : List Nat
  /-- The change has taken effect at a boundary; only saves are awaited (14 R362, R367). -/
  applied : Bool
  deriving DecidableEq, Repr

/-- Work a hand has ready that is not the current model and phase, oldest first (14 R372). -/
structure Ready where
  model : Nat
  phase : Nat
  deriving DecidableEq, Repr

/-- One hand (14 R360 to R383). -/
structure Hand where
  valid : Bool
  tenant : Nat
  seats : List Nat
  /-- Its pot shares: slot k of die d, 1.2 MiB, is 80 d + k (14 R370). -/
  pot : List Nat
  /-- Bytes of its model's slices that its pot share of a die holds: die and bytes (14 R371, R374). -/
  slices : List (Nat × Nat)
  model : Option Nat
  phase : Nat
  tricks : Nat
  swaps : Nat
  reshards : Nat
  suspends : Nat
  resize : Option Resize
  /-- FREE_HAND accepted: the command that waits, if any, and FORCE (14 R368). -/
  freeing : Option (Nat × Bool)
  /-- DEAL_HAND waiting for its seats to clear (14 R362). -/
  dealing : Option Nat
  ready : List Ready
  otherTricks : Nat
  /-- The account whose decode row and whose prefill chunk was taken last (10 R242). -/
  lastRow : Option Nat
  lastPre : Option Nat
  /-- Values taken at the last boundary (10 R269, 14 R380). -/
  runTricks : Nat
  trickKcyc : Nat
  parkLimit : Nat
  batchWait : Nat
  deriving DecidableEq, Repr

/-! ### Commands, queues and tenants (18) -/

/-- One queue pair (18 R464 to R476). -/
structure QPair where
  sqBase : Addr
  cqBase : Addr
  sqEntries : Nat
  cqEntries : Nat
  legacy : Bool
  noIrq : Bool
  sqHead : Nat
  sqTail : Nat
  cqTail : Nat
  cqHead : Nat
  phase : Bool
  reserved : Nat
  /-- The QUEUE_CREATE with DELETE that waits for the pair's commands (18 R481). -/
  deleting : Option Nat
  deriving DecidableEq, Repr

/-- An entry past intake and not yet completed (18 R472, R475). -/
structure Cmd where
  handle : Nat
  tenant : Nat
  queue : Nat
  cid : Word
  opcode : Nat
  /-- The 6410 opcode when the entry came on a LEGACY queue (18 R493). -/
  legacyOp : Option Nat
  /-- The 112 parameter bytes of a native entry. -/
  params : List Byte
  recovered : Bool
  /-- The published epoch of the collection the entry names, at intake (05 R155). -/
  snapshot : Nat
  /-- The step the command has reached; 0 before its own checks. -/
  stage : Nat
  deriving DecidableEq, Repr

/-- Limit and use of one tier (12 R318, R323): limit in 64 KiB units, use in bytes. -/
structure Quota where
  limit : Nat
  used : Nat
  deriving DecidableEq, Repr

/-- A tenant's reset in progress (18 R491, R494). -/
structure TenantReset where
  destroy : Bool
  /-- Started by clearing CMD_ADMIN_CTRL.ENABLE: queue pair 0 is not re-created (18 R465). -/
  leaveAbsent : Bool
  cmds : List Nat
  deriving DecidableEq, Repr

/-- One ledger entry, in 1/256 token (10 R254). -/
structure Account where
  id : Nat
  balance : Int
  charged : Nat
  deriving DecidableEq, Repr

/-- The limits CFG_COMMIT stores under a tenant number (12 R320, 14 R382). -/
structure Limits where
  t1 : Nat
  t2 : Nat
  t3 : Nat
  seats : Nat
  deriving DecidableEq, Repr

/-- One tenant (18 R464, R471). -/
structure Tenant where
  live : Bool
  faulted : Bool
  cause : Nat
  pasid : Nat
  queues : List (Option QPair)
  t1 : Quota
  t2 : Quota
  t3 : Quota
  /-- Registered T3 regions: host physical base and length (12 R319). -/
  regions : List (Nat × Nat)
  seatLimit : Nat
  weight : Nat
  ledger : List Account
  /-- The queue intake served last (18 R475). -/
  lastQueue : Nat
  reset : Option TenantReset
  deriving DecidableEq, Repr

/-- CMD_ADMIN_CTRL and the admin bases (18 R465, R466). -/
structure Admin where
  enable : Bool
  active : Bool
  err : Bool
  entriesLog2 : BitVec 5
  pasid : BitVec 20
  sqBase : Addr
  cqBase : Addr
  deriving DecidableEq, Repr

/-! ### Objects (18 R483, 14, 08, 09) -/

/-- A MODEL_EVICT that waits for an object's last user: its command, and the unit issues that may still use the object
(14 R373, 08 R216). -/
structure Evict where
  cmd : Nat
  issues : List IssueKey
  deriving DecidableEq, Repr

/-- A model of kinds 1 to 4 (18 R484, 14 R373). -/
structure Model where
  number : Nat
  kind : Nat
  tenant : Nat
  image : List Byte
  /-- The object as it lies in T1: the image, or with its weights encoded (12 R316). -/
  bytes : List Byte
  tiered : Bool
  va : Addr
  /-- T1 bytes charged while PINNED (12 R318). -/
  t1Bytes : Nat
  evicting : Option Evict
  deriving DecidableEq, Repr

/-- A loaded deck (08 R196). -/
structure Deck where
  number : Nat
  tenant : Nat
  image : List Byte
  /-- The deck's replacement: the tokens of U+FFFD (08 R200). -/
  fffd : List Nat
  va : Addr
  t1Bytes : Nat
  evicting : Option Evict
  deriving DecidableEq, Repr

/-- A loaded automaton (09 R219). -/
structure Automaton where
  number : Nat
  tenant : Nat
  image : List Byte
  va : Addr
  t1Bytes : Nat
  evicting : Option Evict
  deriving DecidableEq, Repr

/-- An entry of a list (05 R134). -/
structure Entry where
  id : Addr
  attr : Addr
  code : List Nat
  /-- The item the entry stands for, by its SERIAL in the collection's id map (05 R150). -/
  item : Nat := 0
  deriving DecidableEq, Repr

/-- A 64 KiB segment of a list: its entries and its marks, each an insert epoch and the first entry of its run
(05 R134, R153). -/
structure Segment where
  entries : List Entry
  marks : List (Nat × Nat)
  deriving DecidableEq, Repr

/-- A tombstone: entry position in the list and the delete's epoch (05 R154). -/
structure Tomb where
  pos : Nat
  epoch : Nat
  deriving DecidableEq, Repr

/-- PLACE of a directory entry (05 R133). -/
inductive Place | empty | t1 | cached | far
  deriving DecidableEq, Repr

/-- The copy of a list that compaction writes: its T1 and T2 charge, and the draw of its stored sizes (05 R156). -/
structure Rewrite where
  t1 : Nat
  t2 : Nat
  draw : Nat
  deriving DecidableEq, Repr

/-- A list with its directory entry (05 R133). -/
structure LList where
  number : Nat
  place : Place
  visits : Nat
  segs : List Segment
  tombs : List Tomb
  /-- Records the tombstone block holds; 0 without a block (05 R154). -/
  tombCap : Nat
  /-- The last segment is the open tail, which lies in T1 under every PLACE (05 R133, R135). -/
  openTail : Bool
  /-- Where each segment lies in T1, by the address of its page in the tenant's space, 0 where it is on media only, and the pages of its
  tombstone block (05 R133, R135, 04 R115). -/
  pages : List Nat := []
  tombPages : List Nat := []
  /-- Compaction rewrites the list: what its new copy is charged meanwhile (05 R156). -/
  rewriting : Option Rewrite
  deriving DecidableEq, Repr

/-- An item as stored on media: vector in FP8 and passage record (05 R150, 07 R181). -/
structure Item where
  /-- Its number in the id map, in order of insertion (05 R150). -/
  serial : Nat
  id : Addr
  epoch : Nat
  vec : List Byte
  text : List Byte
  tokens : List Nat
  deck : Nat
  marks : List Nat
  fingerprint : Addr
  lists : List Nat
  /-- Where its media parts begin among those of its insert (05 R150). -/
  off : Nat := 0
  deriving DecidableEq, Repr

/-- An append waiting for a segment mark (05 R153). -/
structure Append where
  list : Nat
  epoch : Nat
  entry : Entry
  deriving DecidableEq, Repr

/-- An epoch taken and not yet published (05 R149). -/
structure Epoch where
  number : Nat
  cmd : Nat
  written : Bool
  count : Nat
  status : Nat
  deriving DecidableEq, Repr

/-- The descriptor of 05 R128. -/
structure CollDesc where
  dim : Nat
  metric : Nat
  subbits : Nat
  codeBytes : Nat
  spill : Bool
  vecT1 : Bool
  projDim : Nat
  l1Count : Nat
  l2PerCell : Nat
  nprobeMax : Nat
  nprobeDef : Nat
  l1Probe : Nat
  kRefine : Nat
  farLimit : Nat
  maxWait : Nat
  embedModel : Nat
  t1ListBytes : Nat
  deriving DecidableEq, Repr

/-- A collection (05 R127 to R156). -/
structure Collection where
  number : Nat
  tenant : Nat
  desc : CollDesc
  image : List Byte
  lists : List LList
  items : List Item
  published : Nat
  nextEpoch : Nat
  epochs : List Epoch
  appends : List Append
  compacting : List Nat
  compactCmds : List Nat
  /-- A list was skipped for want of quota since SRCH_COMPACT began (05 R156). -/
  compactSkipped : Bool
  evicting : Option Evict
  va : Addr
  t1Bytes : Nat
  /-- First entry of the collection's range of the list directory (05 R133). -/
  dirBase : Nat := 0
  /-- The SERIAL of the next item (05 R150). -/
  nextItem : Nat := 0
  deriving DecidableEq, Repr

/-- An old copy of a list that batches still read: its T1 bytes, and the batches that used it (05 R137, R156). -/
structure OldCopy where
  id : Nat
  tenant : Nat
  coll : Nat
  list : Nat
  t1 : Nat
  /-- Its pages in the tenant's space. -/
  pages : List Nat := []
  batches : List Nat
  deriving DecidableEq, Repr

/-! ### Search (05) -/

/-- A key and index with the piece or input list they came from (06 R165, R168). -/
structure MEntry where
  key : Word
  index : Addr
  source : Nat
  /-- In search, the item of the entry, whose vector and passage later stages read (05 R146). -/
  item : Nat := 0
  deriving DecidableEq, Repr

/-- A partial list with its left-out ties (06 R171): `ties` equal its own last key; `spare` are those of the pieces and groups
it was merged from whose last key differs, by that key. -/
structure MPart where
  entries : List MEntry
  ties : Nat
  spare : List (Word × Nat) := []
  deriving DecidableEq, Repr

/-- A query in search (05 R131 to R155). -/
structure Query where
  key : QueryKey
  tenant : Nat
  coll : Nat
  /-- The unit issue that asked, for SEARCH PROBE (05 R147). -/
  issue : Option IssueKey
  vec : List Word
  filter : List Byte
  k : Nat
  nprobe : Nat
  maxWait : Nat
  widen : Bool
  refine : Bool
  exact : Bool
  full : Bool
  snapshot : Nat
  ranking : List Nat
  /-- Lists of the current round, in coarse order. -/
  probes : List Nat
  probed : Nat
  round : Nat
  /-- Running partial lists: of engine e under e, of the scanner of channel n under 32 + n, of a seat kernel under 64 (05 R140, R144). -/
  partials : List (Nat × MPart)
  /-- Lists left out under FAR_LIMIT (05 R145). -/
  farLate : Nat
  late : Bool
  duplicates : Nat
  /-- Entries that an engine or scanner excluded and whose lists have not reached the meld unit yet, by its slot (05 R140, 06 R167). -/
  unsent : List (Nat × Nat)
  merged : List MEntry
  tiesLeft : Nat
  /-- 0 coarse search due, 1 probe set due, 2 in a batch or scoring, 4 refinement due, 5 final. -/
  stage : Nat
  status : Nat
  recovered : Bool
  /-- The hand whose seats the query uses (18 R485). -/
  hand : Option Nat
  deriving DecidableEq, Repr

/-- A batch of queries (05 R141, R142). -/
structure Batch where
  queries : List QueryKey
  window : Nat
  batchMax : Nat
  deriving DecidableEq, Repr

/-- A pass dealt to an engine: its batch, and the list as it stood when the batch started (05 R139, R142, R157). -/
structure Pass where
  batch : Nat
  exact : Bool
  coll : Nat
  list : Nat
  cached : Bool
  segs : List Segment
  /-- Position in the list of the first entry of `segs`. -/
  base : Nat
  tombs : List Tomb
  queries : List QueryKey
  deriving DecidableEq, Repr

/-- States of a probe engine (03 R93). -/
inductive EngineMode | dark | active | quarantined
  deriving DecidableEq, Repr

/-- One probe engine (05 R139, 03 R86, R87, R93). -/
structure Engine where
  mode : EngineMode
  passes : Nat
  strikes : List Nat
  work : List Pass
  dealt : Nat
  tables : List QueryKey
  deriving DecidableEq, Repr

/-- A far-list segment a scoring batch waits for: collection, list, segment, and the queries that probe it (05 R144). -/
structure FarJob where
  batch : Nat
  exact : Bool
  coll : Nat
  list : Nat
  seg : Nat
  /-- The segment's first logical page, and the ONFI channel of it, whose scanner scores it (05 R142, R144). -/
  lpn : Nat
  channel : Nat
  content : Segment
  /-- Position in the list of the segment's first entry. -/
  base : Nat
  tombs : List Tomb
  queries : List QueryKey
  deriving DecidableEq, Repr

/-- The list scheduler and the engines (05 R136 to R161, 03 R86). -/
structure Search where
  err : Bool
  window : Nat
  batchMax : Nat
  collecting : Option Batch
  closed : List Batch
  exactWaiting : List QueryKey
  nextBatch : Nat
  /-- Lists already counted late, by batch, collection and list (05 R145). -/
  lateLists : List (Nat × Nat × Nat)
  stalled : List QueryKey
  /-- Far segments of scoring batches not yet scored. -/
  farWork : List FarJob
  queries : List Query
  engines : List Engine
  batches : Nat
  /-- Queries of scoring batches whose tables are past the cache's 16 MiB (05 R139). -/
  uncached : List QueryKey
  /-- Passes of each channel's flash scanner (03 R88, 05 R144). -/
  scanPasses : List Nat
  oldCopies : List OldCopy
  /-- `batches` at the last REBALANCE and VISITS_HALVE (05 R137). -/
  lastRebalance : Nat
  lastHalve : Nat
  deriving DecidableEq, Repr

/-! ### Meld unit (06) -/

/-- A selection in the meld unit (06 R171 to R175). -/
structure Selection where
  key : IssueKey
  tenant : Nat
  op : Nat
  keyfmt : Nat
  largest : Bool
  unique : Bool
  k : Nat
  p : Word
  result : Addr
  /-- Elements not yet cut into a piece. -/
  rest : List MEntry
  /-- Complete lists of each merge level that no merge group has taken yet, level 0 the pieces or MERGE inputs (06 R171). -/
  levels : List (List MPart)
  invalid : Nat
  duplicates : Nat
  /-- The lists of level 0 are MERGE inputs (06 R174). -/
  raw : Bool
  /-- The turn in which the merge pipeline served the selection last (06 R172). -/
  lastMerge : Nat
  deriving DecidableEq, Repr

/-! ### Pipeline queries (01, 07) -/

/-- A placed passage (07 R191, R192). -/
structure Placed where
  id : Addr
  score : Word
  rank : Nat
  tokens : List Nat
  bytes : Nat
  truncated : Bool
  deriving DecidableEq, Repr

/-- A fetched candidate (07 R183, R184). -/
structure Candidate where
  id : Addr
  textBytes : Nat
  fingerprint : Addr
  /-- Passage tokens in the cross-encoder's deck (07 R186). -/
  cross : List Nat
  /-- Passage tokens in PACK_DECK, and its cut points as tokens and bytes covered (07 R182). -/
  tokens : List Nat
  cuts : List (Nat × Nat)
  score : Word
  rank : Nat
  /-- Its record in the scratch (07 R183). -/
  source : Option Item := none
  deriving DecidableEq, Repr

/-- A row of a packed sequence: its token, its position id, which restarts at 0 for each pair, and its pair (07 R187). -/
structure SeqRow where
  token : Nat
  pos : Nat
  pair : Nat
  deriving DecidableEq, Repr

/-- A sequence of pairs as the cross-encoder runs it, padded to `padded` rows, the padding rows empty (07 R187). -/
structure PairSeq where
  rows : List SeqRow
  padded : Nat
  deriving DecidableEq, Repr

/-- A PIPE_QUERY in flight (01 R20). -/
structure Pipe where
  cmd : Nat
  tenant : Nat
  coll : Nat
  embedHand : Nat
  rerankHand : Nat
  policy : Nat
  question : List Byte
  packBlock : List Byte
  genBlock : List Byte
  /-- Question tokens per deck (18 R485). -/
  tokens : List (Nat × List Nat)
  /-- Candidates fetched and not lost, how many were taken for re-ranking, and T1 bytes of their scratch (07 R183). -/
  candidates : List Candidate
  taken : Nat
  scratch : Nat
  lost : Nat
  snapshot : Nat
  queryCut : Bool
  /-- The sequences that re-rank scored (07 R187). -/
  seqs : List PairSeq
  /-- The output header and the valid citation entries, and the prompt (07 R192). -/
  out : List Byte
  prompt : List Nat
  partial' : Bool
  /-- Stage of 01 R20 that is due: 1 tokenize, 2 embed, 3 to 8 search, 9 fetch, 10 re-rank, 11 pack, 12 return. -/
  stage : Nat
  /-- The deck in which the candidates' passages were cut for the cross-encoder (07 R182, R186). -/
  crossDeck : Option Nat := none
  /-- What the output range held at intake, and whether another command in flight at the same time had output in it (07 R192, R194). -/
  under : List Byte := []
  shared : Bool := false
  deriving DecidableEq, Repr

/-! ### Grammar (09) -/

/-- An automaton state: state, stack bottom first, ENDED (09 R222, R224). -/
structure GState where
  state : Nat
  stack : List Nat
  ended : Bool
  deriving DecidableEq, Repr

/-- A mask in the mask cache (09 R229): key and allowed tokens. -/
structure MaskEntry where
  automaton : Nat
  state : Nat
  top : Nat
  allowed : List Nat
  lines : Nat
  parityBad : Bool
  deriving DecidableEq, Repr

/-! ### Generation (10) -/

/-- A tree node with its automaton state (10 R247, 09 R233). -/
structure TreeNode where
  token : Nat
  parent : Nat
  depth : Nat
  pruned : Bool
  gstate : Option GState
  deriving DecidableEq, Repr

/-- A row of the verification pass: its node, position id, and mask over the nodes (10 R249). -/
structure VerifyRow where
  node : Nat
  position : Nat
  mask : BitVec 128
  deriving DecidableEq, Repr

/-- A generation request (10 R238 to R267). -/
structure Request where
  id : Nat
  cmd : Nat
  tenant : Nat
  tag : Addr
  model : Nat
  hand : Nat
  account : Nat
  maxTokens : Nat
  temperature : Word
  topK : Nat
  topP : Word
  seed : Addr
  treeMax : Nat
  depthMax : Nat
  automaton : Option Nat
  stopStrings : List (List Byte)
  stopTokens : List Nat
  includeStop : Bool
  logprob : Bool
  ringBase : Addr
  ringEntries : Nat
  headAddr : Addr
  tailAddr : Addr
  prompt : List Nat
  output : List Nat
  /-- Prompt tokens computed, and taken from shared pages (10 R245). -/
  prefilled : Nat
  shared : Nat
  /-- Committed length L (10 R249). -/
  committed : Nat
  /-- Frames of the page table, page 0 first (10 R244). -/
  pages : List Nat
  reserved : Nat
  tree : List TreeNode
  /-- The tree as it lies in serving scratch, and the rows of its verification (10 R247, R249). -/
  treeImage : List Byte
  rows : List VerifyRow
  /-- Logits of the first of two batches (02 R51). -/
  verified : List (List Word)
  nodeCap : Nat
  depthCap : Nat
  rejectRun : Nat
  acceptRun : Nat
  specOffSteps : Nat
  gstate : Option GState
  /-- Held bytes of the detokenizer and held bytes of stop matching (08 R209, 10 R264). -/
  held : List Byte
  stopHeld : List Byte
  bytesOut : Nat
  decodeCharged : Nat
  draftAccepted : Nat
  tail : Nat
  head : Nat
  queue : List (List Byte)
  parked : Nat
  isParked : Bool
  /-- When its row became ready, by the serving unit's count, and trick boundaries since (02 R52, 10 R242). -/
  readySince : Option Nat
  waited : Nat
  /-- Its account reached zero, and no trick boundary has found it above zero since (10 R257). -/
  broke : Bool
  cancel : Bool
  /-- Status of the pipeline stages before generation (01 R24, R28). -/
  prior : Nat
  ended : Option Nat
  status : Nat
  recovered : Bool
  stepRecovered : Bool
  deriving DecidableEq, Repr

/-- A KV frame in use: its holders, the prompt token ids it stands for, and the keys and values of its positions (10 R243, R245). -/
structure KvFrame where
  frame : Nat
  tenant : Nat
  model : Nat
  refs : Nat
  /-- The prompt up to the end of the page; empty once the page holds output (10 R245). -/
  tokens : List Nat
  /-- The die that homes the frame (10 R244), and where it is mapped in the tenant's space (04 R115). -/
  die : Nat
  va : Nat := 0
  /-- Its pages of 64 KiB. -/
  pages : Nat := 0
  /-- By slot: the key and then the value of the position for every (layer, head) pair of the main model, then of the draft. -/
  entries : List (Nat × List Byte)
  deriving DecidableEq, Repr

/-- A batch of a replica of a hand's decode mapping; `part` is 1 or 2 for the two consecutive batches of a request with a node cap above
64, else 0 (02 R51, R52). -/
structure GBatch where
  hand : Nat
  model : Nat
  replica : Nat
  reqs : List Nat
  part : Nat
  running : Bool
  deriving DecidableEq, Repr

/-- The serving unit (10 R269, R270). -/
structure Serving where
  ctrlErr : Bool
  parkLimit : Nat
  batchWait : Nat
  specErr : Bool
  retry : Nat
  throttleRun : Nat
  reqs : List Request
  frames : List KvFrame
  nextFrame : Nat
  nextReq : Nat
  /-- Rows that became ready so far: the model's own count, for the order of 10 R242 (notes/assumptions/20.md). -/
  readyCount : Nat
  batches : List GBatch
  deriving DecidableEq, Repr

/-! ### Embedding tables (11) -/

/-- A row (11 R276): weights and state as FP32 (or BF16) patterns. -/
structure EmbRow where
  id : Nat
  t : Nat
  w : List Word
  st : List Word
  deriving DecidableEq, Repr

/-- An open step (11 R291). -/
structure OpenStep where
  step : Nat
  /-- LR, that of the first participant whose batch arrived, and PARTICIPANTS: free values where the batch is another module's, PARTICIPANTS until
  this module's own update of the step names it (11 R289, R291, notes/assumptions/23.md). -/
  lr : Word
  participants : BitVec 64
  closes : List Nat
  /-- Gradients by sender and row, and whole rows by sender (11 R290, R291, R295). -/
  sums : List (Nat × Nat × List Word)
  rows : List (Nat × EmbRow)
  /-- Senders whose batch was shed (11 R293). -/
  shed : List Nat
  deriving DecidableEq, Repr

/-- A checkpoint generation: its step, the remap table kept with it and the EMPTY slots, and the rows (11 R296). -/
structure EmbGen where
  step : Nat
  remap : List Nat
  emptySlots : List Nat
  rows : List EmbRow
  deriving DecidableEq, Repr

/-- A batch whose last part has not come: its table, sender and number, entries accepted and dropped, the flags of its parts (11 R294). -/
structure EmbTally where
  table : Nat
  src : Nat
  batch : Nat
  accepted : Nat
  dropped : Nat
  shed : Bool
  late : Bool
  dup : Bool
  deriving DecidableEq, Repr

/-- A table (11 R274 to R302). -/
structure EmbTable where
  number : Nat
  tenant : Nat
  desc : List Byte
  digest : BitVec 64
  remap : List Nat
  emptySlots : List Nat
  rows : List EmbRow
  steps : List OpenStep
  applied : Nat
  /-- Parts received: sender, step and part, for telling a duplicate from a late part (11 R292). -/
  seen : List (Nat × Nat × Nat)
  sinceCkpt : Nat
  /-- The current checkpoint generation and its number (11 R296). -/
  ckpt : EmbGen
  ckptGen : Nat
  /-- The generation of a checkpoint that fell due, and the one being written (11 R296). -/
  ckptDue : Option EmbGen
  ckptNew : Option EmbGen
  /-- Rows of the current generation that are not yet rebuilt in T1 after a reset (11 R297). -/
  unbuilt : List Nat
  /-- Every STEP below this one has been used by an update issued here (11 R289). -/
  nextStep : Nat
  /-- T1 bytes charged for rows and directory, those of rows accepted from LOAD and not yet applied included (11 R278, R295). -/
  t1Bytes : Nat
  /-- Weights of other members' rows of a FROZEN table that the row cache may hold (11 R284). -/
  remote : List (Nat × List Word)
  deriving DecidableEq, Repr

/-- A lookup or update that waits for its owners (11 R287, R294). -/
structure Exchange where
  who : Waiter
  tenant : Nat
  stock : Bool
  table : Nat
  desc : List Byte
  batch : Nat
  update : Bool
  /-- Lookup: the index of every output position, and the address of the output (11 R282). -/
  indices : List Nat
  data : Nat
  /-- Lookup: the indices of the pass under way, those of later passes, and the rows of earlier ones (11 R283). -/
  pass : List Nat
  rest : List Nat
  rows : List (Option (List Word))
  /-- Requests not yet answered: owner, part, the row ids asked for (11 R287). -/
  asked : List (Nat × Nat × List Nat)
  /-- Rows found (11 R284). -/
  got : List (Nat × List Word)
  /-- Update: owners that have not answered with the entries sent to each, entries accepted, whether any entry was lost (11 R294). -/
  owners : List (Nat × Nat)
  accepted : Nat
  dropped : Bool
  deriving DecidableEq, Repr

/-- The gather unit (11 R285, R300). -/
structure Embed where
  err : Bool
  sketchShift : Nat
  tables : List EmbTable
  /-- Row cache: table, row, least recently used first (11 R285). -/
  cache : List (Nat × Nat)
  cacheBad : List (Nat × Nat)
  sketch : List (Nat × Nat)
  accesses : Nat
  waiting : List Exchange
  tally : List EmbTally
  nextBatch : Nat
  deriving DecidableEq, Repr

/-! ### Tiers and media (12, 13) -/

/-- A TIERED block (12 R310, R311): tenant, block number of its address, object kind and number, T1 bytes it takes. -/
structure TBlock where
  tenant : Nat
  block : Nat
  kind : Nat
  number : Nat
  bytes : Nat
  present : Bool
  dirty : Bool
  /-- Home tier: 2 media, 3 host memory (12 R310). -/
  home : Nat
  lastUse : Nat
  deriving DecidableEq, Repr

/-- A fetch that failed: its page, the status with which the work that waited for it ends, and the work in flight at the time (12 R311, 13 R329,
R337). -/
structure FetchFail where
  tenant : Nat
  block : Nat
  status : Nat
  waiters : List Waiter
  deriving DecidableEq, Repr

/-- TIER_SPARE_STATE of a die and the channels it lost (12 R309, R322). -/
structure DieT1 where
  lost : List Nat
  homing : List Nat
  beyond : Nat
  deriving DecidableEq, Repr

/-- What owns stored bytes on media (12 R304, 13 R327). -/
inductive Owner
  | space (tenant block : Nat)
  /-- A stored block of an object: it stands for `len` of the object's T1 bytes from `off` (12 R310, R316). -/
  | object (kind number off len : Nat)
  /-- A segment of a list (05 R135). -/
  | seg (coll list seg : Nat)
  /-- A stored block of the vectors, passages and id map records of one insert (05 R149). -/
  | items (coll epoch block : Nat)
  | table (number generation block : Nat)
  /-- The media copy of an old copy of a list (05 R137). -/
  | oldCopy (id : Nat)
  deriving DecidableEq, Repr

/-- A stored block: its 64-byte header, its payload, and the bytes the payload decodes to. A far-list segment has no header (12 R314, R315, 05
R135). -/
structure Stored where
  header : List Byte
  payload : List Byte
  data : List Byte
  deriving DecidableEq, Repr

/-- A stored block in host memory with its owner, and the host physical address it lies at (12 R304, R310). -/
structure HostBlock where
  owner : Owner
  tenant : Nat
  addr : Nat
  stored : Stored
  deriving DecidableEq, Repr

/-- The tier engine and T1 (12). -/
structure Tier where
  assignable : Nat
  dies : List DieT1
  lostBytes : Nat
  blocks : List TBlock
  clock : Nat
  saveUsed : Nat
  /-- Bytes homed on each die by loaded objects (12 R573). -/
  homed : List Nat
  nextFrame : List Nat
  poison : List Nat
  /-- Blocks queued for a demand fetch, by tenant and block, and commands whose passages are to be fetched, each in arrival order (12 R311,
  R312, 07 R183). -/
  queue : List (Nat × Nat)
  passages : List Nat
  /-- Fetches that failed, for the work that waited (12 R311). -/
  failed : List FetchFail
  /-- Tenants whose T1 limit was lowered and whose blocks are still to be evicted (12 R312, R319). -/
  evicting : List Nat
  /-- Stored blocks in host memory (12 R304, R310). -/
  hostBlocks : List HostBlock
  deriving DecidableEq, Repr

/-- States of a flash die (13 R358). -/
inductive DieMode | good | rebuilding | failed | notFitted
  deriving DecidableEq, Repr

/-- What a flash block holds; `pinned` is data of the pinned region (13 R332). -/
inductive BlkUse | free | buffer | qlc | pinned | retired
  deriving DecidableEq, Repr

/-- A flash block that is not as it left manufacture (13 R326, R335, R338 to R347). -/
structure Blk where
  num : Nat
  use : BlkUse
  erases : Nat
  reads : Nat
  /-- What each page written holds: a logical page, or the parity of its stripe. -/
  pages : List Nat
  queued : Bool
  /-- A queued relocation that the sealed media deferred (13 R349, R351). -/
  deferred : Bool
  /-- The group of blocks it shares its stripes with, and its place in it (13 R335). -/
  group : Nat
  member : Nat
  deriving DecidableEq, Repr

/-- Sixteen blocks on distinct dies whose pages of one number form a stripe, and the member whose turn it is (13 R335). -/
structure Group where
  id : Nat
  blocks : List Nat
  turn : Nat
  deriving DecidableEq, Repr

/-- A map entry: where a logical page lies (13 R327). -/
inductive PageAt | at (ppn : Nat) | lost
  deriving DecidableEq, Repr

/-- A stored block on media with its owner: the logical pages it lies in, its offset in the first of them, and the SEQ of the first record
written after it was stored (13 R327, R330). -/
structure Extent where
  owner : Owner
  tenant : Nat
  lpns : List Nat
  off : Nat
  stored : Stored
  seq : Nat
  deriving DecidableEq, Repr

/-- A journal record with its CRC (13 R330). -/
structure JRec where
  seq : Nat
  kind : Nat
  a : Nat
  b : Nat
  crc : Nat
  deriving DecidableEq, Repr

/-- A checkpoint slot's contents, from which replay starts: the map, what the block table says of retired blocks, the seal, the patrol position
and passes, the published epochs, and the SEQ of the first record after it (13 R332, R333). -/
structure Ckpt where
  map : List (Nat × PageAt)
  retired : List Nat
  sealed : Bool
  patNext : Nat
  passes : Nat
  epochs : List (Nat × Nat)
  seq : Nat
  deriving DecidableEq, Repr

/-- The flash controller (13). -/
structure Flash where
  ctrlErr : Bool
  foldHigh : Nat
  foldLow : Nat
  hotVisits : Nat
  bgShare : Nat
  patErr : Bool
  patBlocks : Nat
  relocBits : Nat
  aonStep : Nat
  passes : Nat
  patNext : Nat
  patEarly : List Nat
  folding : Bool
  sealed : Bool
  limited : Bool
  dies : List (DieMode × Nat)
  recentRetires : List (Nat × Nat)
  map : List (Nat × PageAt)
  blks : List Blk
  extents : List Extent
  /-- Extents freed since the last checkpoint, with the SEQ of their first TRIM record (13 R333). -/
  trimmed : List (Nat × Extent)
  /-- The logical page that stored blocks are packed into, and the bytes it holds (13 R327). -/
  pack : Option (Nat × Nat)
  /-- The groups being filled: of write-buffer blocks, and of QLC blocks (13 R335, R338, R339). -/
  bufGroup : Option Group
  qlcGroup : Option Group
  nextGroup : Nat
  /-- The far lists that were hot at the last rebalance (13 R347). -/
  hot : List (Nat × Nat)
  seq : Nat
  journal : List JRec
  sinceCkpt : Nat
  durable : List JRec
  /-- The current checkpoint slot, whether a record names it, and what it holds (13 R332). -/
  ckptSlot : Nat
  ckptNamed : Bool
  ckpt : Ckpt
  stopped : Bool
  hostBytes : Nat
  nandBytes : Nat
  erases : Nat
  holdupFlush : Nat
  deriving DecidableEq, Repr

/-! ### Failure and recovery (15) -/

/-- One firmware cluster (15 R395 to R397): cores in use and kitty cores. -/
structure Cluster where
  inUse : Nat
  kitty : Nat
  deriving DecidableEq, Repr

/-- A unit that was reset, by its bit of MOD_UNIT_PRESENT, and whether it was taken out of service (15 R399). -/
structure Progress where
  unit : Nat
  out : Bool
  deriving DecidableEq, Repr

/-- The FLT_ block and firmware (15). -/
structure Flt where
  clusterA : Cluster
  clusterB : Cluster
  activeB : Bool
  standbyOk : Bool
  fwResets : Nat
  failedResets : Nat
  t1Reduced : Bool
  sLost : Bool
  m1Lost : Bool
  m0Lost : Bool
  sticky : BitVec 8
  lastHolder : BitVec 16
  lastGen : BitVec 16
  gens : List (Nat × Nat)
  injArm : Bool
  injKind : BitVec 3
  injTarget : BitVec 12
  kfault : Option FaultRec
  kfaultSrc : Word
  units : List Progress
  phasesLost : List (Nat × Nat)
  converters : Nat
  deriving DecidableEq, Repr

/-- An event record (23 R568). -/
structure Event where
  seq : Nat
  code : Nat
  holder : Nat
  status : Nat
  arg : Nat
  deriving DecidableEq, Repr

/-! ### Links (16) -/

/-- States of a link (16 R440). -/
inductive LinkMode | notFitted | idle | training | up | degraded | rejected | duplicate | down
  deriving DecidableEq, Repr

/-- Counts per class TRUMP, CPL, XCH (16 R423). -/
structure Pool where
  trump : Nat
  cpl : Nat
  xch : Nat
  deriving DecidableEq, Repr

/-- A frame sent and not acknowledged (16 R422). -/
structure Unacked where
  seq : Nat
  resends : Nat
  bytes : List Byte
  deriving DecidableEq, Repr

/-- A message kept until all its frames are acknowledged: bytes already in frames, and the SEQ of its last frame (16 R424). -/
structure OutMsg where
  dst : Nat
  cls : Nat
  bytes : List Byte
  sent : Nat
  last : Option Nat
  deriving DecidableEq, Repr

/-- One link (16 R418 to R440). -/
structure Link where
  mode : LinkMode
  /-- Working lanes; `spare` when the group's spare serves on S (16 R419, R427). -/
  laneA : Bool
  laneB : Bool
  spare : Bool
  /-- This end and the other end offer a spare (16 R427). -/
  offered : Bool
  peerOffered : Bool
  peer : Nat
  peerSerial : Nat
  peerHeard : BitVec 64
  /-- Next SEQ to send, and the SEQ expected (16 R421, R422). -/
  sendSeq : Nat
  recvSeq : Nat
  nakSent : Bool
  unacked : List Unacked
  /-- Credits held for the peer's two pools, and own entries freed since the last return (16 R423). -/
  first : Pool
  second : Pool
  freed1 : Pool
  freed2 : Pool
  /-- Messages being reassembled, by class (16 R424). -/
  partials : List (Nat × List Byte)
  /-- Messages routed to this link, and frames to forward, each with the link it came on (16 R428). -/
  out : List OutMsg
  fwd : List (Nat × List Byte)
  /-- Whose message is open in a class: an incoming link, or 64 for this module's own (16 R424). -/
  lock : List (Nat × Nat)
  /-- A heartbeat came in the current interval; intervals missed since the last (16 R427). -/
  heard : Bool
  missed : Nat
  deriving DecidableEq, Repr

/-- The cell (16 R425 to R440). -/
structure Cell where
  err : Bool
  enable : Bool
  member : BitVec 6
  cellId : BitVec 16
  actEnable : Bool
  actMember : BitVec 6
  actCellId : BitVec 16
  isolated : Bool
  epoch : Nat
  members : BitVec 64
  /-- The members that went on without this module, while it is out of their set (11 R280). -/
  former : BitVec 64
  /-- Members of the set this module considers lost (16 R430). -/
  lostMembers : List Nat
  knockErr : Bool
  links : List Link
  sparesUsed : List Nat
  /-- Messages without a route, and the route last used to each member: direct, or by a hop (16 R428). -/
  waiting : List OutMsg
  routes : List (Nat × Option Nat)
  deriving DecidableEq, Repr

/-! ### CXL, SPDM and management (17, 20, 22) -/

/-- The CXL port (17). -/
structure Cxl where
  mode : CxlMode
  width : Nat
  rate : Nat
  err : Bool
  short : Bool
  activeGib : Nat
  sizeGib : Nat
  memActive : Bool
  devicePages : List Nat
  flip : Option (Nat × Bool)
  flipErr : Bool
  /-- MSI-X vectors whose mask bit is 0 (17 R447). -/
  unmasked : List Nat
  pendingVec : List Nat
  /-- Addresses and data of the MSI-X table that are not 0, by 32-bit word of the table (17 R446). -/
  msixTable : List (Nat × Nat)
  configReady : Bool
  perst : Bool
  ideKeys : Option (List Byte)
  deriving DecidableEq, Repr

/-- A firmware image in a slot (20 R524 to R526). -/
structure FwImage where
  version : Nat
  svn : Nat
  digest : List Byte
  cosigned : Bool
  bytes : List Byte
  deriving DecidableEq, Repr

/-- The security block (20). -/
structure Security where
  debugUnlocked : Bool
  erasing : Bool
  opkeyFused : Bool
  opkeyHash : List Byte
  svnFuse : Nat
  probation : Bool
  staged : Bool
  activeSlot : Bool
  slot0 : Option FwImage
  slot1 : Option FwImage
  running : Option FwImage
  debugErr : Bool
  nonce : Addr
  failures : Nat
  scope : BitVec 2
  token : List Byte
  opkeyReg : List Byte
  /-- SPDM over the DOE mailbox: requests answered so far, and an open session (20 R532). -/
  spdmStep : Nat
  session : Nat
  deriving DecidableEq, Repr

/-- JTAG instructions (22 R562). -/
inductive Jtag | bypass | idcode | sample | extest | highz
  deriving DecidableEq, Repr

/-- Sideband, sensors, boundary scan (22). -/
structure Mgmt where
  alive : Bool
  aliveStopped : Bool
  wake : Bool
  alert : Bool
  smbAddr : Nat
  straps : Nat
  sensors : List Nat
  events : List Nat
  jtag : Jtag
  deriving DecidableEq, Repr

/-- The state dump (23). -/
structure Dump where
  valid : Bool
  reduced : Bool
  cause : Nat
  seq : Nat
  image : List Byte
  eventSeq : Nat
  events : List Event
  deriving DecidableEq, Repr

/-! ### Power and clocks (19) -/

/-- What the module is doing as a whole (19 R500, R505, R513, 20 R527, 22 R560, 23 R565). -/
inductive Phase
  | unpowered
  | brownOut
  | bringUp
  | bootStopped
  | running
  | fold
  | tripped
  | fatal
  deriving DecidableEq, Repr

/-- The module settings of the persistent configuration block (18 R481, 19 R512). -/
structure Settings where
  steadyLoad : Bool
  tolShift : Nat
  window : Nat
  batchMax : Nat
  parkLimit : Nat
  batchWait : Nat
  retry : Nat
  throttleRun : Nat
  sketchShift : Nat
  foldHigh : Nat
  foldLow : Nat
  hotVisits : Nat
  bgShare : Nat
  patBlocks : Nat
  relocBits : Nat
  aonStep : Nat
  runTricks : Nat
  trickKcyc : Nat
  cellEnable : Bool
  cellMember : BitVec 6
  cellId : BitVec 16
  hdmGib : Nat
  capW : Nat
  limits : List (Nat × Limits)
  deriving DecidableEq, Repr

/-- One copy of the persistent block (19 R512). -/
structure CfgCopy where
  seq : Nat
  crcOk : Bool
  settings : Settings
  deriving DecidableEq, Repr

/-- Power (19). -/
structure Power where
  phase : Phase
  step : Nat
  ready : Bool
  capErr : Bool
  activeW : Nat
  capW : Nat
  capLevel : Nat
  uvLevel : Nat
  thermalLevel : Nat
  dip : Nat
  cfgDefault : Bool
  millivolts : Nat
  watts : Nat
  resetTrip : Bool
  resetFoldBrown : Bool
  resetBrown : Bool
  prevKind : Nat
  kind : Nat
  wakeValid : Bool
  wakeCause : Nat
  wakeLink : Nat
  domains : List Nat
  switches : List (Nat × Bool)
  commits : Nat
  copyA : CfgCopy
  copyB : CfgCopy
  /-- A tripped module: every junction has read below 90 degrees, and a reset held until then (22 R560). -/
  cooled : Bool
  heldReset : Option Nat
  deriving DecidableEq, Repr

/-! ### What leaves the module -/

/-- Messages the module has sent: what a host, a peer, the carrier or a tester sees of a command beyond memory. -/
inductive Out
  | msix (vec : Nat)
  | reg (off : Nat) (v : Word)
  | config (off : Nat) (v : Option Word)
  | mem (off : Nat) (bytes : List Byte) (poison : Bool)
  | snoopMiss (addr : Addr)
  | frame (link : Nat) (bytes : List Byte)
  | knock (link : Nat)
  | doe (bytes : List Byte)
  | spdm (code : Nat) (bytes : List Byte)
  | pldm (bytes : List Byte)
  | pldmEvent (kind : Nat)
  | jtag (v : Word)
  deriving DecidableEq, Repr

end Sys2Proof.Machine
end

