-- ==== Sys2Proof/Machine/Fp.lean ====
section
/-!
DEFINITION. Number formats and exact arithmetic (03 R63 to R73): decoding to exact values, rounding to nearest-even or
stochastically, IEEE 754 binary32 operations, and 2^A.
-/
namespace Sys2Proof.Machine

/-- The floating formats of 03 R63. -/
inductive Fmt | e4m3 | e5m2 | e3m2 | e2m3 | e2m1 | bf16 | fp16 | fp32
  deriving DecidableEq, Repr

/-- Exponent bits (03 R63). -/
def Fmt.eb : Fmt → Nat
  | .e4m3 => 4 | .e5m2 => 5 | .e3m2 => 3 | .e2m3 => 2 | .e2m1 => 2 | .bf16 => 8 | .fp16 => 5 | .fp32 => 8

/-- Mantissa bits (03 R63). -/
def Fmt.mb : Fmt → Nat
  | .e4m3 => 3 | .e5m2 => 2 | .e3m2 => 2 | .e2m3 => 3 | .e2m1 => 1 | .bf16 => 7 | .fp16 => 10 | .fp32 => 23

/-- Exponent bias (03 R63). -/
def Fmt.bias : Fmt → Nat
  | .e4m3 => 7 | .e5m2 => 15 | .e3m2 => 3 | .e2m3 => 1 | .e2m1 => 1 | .bf16 => 127 | .fp16 => 15 | .fp32 => 127

/-- Whether the top exponent field is infinity and NaN, as IEEE 754 has it (03 R63). -/
def Fmt.ieee : Fmt → Bool
  | .e5m2 | .bf16 | .fp16 | .fp32 => true
  | .e4m3 | .e3m2 | .e2m3 | .e2m1 => false

/-- Width in bits. -/
def Fmt.width (f : Fmt) : Nat := 1 + f.eb + f.mb

/-- The exponent of the least subnormal's unit. -/
def Fmt.qmin (f : Fmt) : Int := 1 - (f.bias : Int) - (f.mb : Int)

/-- Magnitude code of infinity in an IEEE format; one above the last code elsewhere. -/
def Fmt.infCode (f : Fmt) : Nat := if f.ieee then (2 ^ f.eb - 1) * 2 ^ f.mb else 2 ^ (f.eb + f.mb)

/-- Magnitude code of the largest finite value (03 R63). -/
def Fmt.maxCode (f : Fmt) : Nat := if f = .e4m3 then 0x7E else f.infCode - 1

/-- The canonical NaN a format writes (03 R73); formats without NaN write +0 (04 R101). -/
def Fmt.nanCode (f : Fmt) : Nat :=
  match f with
  | .e4m3 => 0x7F | .e5m2 => 0x7F | .fp16 => 0x7E00 | .bf16 => 0x7FC0 | .fp32 => 0x7FC00000
  | .e3m2 | .e2m3 | .e2m1 => 0

/-- The value of an encoding (03 R63). -/
def Fmt.decode (f : Fmt) (w : Nat) : FVal :=
  let neg := bitAt w (f.eb + f.mb)
  let mag := w % 2 ^ (f.eb + f.mb)
  let field := mag / 2 ^ f.mb
  let mant := mag % 2 ^ f.mb
  if f = .e4m3 && mag = 0x7F then .nan
  else if f.ieee && field = 2 ^ f.eb - 1 then (if mant = 0 then .inf neg else .nan)
  else if field = 0 then .num neg mant f.qmin
  else .num neg (2 ^ f.mb + mant) (f.qmin + (field : Int) - 1)

/-- Nearest-even: whether a cut-off remainder of `sh` bits rounds the kept `n` up. -/
def roundsUpEven (n rem sh : Nat) : Bool :=
  let half := 2 ^ sh / 2
  rem > half || (rem == half && n % 2 == 1)

/-- Stochastic: `d` is the 16 most significant discarded bits; away from zero if `r < d` (03 R72). -/
def roundsUpStoch (r : Nat) (_n rem sh : Nat) : Bool :=
  let d := if sh ≥ 16 then rem / 2 ^ (sh - 16) else rem * 2 ^ (16 - sh)
  r < d

/-- Magnitude code of `m * 2^e` rounded by `up`, without an upper bound. -/
def Fmt.roundMag (f : Fmt) (up : Nat → Nat → Nat → Bool) (m : Nat) (e : Int) : Nat :=
  if m = 0 then 0 else
  let q := max ((Nat.log2 m : Int) + e - (f.mb : Int)) f.qmin
  let n :=
    if e ≥ q then m * 2 ^ (e - q).toNat
    else
      let sh := (q - e).toNat
      let n0 := m / 2 ^ sh
      let rem := m % 2 ^ sh
      if rem ≠ 0 && up n0 rem sh then n0 + 1 else n0
  (q - f.qmin).toNat * 2 ^ f.mb + n

/-- Put a sign before a magnitude code. -/
def Fmt.withSign (f : Fmt) (neg : Bool) (code : Nat) : Nat := if neg then 2 ^ (f.eb + f.mb) + code else code

/-- Encode with IEEE overflow to infinity (03 R70); in formats without infinity overflow and infinity saturate (04
R101). -/
def Fmt.encode (f : Fmt) (v : FVal) : Nat :=
  match v with
  | .nan => f.nanCode
  | .inf neg => f.withSign neg (if f.ieee then f.infCode else f.maxCode)
  | .num neg m e =>
    let c := f.roundMag roundsUpEven m e
    f.withSign neg (if c > f.maxCode then (if f.ieee then f.infCode else f.maxCode) else c)

/-- Encode into FP8 or BF16 at the drain under a rounding and the SAT or NAN option (03 R70, R71, R72). -/
def Fmt.drainEncode (f : Fmt) (up : Nat → Nat → Nat → Bool) (nanOpt : Bool) (v : FVal) : Nat :=
  let fp8 := f = .e4m3 || f = .e5m2
  match v with
  | .nan => f.nanCode
  | .inf neg =>
    if fp8 && !nanOpt then f.withSign neg f.maxCode
    else if f = .e4m3 then f.nanCode
    else f.withSign neg f.infCode
  | .num neg m e =>
    let c := f.roundMag up m e
    if c ≤ f.maxCode then f.withSign neg c
    else if fp8 then (if nanOpt then f.nanCode else f.withSign neg f.maxCode)
    else f.withSign neg f.infCode

/-- The value of a binary32 pattern. -/
def ofF32 (w : Word) : FVal := Fmt.fp32.decode w.toNat

/-- The binary32 pattern nearest a value. -/
def toF32 (v : FVal) : Word := BitVec.ofNat 32 (Fmt.fp32.encode v)

/-! ### Exact arithmetic -/

/-- The value of an integer. -/
def FVal.ofInt (n : Int) : FVal := .num (n < 0) n.natAbs 0

/-- Signed numerator of a number at unit `2^e`, for `e` at or below its own exponent. -/
def scaleTo (neg : Bool) (m : Nat) (e tgt : Int) : Int :=
  let x : Int := (m * 2 ^ (e - tgt).toNat : Nat)
  if neg then -x else x

/-- Negation. -/
def FVal.neg : FVal → FVal
  | .nan => .nan
  | .inf n => .inf (!n)
  | .num n m e => .num (!n) m e

/-- Magnitude. -/
def FVal.abs : FVal → FVal
  | .nan => .nan
  | .inf _ => .inf false
  | .num _ m e => .num false m e

/-- Exact sum; an exact zero is +0 unless both operands are −0 (03 R65, R69). -/
def FVal.add : FVal → FVal → FVal
  | .nan, _ => .nan
  | _, .nan => .nan
  | .inf n, .inf n' => if n = n' then .inf n else .nan
  | .inf n, .num _ _ _ => .inf n
  | .num _ _ _, .inf n => .inf n
  | .num n m e, .num n' m' e' =>
    let tgt := min e e'
    let t := scaleTo n m e tgt + scaleTo n' m' e' tgt
    if t = 0 then .num (n && n' && m == 0 && m' == 0) 0 tgt else .num (t < 0) t.natAbs tgt

/-- Exact product (03 R66, R68). -/
def FVal.mul : FVal → FVal → FVal
  | .nan, _ => .nan
  | _, .nan => .nan
  | .inf n, .inf n' => .inf (n != n')
  | .inf n, .num n' m _ => if m = 0 then .nan else .inf (n != n')
  | .num n m _, .inf n' => if m = 0 then .nan else .inf (n != n')
  | .num n m e, .num n' m' e' => .num (n != n') (m * m') (e + e')

/-- Whether a value is a finite zero. -/
def FVal.isZero : FVal → Bool
  | .num _ m _ => m == 0
  | _ => false

/-- Whether a value is NaN. -/
def FVal.isNan : FVal → Bool
  | .nan => true
  | _ => false

/-- Whether a value is finite. -/
def FVal.isFin : FVal → Bool
  | .num _ _ _ => true
  | _ => false

/-- Strictly less; false with a NaN; −0 equals +0 (03 R73). -/
def FVal.lt : FVal → FVal → Bool
  | .nan, _ => false
  | _, .nan => false
  | .inf n, .inf n' => n && !n'
  | .inf n, .num _ _ _ => n
  | .num _ _ _, .inf n => !n
  | .num n m e, .num n' m' e' => scaleTo n m e (min e e') < scaleTo n' m' e' (min e e')

/-- Equal values; false with a NaN; −0 equals +0 (03 R73). -/
def FVal.eqv (a b : FVal) : Bool := !a.isNan && !b.isNan && !a.lt b && !b.lt a

/-- Less or equal; false with a NaN. -/
def FVal.le (a b : FVal) : Bool := a.lt b || a.eqv b

/-- Quotient to 64 significant bits and a sticky bit, which rounds as the exact quotient does (03 R65). -/
def FVal.div : FVal → FVal → FVal
  | .nan, _ => .nan
  | _, .nan => .nan
  | .inf _, .inf _ => .nan
  | .inf n, .num n' _ _ => .inf (n != n')
  | .num n _ e, .inf n' => .num (n != n') 0 e
  | .num n m e, .num n' m' e' =>
    if m' = 0 then (if m = 0 then .nan else .inf (n != n'))
    else
      let k := Nat.log2 m' + 66 - Nat.log2 m
      let q := m * 2 ^ k / m'
      let sticky := if m * 2 ^ k % m' = 0 then 0 else 1
      .num (n != n') (2 * q + sticky) (e - e' - (k : Int) - 1)

/-- Integer square root from the bit `b` down: the greatest `r` with `r * r ≤ n`. -/
def isqrtFrom (n : Nat) : Nat → Nat → Nat
  | 0, r => r
  | b + 1, r => let t := r + 2 ^ b; isqrtFrom n b (if t * t ≤ n then t else r)

/-- Integer square root. -/
def isqrt (n : Nat) : Nat := isqrtFrom n (Nat.log2 n / 2 + 1) 0

/-- Square root to 64 further bits and a sticky bit (03 R65). -/
def FVal.sqrt : FVal → FVal
  | .nan => .nan
  | .inf n => if n then .nan else .inf false
  | .num n m e =>
    if m = 0 then .num n 0 e
    else if n then .nan
    else
      let odd := e % 2 ≠ 0
      let m := if odd then 2 * m else m
      let e := if odd then e - 1 else e
      let r := isqrt (m * 2 ^ 128)
      let sticky := if r * r = m * 2 ^ 128 then 0 else 1
      .num false (2 * r + sticky) (e / 2 - 64 - 1)

/-- Minimum or maximum: both NaN gives NaN, one NaN gives the other operand (04 R101). -/
def FVal.pick (wantMax : Bool) (a b : FVal) : FVal :=
  if a.isNan then b else if b.isNan then a
  else if wantMax then (if a.lt b then b else a) else (if b.lt a then b else a)

/-- Round a value to binary32 and keep it as a value (03 R66). -/
def FVal.r32 (v : FVal) : FVal := ofF32 (toF32 v)

/-- Whether `a` is strictly closer to `x` than `b` is, all finite. -/
def FVal.closer (x a b : FVal) : Bool :=
  ((a.add x.neg).abs).lt ((b.add x.neg).abs)

/-- Nearest-even conversion to a 32-bit integer, saturating; NaN gives 0 (04 R101). -/
def FVal.toInt32 : FVal → Word
  | .nan => 0
  | .inf n => if n then 0x80000000 else 0x7FFFFFFF
  | .num n m e =>
    let mag :=
      if e ≥ 0 then m * 2 ^ e.toNat
      else
        let sh := (-e).toNat
        let n0 := m / 2 ^ sh
        if m % 2 ^ sh ≠ 0 && roundsUpEven n0 (m % 2 ^ sh) sh then n0 + 1 else n0
    if n then (if mag ≥ 2 ^ 31 then 0x80000000 else BitVec.ofInt 32 (-(mag : Int)))
    else (if mag ≥ 2 ^ 31 then 0x7FFFFFFF else BitVec.ofNat 32 mag)

/-- The element with its E8M0 block scale (03 R64). -/
def FVal.scale (x : Nat) (v : FVal) : FVal :=
  if x = 0xFF then .nan else
  match v with
  | .num n m e => .num n m (e + (x : Int) - 127)
  | w => w

/-! ### Two to a power (04 R101) -/

/-- `2^(2^-i)` to 128 fraction bits from below: the `i`-fold square root of 2. -/
def rootOfTwo : Nat → Nat
  | 0 => 2 * 2 ^ 128
  | i + 1 => isqrt (rootOfTwo i * 2 ^ 128)

/-- Multiply the roots for the bits of a 60-bit fraction, from bit 59 down; fixed point of 128 bits. -/
def exp2Frac (f : Nat) : Nat → Nat → Nat → Nat
  | 0, _, acc => acc
  | n + 1, root, acc =>
    let root' := isqrt (root * 2 ^ 128)
    exp2Frac f n root' (if bitAt f n then acc * root' / 2 ^ 128 else acc)

/-- Magnitude code of the greatest value of the format at or below `2^a`. -/
def Fmt.exp2Floor (f : Fmt) (a : FVal) : Nat :=
  match a with
  | .nan => f.nanCode
  | .inf n => if n then 0 else f.infCode
  | .num n m e =>
    -- the argument in units of 2^-60, rounded down
    let x : Int :=
      if e ≥ -60 then scaleTo n m e (-60)
      else
        let sh := (-60 - e).toNat
        let q : Int := (m / 2 ^ sh : Nat)
        if n then (if m % 2 ^ sh = 0 then -q else -q - 1) else q
    let i := x / 2 ^ 60
    if i ≥ 128 then f.infCode
    else if i < -160 then 0
    else
      let fr := (x % 2 ^ 60).toNat
      f.roundMag (fun _ _ _ => false) (exp2Frac fr 60 (rootOfTwo 0) (2 ^ 128)) (i - 128)

/-- A result within 2 units in the last place of `2^a`: `pick` chooses among the four codes about it
(notes/assumptions/11.md). -/
def Fmt.exp2 (f : Fmt) (a : FVal) (pick : Nat) : Nat :=
  match a with
  | .nan => f.nanCode
  | .inf _ => f.exp2Floor a
  | .num _ _ _ =>
    let c := f.exp2Floor a
    if c ≥ f.infCode then f.infCode else min (c + pick % 4 - 1) f.infCode

end Sys2Proof.Machine
end

