-- ==== Sys2Proof/Machine/State.lean ====
section
/-!
DEFINITION. The state of the module, and the state right after reset: a 9720 whose supply has just risen through
42.0 V, before bring-up's first step (19 R505, R510). Values the manual does not give for reset are named in
notes/assumptions/5.md.
-/
namespace Sys2Proof.Machine

/-- The reasons for which a step would stop. Every behaviour of the manual is a next state, so nothing raises one. -/
inductive Fault
  /-- Raised by no command: the manual's own faults are states the module goes on from. Safe. -/
  | stopped
  deriving DecidableEq, Repr

/-- The reasons for which a command has no meaning. -/
inductive Refusal
  /-- Raised by `exec` for a command that has no meaning yet, named as the opcode table names it. Safe. -/
  | notModelled (mnemonic : String)
  deriving DecidableEq, Repr

/-- A page-table entry's place: tenant, level, and the index path down to the entry (04 R115). -/
structure PtKey where
  tenant : Nat
  level : Nat
  path : Nat
  deriving DecidableEq, Repr

/-- A range the host maps in a PASID space (17 R448; the environment, notes/assumptions/3.md). -/
structure HostRange where
  pasid : Nat
  base : Nat
  len : Nat
  deriving DecidableEq, Repr

/-- The module. -/
structure State where
  variant : Variant
  power : Power
  /-- Commands and queues (18). -/
  admin : Admin
  tenants : List Tenant
  /-- The tenant intake served last (18 R475). -/
  rr : Nat
  cmds : List Cmd
  nextHandle : Nat
  hostMap : List HostRange
  /-- The Dealer (14). -/
  dlr : DlrCtrl
  hands : List Hand
  invs : List Invocation
  nextInv : Nat
  /-- Seats (02) and audit (03). -/
  seats : List Seat
  steadyLoad : Bool
  audCtrl : AudCtrl
  audLast : AudLast
  audInject : AudInject
  /-- Pot words whose parity fails, by memory key (03 R85). -/
  potBad : List Nat
  /-- Page tables (04 R115) and unit issues (04 R109). -/
  pt : List (PtKey × Addr)
  issues : List UnitIssue
  /-- Objects (18 R483). -/
  models : List Model
  decks : List Deck
  automata : List Automaton
  colls : List Collection
  dirLen : Nat
  /-- Units. -/
  search : Search
  selections : List Selection
  pipes : List Pipe
  deckCache : List (Nat × Nat)
  maskCache : List MaskEntry
  /-- The buffer of image lines of the mask cache, by automaton and line, least recently used first, and its lines whose parity fails
  (09 R229, R230). -/
  imageBuf : List (Nat × Nat)
  imageBad : List (Nat × Nat)
  serving : Serving
  embed : Embed
  tier : Tier
  flash : Flash
  /-- Failure, links, host interface, security, management, dump. -/
  flt : Flt
  cell : Cell
  cxl : Cxl
  sec : Security
  mgmt : Mgmt
  dump : Dump
  /-- Counter registers that are not 0, by BAR0 offset, offsets rising; latched _HI values (02 R61). -/
  ctr : List (Nat × Nat)
  latch : List (Nat × Nat)
  /-- Every addressed byte of the module and of host memory that is not 0, keyed by space and offset, keys rising. -/
  mem : List Host.Cell
  /-- The model's own: free values drawn, messages sent, commands waiting (notes/assumptions/1.md, 3.md, 6.md). -/
  fresh : Nat
  out : List Out
  pending : List Instr
  deriving DecidableEq, Repr

/-! ### Reset values -/

/-- Maximum power of the variant (00 R3). -/
def Variant.maxWatts : Variant → Nat
  | .v9720 => 950
  | .v9714 => 520
  | .v9706 => 420

/-- Chip-to-chip links of the variant (00 R3). -/
def Variant.links : Variant → Nat
  | .v9720 => 36
  | .v9714 => 18
  | .v9706 => 12

/-- NAND packages of the variant (00 R3); each has 16 dies (13). -/
def Variant.nandPkgs : Variant → Nat
  | .v9720 => 16
  | .v9714 => 8
  | .v9706 => 4

/-- An IDLE context with every register 0 (04 R94, R95). -/
def Ctx.idle : Ctx :=
  { mode := .idle, wait := .none, s := List.replicate 32 0, v := List.replicate 16 0, p := List.replicate 8 0, pc := 0,
    stream := none, nextDma := 0, nextUnit := 0, dmas := [], units := [], loads := [], arrivals := [], turn := none }

/-- Steady-load state of a seat that issues at full rate (02 R55). -/
def Steady.initial (on : Bool) : Steady := { on := on, average := 0, gapped := false, dummy := 0, rate := 10 }

/-- A seat in no hand, cleared (02 R31, R32). -/
def Seat.cleared (m : SeatMode) (steady : Bool) : Seat :=
  { mode := m, hand := 0, ctxs := List.replicate 64 .idle, sets := [], queue := [], repair := none, strikes := [],
    clearing := false, saving := false, inv := none, badWords := [], dmaLines := [], storedWords := [], writes := [], mark := none, tail := ⟨none, false, none⟩,
    steady := Steady.initial steady }

/-- Whether seat `g` is fitted: M1's seats only on the 9720 (02 R30, R32). -/
def Variant.seatFitted (v : Variant) (g : Nat) : Bool :=
  match v with
  | .v9720 => g < 176
  | _ => g < 88

/-- A seat as shipped: indices 0 to 79 IDLE, 80 to 87 the kitty, DARK (02 R30, R60). -/
def Seat.shipped (v : Variant) (g : Nat) (steady : Bool) : Seat :=
  Seat.cleared (if v.seatFitted g && g % 88 < 80 then .idle else .dark) steady

/-- A hand that is not dealt (14 R383). -/
def Hand.none : Hand :=
  { valid := false, tenant := 0, seats := [], pot := [], slices := [], model := .none, phase := 7, tricks := 0, swaps := 0, reshards := 0,
    suspends := 0, resize := .none, freeing := .none, dealing := .none, ready := [], otherTricks := 0, lastRow := .none, lastPre := .none, runTricks := 4,
    trickKcyc := 351, parkLimit := 4096, batchWait := 1 }

/-- A tenant number nobody holds (18 R464). -/
def Tenant.absent : Tenant :=
  { live := false, faulted := false, cause := 0, pasid := 0, queues := List.replicate 16 none, t1 := ⟨0, 0⟩, t2 := ⟨0, 0⟩,
    t3 := ⟨0, 0⟩, regions := [], seatLimit := 0, weight := 256, ledger := [], lastQueue := 15, reset := none }

/-- The as-shipped settings of the persistent configuration block (19 R512; 02 R57, 03 R80, 05 R160, 10 R269 and R270,
11 R300, 13 R355 and R356, 14 R380, 16 R436, 17 R461, 19 R517). -/
def Settings.shipped (v : Variant) : Settings :=
  { steadyLoad := false, tolShift := 4, window := 500, batchMax := 4096, parkLimit := 4096, batchWait := 1, retry := 64,
    throttleRun := 4, sketchShift := 20, foldHigh := 75, foldLow := 50, hotVisits := 256, bgShare := 1, patBlocks := 2,
    relocBits := 96, aonStep := 366, runTricks := 4, trickKcyc := 351, cellEnable := false, cellMember := 0, cellId := 0,
    hdmGib := 16, capW := v.maxWatts, limits := [] }

/-- An engine as shipped: 0 to 15 ACTIVE, 16 and 17 the kitty (03 R93). -/
def Engine.shipped (v : Variant) (e : Nat) : Engine :=
  { mode := if v ≠ .v9706 && e < 16 then .active else .dark, passes := 0, strikes := [], work := [], dealt := 0,
    tables := [] }

/-- An idle search unit under its settings (05 R160). -/
def Search.idle (v : Variant) (c : Settings) : Search :=
  { err := false, window := c.window, batchMax := c.batchMax, collecting := none, closed := [],
    exactWaiting := [], nextBatch := 0, lateLists := [], stalled := [], farWork := [], queries := [],
    engines := (List.range 18).map (Engine.shipped v), batches := 0, uncached := [], scanPasses := List.replicate 32 0, oldCopies := [], lastRebalance := 0, lastHalve := 0 }

/-- An empty serving unit under its settings (10 R269, R270). -/
def Serving.idle (c : Settings) : Serving :=
  { ctrlErr := false, parkLimit := c.parkLimit, batchWait := c.batchWait, specErr := false, retry := c.retry,
    throttleRun := c.throttleRun, reqs := [], frames := [], nextFrame := 0, nextReq := 0, readyCount := 0, batches := [] }

/-- An empty gather unit under its setting (11 R285, R300). -/
def Embed.idle (c : Settings) : Embed :=
  { err := false, sketchShift := c.sketchShift, tables := [], cache := [], cacheBad := [], sketch := [], accesses := 0,
    waiting := [], tally := [], nextBatch := 0 }

/-- The tier engine with sound channels, before step 4 assigns T1 (12 R306, R322). -/
def Tier.idle : Tier :=
  { assignable := 0, dies := List.replicate 4 { lost := [], homing := [], beyond := 0 }, lostBytes := 0, blocks := [],
    clock := 0, saveUsed := 0, homed := [0, 0, 0, 0], nextFrame := [0, 0, 0, 0], poison := [], queue := [], passages := [],
    failed := [], evicting := [], hostBlocks := [] }

/-- New media (13 R338, R358): every fitted die good, nothing mapped. -/
def Flash.new (v : Variant) (c : Settings) : Flash :=
  { ctrlErr := false, foldHigh := c.foldHigh, foldLow := c.foldLow, hotVisits := c.hotVisits, bgShare := c.bgShare,
    patErr := false, patBlocks := c.patBlocks, relocBits := c.relocBits, aonStep := c.aonStep, passes := 0, patNext := 0,
    patEarly := [], folding := false, sealed := false, limited := false,
    dies := (List.range 256).map (fun d => (if d < 16 * v.nandPkgs then .good else .notFitted, 0)), recentRetires := [],
    map := [], blks := [], extents := [], trimmed := [], pack := none, bufGroup := none, qlcGroup := none, nextGroup := 1, hot := [], seq := 0
    journal := [], sinceCkpt := 0, durable := [], ckptSlot := 0, ckptNamed := false
    ckpt := { map := [], retired := [], sealed := false, patNext := 0, passes := 0, epochs := [], seq := 0 }
    stopped := false, hostBytes := 0, nandBytes := 0, erases := 0, holdupFlush := 0 }

/-- A cluster with six cores in use and two in its kitty (15 R395). -/
def Cluster.shipped : Cluster := { inUse := 6, kitty := 2 }

/-- Firmware and the FLT_ block after a power-on (15 R412 to R416). -/
def Flt.initial : Flt :=
  { clusterA := .shipped, clusterB := .shipped, activeB := false, standbyOk := false, fwResets := 0, failedResets := 0,
    t1Reduced := false, sLost := false, m1Lost := false, m0Lost := false, sticky := 0, lastHolder := 0, lastGen := 0,
    gens := [], injArm := false, injKind := 0, injTarget := 0, kfault := none, kfaultSrc := 0, units := [],
    phasesLost := [], converters := 0 }

/-- A link that is idle or not fitted (16 R440). -/
def Link.idle (fitted : Bool) : Link :=
  { mode := if fitted then .idle else .notFitted, laneA := false, laneB := false, spare := false, offered := false
    peerOffered := false, peer := 0, peerSerial := 0, peerHeard := 0, sendSeq := 0, recvSeq := 0, nakSent := false, unacked := []
    first := ⟨0, 0, 0⟩, second := ⟨0, 0, 0⟩, freed1 := ⟨0, 0, 0⟩, freed2 := ⟨0, 0, 0⟩, partials := [], out := [], fwd := []
    lock := [], heard := false, missed := 0 }

/-- The cell block under its persistent settings, links idle (16 R436 to R440). -/
def Cell.initial (v : Variant) (c : Settings) : Cell :=
  { err := false, enable := c.cellEnable, member := c.cellMember, cellId := c.cellId, actEnable := c.cellEnable,
    actMember := c.cellMember, actCellId := c.cellId, isolated := false, epoch := 0,
    members := BitVec.ofNat 64 (2 ^ c.cellMember.toNat), former := 0, lostMembers := [], knockErr := false,
    links := (List.range 36).map (fun l => .idle (l < v.links)), sparesUsed := [], waiting := [], routes := [] }

/-- The CXL port before training (17 R460 to R462). -/
def Cxl.initial (c : Settings) : Cxl :=
  { mode := .cxl31, width := 0, rate := 0, err := false, short := false, activeGib := 0, sizeGib := c.hdmGib,
    memActive := false, devicePages := [], flip := none, flipErr := false, unmasked := [],
    pendingVec := [], msixTable := [], configReady := false, perst := false, ideKeys := none }

/-- The firmware image a new module carries in slot 0 (20 R526; DESIGN CHOICE, notes/assumptions/5.md). -/
def FwImage.shipped : FwImage := { version := 1, svn := 0, digest := List.replicate 32 0, cosigned := false, bytes := [] }

/-- The security block of a new module (20 R538, R539; DESIGN CHOICE, notes/assumptions/5.md). -/
def Security.new : Security :=
  { debugUnlocked := false, erasing := false, opkeyFused := false, opkeyHash := List.replicate 32 0, svnFuse := 0,
    probation := false, staged := false, activeSlot := false, slot0 := some .shipped,
    slot1 := none, running := none, debugErr := false, nonce := 0, failures := 0, scope := 0,
    token := List.replicate 128 0, opkeyReg := List.replicate 32 0, spdmStep := 0, session := 0 }

/-- Sideband and boundary scan at power-on (22 R552, R553, R562; notes/assumptions/5.md). -/
def Mgmt.initial : Mgmt :=
  { alive := false, aliveStopped := false, wake := false, alert := false, smbAddr := 0x4F, straps := 7,
    sensors := List.replicate 10 0, events := [], jtag := .bypass }

/-- No dump and no event (23 R568, R571). -/
def Dump.none : Dump :=
  { valid := false, reduced := false, cause := 0, seq := 0, image := [], eventSeq := 0, events := [] }

/-- Power at the start of a power-on reset (19 R505, R517 to R522). -/
def Power.initial (v : Variant) : Power :=
  { phase := .bringUp, step := 0, ready := false, capErr := false, activeW := v.maxWatts, capW := v.maxWatts,
    capLevel := 16, uvLevel := 16, thermalLevel := 16, dip := 0, cfgDefault := false, millivolts := 0,
    watts := 0, resetTrip := false, resetFoldBrown := false, resetBrown := false, prevKind := 0, kind := 1,
    wakeValid := false, wakeCause := 0, wakeLink := 0, domains := [68], switches := [], commits := 0,
    copyA := { seq := 0, crcOk := true, settings := .shipped v }, copyB := { seq := 1, crcOk := true, settings := .shipped v },
    cooled := false, heldReset := none }

/-- The admin block at reset (18 R465, R466). -/
def Admin.initial : Admin :=
  { enable := false, active := false, err := false, entriesLog2 := 0, pasid := 0, sqBase := 0, cqBase := 0 }

/-- The machine right after reset: a new 9720 at the start of its first power-on reset (19 R505, R510). -/
def State.reset : State :=
  let v : Variant := .v9720
  let c := Settings.shipped v
  { variant := v, power := Power.initial v, admin := .initial, tenants := List.replicate 64 .absent, rr := 63, cmds := [],
    nextHandle := 0, hostMap := [], dlr := { err := false, runTricks := c.runTricks, trickKcyc := c.trickKcyc },
    hands := List.replicate 64 .none, invs := [], nextInv := 0,
    seats := (List.range 176).map (fun g => Seat.shipped v g c.steadyLoad), steadyLoad := c.steadyLoad,
    audCtrl := { tolErr := false, tolShift := c.tolShift },
    audLast := { valid := false, kind := 0, unit := 0, row := 0, col := 0 },
    audInject := { arm := false, seat := 0, row := 0, col := 0, bit := 0 }, potBad := [], pt := [], issues := [], models := [], decks := [],
    automata := [], colls := [], dirLen := 0, search := .idle v c, selections := [], pipes := [], deckCache := [],
    maskCache := [], imageBuf := [], imageBad := [], serving := .idle c, embed := .idle c, tier := .idle, flash := .new v c, flt := .initial,
    cell := .initial v c, cxl := .initial c, sec := .new, mgmt := .initial, dump := .none, ctr := [], latch := [], mem := [],
    fresh := 0, out := [], pending := [] }

end Sys2Proof.Machine
end

