-- ==== Sys2Proof/Machine/Ops.lean ====
section
/-!
DEFINITION. The named operations every meaning is written over: the one byte memory and its spaces, the tenant virtual
address space, counters, messages, completions, invocations and fences.
-/
namespace Sys2Proof.Machine

/-! ### Lists -/

/-- Change the elements that satisfy a test. -/
def updWhere {α : Type} (p : α → Bool) (f : α → α) (l : List α) : List α := l.map (fun x => if p x then f x else x)

/-- Whether a list holds an element that satisfies a test. -/
def has {α : Type} (p : α → Bool) (l : List α) : Bool := l.any p

/-- Sum of a list. -/
def sumNat (l : List Nat) : Nat := l.foldl (· + ·) 0

/-- Cut a list into pieces of `n`; `fuel` bounds the pieces. -/
def chunks {α : Type} (n : Nat) : Nat → List α → List (List α)
  | 0, _ => []
  | k + 1, l => if l.isEmpty then [] else l.take n :: chunks n k (l.drop n)

/-- Insert into a sorted list before the first element that is not smaller. -/
def insertBy {α : Type} (lt : α → α → Bool) (x : α) : List α → List α
  | [] => [x]
  | y :: ys => if lt y x then y :: insertBy lt x ys else x :: y :: ys

/-- Insertion sort. -/
def sortBy {α : Type} (lt : α → α → Bool) (l : List α) : List α := l.foldr (insertBy lt) []

/-- Keep the first of equal elements. -/
def dedup {α : Type} [DecidableEq α] : List α → List α
  | [] => []
  | x :: xs => x :: (dedup xs).filter (fun y => y ≠ x)

/-- The place of the first element that satisfies a test. -/
def indexWhere {α : Type} (p : α → Bool) : List α → Option Nat
  | [] => none
  | x :: xs => if p x then some 0 else (indexWhere p xs).map (· + 1)

/-! ### Parts of the state -/

/-- Change one part of the state. -/
def State.updSearch (s : State) (f : Search → Search) : State := { s with search := f s.search }
def State.updFlash (s : State) (f : Flash → Flash) : State := { s with flash := f s.flash }
def State.updTier (s : State) (f : Tier → Tier) : State := { s with tier := f s.tier }
def State.updServing (s : State) (f : Serving → Serving) : State := { s with serving := f s.serving }
def State.updEmbed (s : State) (f : Embed → Embed) : State := { s with embed := f s.embed }
def State.updFlt (s : State) (f : Flt → Flt) : State := { s with flt := f s.flt }
def State.updCell (s : State) (f : Cell → Cell) : State := { s with cell := f s.cell }
def State.updCxl (s : State) (f : Cxl → Cxl) : State := { s with cxl := f s.cxl }
def State.updSec (s : State) (f : Security → Security) : State := { s with sec := f s.sec }
def State.updMgmt (s : State) (f : Mgmt → Mgmt) : State := { s with mgmt := f s.mgmt }
def State.updDump (s : State) (f : Dump → Dump) : State := { s with dump := f s.dump }
def State.updPower (s : State) (f : Power → Power) : State := { s with power := f s.power }

/-! ### Sparse maps in canonical form -/

/-- The value at a key; `z` where nothing is listed. -/
def sparseGet {α : Type} (z : α) (a : Nat) : List (Nat × α) → α
  | [] => z
  | (k, v) :: r => if k = a then v else if a < k then z else sparseGet z a r

/-- Set the value at a key, keeping keys rising and `z` unlisted. -/
def sparsePut {α : Type} [DecidableEq α] (z : α) (a : Nat) (v : α) : List (Nat × α) → List (Nat × α)
  | [] => if v = z then [] else [(a, v)]
  | (k, w) :: r =>
    if k < a then (k, w) :: sparsePut z a v r
    else if k = a then (if v = z then r else (a, v) :: r)
    else if v = z then (k, w) :: r else (a, v) :: (k, w) :: r

/-- Keys strictly rising from `lo` and no entry equal to `z`. -/
def sparseWf {α : Type} [DecidableEq α] (z : α) : Nat → List (Nat × α) → Bool
  | _, [] => true
  | lo, (k, v) :: r => decide (lo ≤ k) && decide (v ≠ z) && sparseWf z (k + 1) r

/-- The canonical form of the byte memory. -/
def Memory.wf (m : List Host.Cell) : Bool := sparseWf (0 : BitVec 8) 0 m

/-- The byte at a key of a memory; a byte nothing has written reads 0 (notes/assumptions/4.md). -/
def memGet (m : List Host.Cell) (a : Nat) : Byte := sparseGet (0 : Byte) a m

/-- Write bytes from a key on. -/
def memPut (m : List Host.Cell) (a : Nat) : List Byte → List Host.Cell
  | [] => m
  | b :: bs => memPut (sparsePut (0 : Byte) a b m) (a + 1) bs

/-! ### Spaces -/

/-- The spaces bytes live in: T1 by home die (0 M0, 1 M1, 2 S-die, 3 H-die), pots, the HDM window, seat buffers, the
host's physical memory, and host memory by PASID (04 R116, 02 R47, 12 R304, 17 R450). -/
inductive Space
  | t1 (home : Nat)
  | pot (die : Nat)
  | hdm
  | seat (g : Nat)
  | hostPhys
  | host (pasid : Nat)
  deriving DecidableEq, Repr

/-- The index of a space in the one key range. -/
def Space.index : Space → Nat
  | .t1 h => h % 4
  | .pot d => 4 + d % 4
  | .hdm => 8
  | .hostPhys => 9
  | .seat g => 256 + g % 256
  | .host p => 2 ^ 20 + p % 2 ^ 20

/-- The key of a byte of a space. -/
def Space.key (sp : Space) (off : Nat) : Nat := sp.index * 2 ^ 64 + off % 2 ^ 64

/-- The bytes from a key on. -/
def State.rd (s : State) (key n : Nat) : List Byte := (List.range n).map (fun i => memGet s.mem (key + i))

/-- The little-endian number at a key. -/
def State.rdNat (s : State) (key n : Nat) : Nat := leNat (s.rd key n)

/-- Write bytes; a 128-byte line written whole is no longer poisoned (12 R308). -/
def State.wr (s : State) (key : Nat) (bs : List Byte) : State :=
  { s with
    mem := memPut s.mem key bs
    tier := { s.tier with
      poison := s.tier.poison.filter (fun l => !(key ≤ 128 * l && 128 * (l + 1) ≤ key + bs.length)) } }

/-- Write a little-endian number. -/
def State.wrNat (s : State) (key n v : Nat) : State := s.wr key (leBytes n v)

/-- Whether a range touches a poisoned line (12 R308). -/
def State.poisoned (s : State) (key n : Nat) : Bool :=
  s.tier.poison.any (fun l => decide (key < 128 * (l + 1)) && decide (128 * l < key + n))

/-- Bytes of a seat buffer (02 R47). -/
def sbufBytes : Nat := 2 * 2 ^ 20

/-- The bytes of a seat buffer, by offset. -/
def State.sbuf (s : State) (g : Nat) : List Host.Cell :=
  let lo := (Space.seat g).key 0
  (s.mem.filter (fun c => decide (lo ≤ c.1) && decide (c.1 < lo + sbufBytes))).map (fun c => (c.1 - lo, c.2))

/-- Replace the bytes of a seat buffer. -/
def State.setSbuf (s : State) (g : Nat) (l : List Host.Cell) : State :=
  let lo := (Space.seat g).key 0
  let rest := s.mem.filter (fun c => !(decide (lo ≤ c.1) && decide (c.1 < lo + sbufBytes)))
  { s with mem := l.foldl (fun m c => sparsePut (0 : Byte) (lo + c.1) c.2 m) rest }

/-! ### Counters (02 R61) -/

/-- The value of the counter at a BAR0 offset. -/
def State.counter (s : State) (off : Nat) : Nat := sparseGet 0 off s.ctr

/-- Add to a 32-bit counter, which stops at 0xFFFF_FFFF (02 R61). -/
def State.bumpBy (s : State) (off n : Nat) : State :=
  { s with ctr := sparsePut 0 off (min (s.counter off + n) 0xFFFFFFFF) s.ctr }

/-- Add 1 to a 32-bit counter. -/
def State.bump (s : State) (off : Nat) : State := s.bumpBy off 1

/-- Add to a 64-bit pair named by its _LO offset; the pairs do not wrap (02 R61). -/
def State.bump64 (s : State) (off n : Nat) : State :=
  { s with ctr := sparsePut 0 off (min (s.counter off + n) (2 ^ 64 - 1)) s.ctr }

/-! ### Free values and messages -/

/-- Draw a free value's number (notes/assumptions/6.md). -/
def State.draw (s : State) : State := { s with fresh := s.fresh + 1 }

/-- Draw several free values' numbers. -/
def State.drawN (s : State) (n : Nat) : State := { s with fresh := s.fresh + n }

/-- `n` free bytes of a draw. -/
def freeBytes (draw n : Nat) : List Byte := (List.range n).map (fun i => BitVec.ofNat 8 (Config.free draw i))

/-- Note a message the module sends (notes/assumptions/3.md). -/
def State.emit (s : State) (o : Out) : State := { s with out := s.out ++ [o] }

/-- Raise an MSI-X vector: a masked vector sets its pending bit (17 R447). -/
def State.msix (s : State) (v : Nat) : State :=
  if s.cxl.unmasked.contains v then s.emit (.msix v)
  else if s.cxl.pendingVec.contains v then s
  else { s with cxl := { s.cxl with pendingVec := s.cxl.pendingVec ++ [v] } }

/-! ### Parts of the state by number -/

/-- A tenant by number (18 R464). -/
def State.tenant (s : State) (t : Nat) : Tenant := s.tenants.getD t .absent

/-- Change one tenant. -/
def State.updTenant (s : State) (t : Nat) (f : Tenant → Tenant) : State := { s with tenants := s.tenants.modify t f }

/-- A hand by number (14 R360). -/
def State.hand (s : State) (h : Nat) : Hand := s.hands.getD h .none

/-- Change one hand. -/
def State.updHand (s : State) (h : Nat) (f : Hand → Hand) : State := { s with hands := s.hands.modify h f }

/-- A hand a command may use: the tenant's, dealt, and not freed before the command (14 R360, R368). -/
def State.handFor (s : State) (t cmd h : Nat) : Option Hand :=
  let x := s.hand h
  if x.valid && x.tenant = t && x.dealing.isNone && (match x.freeing with | .none => true | some f => decide (cmd < f.1)) then some x
  else .none

/-- The power domain of a seat's quad (19 R498). -/
def quadDomain (g : Nat) : Nat := if g < 88 then g / 4 else 24 + (g - 88) / 4

/-- The issue level in force (19 R502). -/
def Power.issueLevel (p : Power) : Nat := min p.uvLevel (min p.capLevel p.thermalLevel)

/-- Whether a domain is powered (19 R522). -/
def State.powered (s : State) (d : Nat) : Bool := s.power.domains.contains d

/-- Ask for a domain to be switched on; domains switch one at a time (19 R499). -/
def State.askDomain (s : State) (d : Nat) : State :=
  if s.powered d || s.power.switches.contains (d, true) then s
  else s.updPower (fun p => { p with switches := p.switches ++ [(d, true)] })

/-- Whether the part has no seat left (15 R402). -/
def State.noSeats (s : State) : Bool := s.flt.m0Lost && (s.variant ≠ .v9720 || s.flt.m1Lost)

/-- A seat by global number (02 R30). -/
def State.seat (s : State) (g : Nat) : Seat := s.seats.getD g (.cleared .dark false)

/-- Change one seat. -/
def State.updSeat (s : State) (g : Nat) (f : Seat → Seat) : State := { s with seats := s.seats.modify g f }

/-- A context of a seat. -/
def Seat.ctx (x : Seat) (c : Nat) : Ctx := x.ctxs.getD c .idle

/-- Change one context of a seat. -/
def State.updCtx (s : State) (g c : Nat) (f : Ctx → Ctx) : State :=
  s.updSeat g (fun x => { x with ctxs := x.ctxs.modify c f })

/-- The in-flight command with a handle. -/
def State.cmd? (s : State) (h : Nat) : Option Cmd := s.cmds.find? (fun c => c.handle == h)

/-- Change the in-flight command with a handle. -/
def State.updCmd (s : State) (h : Nat) (f : Cmd → Cmd) : State := { s with cmds := updWhere (fun c => c.handle == h) f s.cmds }

/-- The in-flight command with a handle, when it has the opcode and is at the stage given. -/
def State.cmdAt (s : State) (h op stage : Nat) : Option Cmd :=
  match s.cmd? h with
  | some c => if c.opcode = op && c.stage = stage then some c else none
  | none => none

/-- The invocation with an id. -/
def State.inv? (s : State) (n : Nat) : Option Invocation := s.invs.find? (fun v => v.id == n)

/-- Change the invocation with an id. -/
def State.updInv (s : State) (n : Nat) (f : Invocation → Invocation) : State :=
  { s with invs := updWhere (fun v => v.id == n) f s.invs }

/-- The unit issue with a key. -/
def State.issue? (s : State) (k : IssueKey) : Option UnitIssue := s.issues.find? (fun u => u.key == k)

/-- A little-endian field of a parameter block, by its offset in the submission entry (18 R472, R481). -/
def Cmd.field (c : Cmd) (off n : Nat) : Nat := leNat ((c.params.drop (off - 0x10)).take n)

/-- A little-endian field of a byte list. -/
def fieldOf (b : List Byte) (off n : Nat) : Nat := leNat ((b.drop off).take n)

/-- Whether the bytes of a range of a list are all 0. -/
def zeroRange (b : List Byte) (off n : Nat) : Bool := ((b.drop off).take n).all (fun x => x == 0)

/-- MOD_UNIT_PRESENT (00 R8). -/
def Variant.units : Variant → Nat
  | .v9720 => 0x7FFF
  | .v9714 => 0x7FFD
  | .v9706 => 0x7E09

/-- Whether the unit with a bit of MOD_UNIT_PRESENT is fitted (00 R8, R10). -/
def State.fitted (s : State) (bit : Nat) : Bool := bitAt s.variant.units bit

/-! ### Statuses (18 R480) -/

def St.ok : Nat := 0x00
def St.part : Nat := 0x01
def St.retry : Nat := 0x02
def St.unitAbsent : Nat := 0x03
def St.badPacket : Nat := 0x04
def St.badParam : Nat := 0x05
def St.quota : Nat := 0x06
def St.notReady : Nat := 0x07
def St.sealed : Nat := 0x08
def St.deadEnd : Nat := 0x09
def St.tenantReset : Nat := 0x0A
def St.aborted : Nat := 0x0B
def St.security : Nat := 0x0C
def St.unsupported : Nat := 0x0D
def St.inputInvalid : Nat := 0x0E
def St.notResident : Nat := 0x0F
def St.ringStall : Nat := 0x10

/-! ### Host memory and the window (17 R448, 18 R468) -/

/-- Whether `len` bytes from `a` lie in ranges the host maps for a PASID; `fuel` bounds the ranges crossed. -/
def coveredBy (rs : List HostRange) (pasid : Nat) : Nat → Nat → Nat → Bool
  | 0, _, len => len == 0
  | k + 1, a, len =>
    if len = 0 then true else
    match rs.find? (fun r => r.pasid == pasid && decide (r.base ≤ a) && decide (a < r.base + r.len)) with
    | none => false
    | some r => let n := r.base + r.len - a; if len ≤ n then true else coveredBy rs pasid k (a + n) (len - n)

/-- Whether the host accepts a range of a PASID space (17 R448). -/
def State.hostMapped (s : State) (pasid a len : Nat) : Bool := coveredBy s.hostMap pasid (s.hostMap.length + 1) a len

/-- Whether the host accepts an access at a key: keys outside host memory always pass (17 R448). -/
def State.hostAccepts (s : State) (key len : Nat) : Bool :=
  let sp := key / 2 ^ 64
  if sp ≥ 2 ^ 20 then s.hostMapped (sp - 2 ^ 20) (key % 2 ^ 64) len else true

/-- Bytes of the HDM window that addresses reach; none in PCIe mode (17 R442, R450). -/
def State.hdmBytes (s : State) : Nat := if s.cxl.mode = .pcie then 0 else s.cxl.activeGib * 2 ^ 30

/-- The key of an address of a packet or of a structure a unit reads; none when it is misaligned or its range leaves
host memory or the window (18 R468). -/
def State.resolve (s : State) (t a len align : Nat) : Option Nat :=
  if a % align ≠ 0 then none
  else if a / 2 ^ 63 % 2 = 1 then
    (if a % 2 ^ 63 + len ≤ s.hdmBytes then some (Space.hdm.key (a % 2 ^ 63)) else none)
  else if s.hostMapped (s.tenant t).pasid a len then some ((Space.host (s.tenant t).pasid).key a) else none

/-! ### The tenant virtual address space (04 R114 to R118) -/

/-- What an access wants to do. -/
inductive Access | load | store | fetch | atomic
  deriving DecidableEq, Repr

/-- What translating an address came to: a key, a fault kind of 04 R112, or a T1 page that is not present. -/
inductive Xlat
  | ok (key : Nat)
  | fault (kind : Nat)
  | absent (block : Nat)
  deriving DecidableEq, Repr

/-- Address bits below the index of a level (04 R115). -/
def ptShift : Nat → Nat
  | 0 => 16 | 1 => 21 | 2 => 30 | _ => 39

/-- An entry of 04 R116 that maps the page at an address of its target. -/
def ptLeaf (rd wr ex atom present : Bool) (target home off : Nat) : Addr :=
  BitVec.ofNat 64 (1 + 4 * boolNat rd + 8 * boolNat wr + 16 * boolNat ex + 32 * boolNat atom + 64 * target
    + 256 * boolNat present + 512 * home + bits off 51 16 * 65536)

/-- Where the HDM window begins in T1 of the H-die, from which it is taken (17 R450; DESIGN CHOICE, notes/assumptions/45.md). -/
def hdmBase : Nat := 2 ^ 51

/-- The key of a byte of a die's T1: the HDM window is a part of the H-die's (04 R116, 17 R450). -/
def t1Key (home off : Nat) : Nat := if home = 3 && hdmBase ≤ off then Space.hdm.key (off - hdmBase) else (Space.t1 home).key off

/-- The key of the first byte of the T1 page that an entry maps. -/
def entryKey (w : Nat) : Nat := t1Key (bits w 10 9) (bits w 51 16 * 65536)

/-- Whether an entry is valid and maps a T1 page. -/
def entryT1 (w : Nat) : Bool := bitAt w 0 && bits w 7 6 == 0

/-- MAX_SOURCES and TOKEN_BUDGET of a pack control block (07 R189). -/
def packMax (b : List Byte) : Nat := fieldOf b 6 2
def packBudget (b : List Byte) : Nat := fieldOf b 8 4

/-- Bytes of the citation map, to the boundary where the token ids start (07 R190, R192). -/
def packMap (b : List Byte) : Nat := roundUp (32 * packMax b) 64

/-- Where the windows of a tenant's space start: its queues at 2^44, the pots at 2^45, its output rings at 2^46 and the output areas of its
queries at 2^46 + 2^45. The manual gives no addresses (DESIGN CHOICE, notes/assumptions/45.md). -/
def queueVa (q : Nat) (cq : Bool) : Nat := 2 ^ 44 + 2 ^ 32 * q + 2 ^ 31 * boolNat cq
def potVa (d off : Nat) : Nat := 2 ^ 45 + 2 ^ 27 * d + off
def ringVa (id : Nat) : Nat := 2 ^ 46 + 2 ^ 24 * (id % 2 ^ 21)
def outVa (cmd : Nat) : Nat := 2 ^ 46 + 2 ^ 45 + 2 ^ 24 * (cmd % 2 ^ 21)

/-- Whether one hand of a tenant holds the whole of a 64 KiB page of a die's pot: a slot is 96 fifths of a page (14 R370). -/
def State.potPage (s : State) (t d page : Nat) : Bool :=
  has (fun x => x.valid && x.tenant == t && x.pot.contains (80 * d + 5 * page / 96) && x.pot.contains (80 * d + (5 * page + 4) / 96)) s.hands

/-- The entry of the `i`-th page that a range at an I/O virtual address touches: a page of host memory, or of the HDM window, which lies in T1
of the H-die; 0 past the range's end, and past the 52 bits of FRAME (04 R116, 17 R450). -/
def hostLeaf (base len i : Nat) : Addr :=
  let at' := base % 2 ^ 63
  if base % 65536 + len ≤ 65536 * i || 2 ^ 51 ≤ at' + len then 0
  else if bitAt base 63 then ptLeaf true true false false true 0 3 (hdmBase + 65536 * (at' / 65536 + i))
  else ptLeaf true true false false true 1 0 (65536 * (at' / 65536 + i))

/-- The entry firmware has at an address of a tenant's windows: queue pairs, rings and output areas while they exist, and the tenant's pot
shares (04 R115, R116, 14 R370, 12 R305). -/
def State.window (s : State) (t level va : Nat) : Addr :=
  if va < 2 ^ 44 || 2 ^ 47 ≤ va then 0
  else if level ≠ 0 then 1
  else if va < 2 ^ 45 then
    match ((s.tenant t).queues[(va - 2 ^ 44) / 2 ^ 32]?).getD none with
    | some q =>
      let i := va % 2 ^ 31 / 65536
      if bitAt va 31 then hostLeaf q.cqBase.toNat ((if q.legacy then 16 else 32) * q.cqEntries) i
      else hostLeaf q.sqBase.toNat ((if q.legacy then 64 else 128) * q.sqEntries) i
    | none => 0
  else if va < 2 ^ 46 then
    let d := (va - 2 ^ 45) / 2 ^ 27
    let page := va % 2 ^ 27 / 65536
    if d < 2 && page < 1536 && s.potPage t d page then ptLeaf true true false true true 2 d (65536 * page) else 0
  else if va < 2 ^ 46 + 2 ^ 45 then
    match s.serving.reqs.find? (fun r => r.tenant == t && r.id % 2 ^ 21 == (va - 2 ^ 46) / 2 ^ 24) with
    | some r => hostLeaf r.ringBase.toNat (64 * r.ringEntries) (va % 2 ^ 24 / 65536)
    | none => 0
  else
    match s.pipes.find? (fun p => p.tenant == t && p.cmd % 2 ^ 21 == (va - 2 ^ 46 - 2 ^ 45) / 2 ^ 24) with
    | some p => hostLeaf (fieldOf p.packBlock 0x18 8) (64 + packMap p.packBlock + 4 * packBudget p.packBlock) (va % 2 ^ 24 / 65536)
    | none => 0

/-- A page-table entry; 0 where firmware has written none. -/
def State.ptEntry (s : State) (t level va : Nat) : Addr :=
  match s.pt.find? (fun e => e.1 == { tenant := t, level := level, path := va / 2 ^ ptShift level }) with
  | some e => e.2
  | none => s.window t level va

/-- Walk the tables from a level down to a leaf: the entry and the page's address bits (04 R115, R116). -/
def State.walk (s : State) (t va : Nat) : Nat → Option (Addr × Nat)
  | 0 =>
    let e := s.ptEntry t 0 va
    if bitAt e.toNat 0 then some (e, 16) else none
  | l + 1 =>
    let e := s.ptEntry t (l + 1) va
    if !bitAt e.toNat 0 then none
    else if l = 0 && bitAt e.toNat 1 then some (e, 21)
    else s.walk t va l

/-- Whether an entry allows an access (04 R116, R117). -/
def entryAllows (e : Nat) : Access → Bool
  | .load => bitAt e 2
  | .store => bitAt e 3
  | .fetch => bitAt e 4
  | .atomic => bitAt e 3 && bitAt e 5 && bits e 7 6 != 1

/-- Translate one address of a tenant for a tenant or a stock kernel (04 R114 to R117). An entry with the reserved TARGET 3, which
firmware never writes, gives UNMAPPED (DESIGN CHOICE, notes/assumptions/15.md). -/
def State.xlat (s : State) (t : Nat) (stock : Bool) (acc : Access) (va : Nat) : Xlat :=
  if va ≥ 2 ^ 48 then .fault 3
  else if bitAt va 47 && !stock then .fault 4
  else
    match s.walk t va 3 with
    | none => .fault 3
    | some (e, sh) =>
      let w := e.toNat
      if !entryAllows w acc then .fault 4
      else
        let off := bits w 51 16 * 2 ^ 16 + va % 2 ^ sh
        match bits w 7 6 with
        | 0 => if bitAt w 8 then .ok (t1Key (bits w 10 9) off) else .absent (va / 65536)
        | 1 => .ok ((Space.host (s.tenant t).pasid).key off)
        | 2 => .ok ((Space.pot (bits w 10 9)).key off)
        | _ => .fault 3

/-- Translate every 64 KiB block a range touches: a fault anywhere in it, else the first absent block, else none; with it the first
address of the range in that block (04 R112, 06 R176). -/
def State.rangeTroubleAt (s : State) (t : Nat) (stock : Bool) (acc : Access) (va len : Nat) : Option (Xlat × Nat) :=
  let blocks := (List.range (if len = 0 then 0 else (va + len + 65535) / 65536 - va / 65536)).map (fun i => max va ((va / 65536 + i) * 65536))
  let xs := blocks.map (fun a => (s.xlat t stock acc a, a))
  match xs.find? (fun x => match x.1 with | .fault _ => true | _ => false) with
  | some x => some x
  | none => xs.find? (fun x => match x.1 with | .absent _ => true | _ => false)

/-- What stands against a range of addresses, if anything. -/
def State.rangeTrouble (s : State) (t : Nat) (stock : Bool) (acc : Access) (va len : Nat) : Option Xlat :=
  (s.rangeTroubleAt t stock acc va len).map (fun e => e.1)

/-- The key of one byte, or a key of a space that is not used when it does not translate. -/
def State.keyOf (s : State) (t : Nat) (stock : Bool) (acc : Access) (va : Nat) : Nat :=
  match s.xlat t stock acc va with
  | .ok k => k
  | _ => 15 * 2 ^ 64

/-- Read a range of tenant virtual addresses, block by block through the tables. -/
def State.rdTva (s : State) (t : Nat) (stock : Bool) (va n : Nat) : List Byte :=
  (List.range n).map (fun i => memGet s.mem (s.keyOf t stock .load (va + i)))

/-- Write a range of tenant virtual addresses, page by page through the tables; nothing is written where an access does not translate. `fuel`
bounds the pages. -/
def State.wrPages (s : State) (t : Nat) (stock : Bool) (acc : Access) : Nat → Nat → List Byte → State
  | 0, _, _ => s
  | k + 1, va, bs =>
    if bs.isEmpty then s
    else
      let n := 65536 - va % 65536
      let s := match s.xlat t stock acc va with | .ok key => s.wr key (bs.take n) | _ => s
      s.wrPages t stock acc k (va + n) (bs.drop n)

/-- Write a range of tenant virtual addresses that an access of a kind reaches. -/
def State.wrRange (s : State) (t : Nat) (stock : Bool) (acc : Access) (va : Nat) (bs : List Byte) : State :=
  s.wrPages t stock acc ((va % 65536 + bs.length) / 65536 + 1) va bs

/-- Store to a range of tenant virtual addresses. -/
def State.wrTva (s : State) (t : Nat) (stock : Bool) (va : Nat) (bs : List Byte) : State := s.wrRange t stock .store va bs

/-- Set one page-table entry. -/
def State.ptSet (s : State) (t level va : Nat) (e : Addr) : State :=
  let k : PtKey := { tenant := t, level := level, path := va / 2 ^ ptShift level }
  { s with pt := (k, e) :: s.pt.filter (fun x => x.1 ≠ k) }

/-- Map one 64 KiB page: the tables above it become valid (04 R115). -/
def State.mapPage (s : State) (t va : Nat) (e : Addr) : State :=
  (((s.ptSet t 3 va 1).ptSet t 2 va 1).ptSet t 1 va 1).ptSet t 0 va e

/-- Map consecutive 64 KiB pages from `va`, each to the entry of its place. -/
def State.mapPages (s : State) (t va : Nat) (entry : Nat → Addr) (n : Nat) : State :=
  (List.range n).foldl (fun s i => s.mapPage t (va + 65536 * i) (entry i)) s

/-- Unmap consecutive 64 KiB pages. -/
def State.unmapPages (s : State) (t va n : Nat) : State :=
  { s with pt := s.pt.filter (fun x => !(x.1.tenant == t && x.1.level == 0 && decide (va / 65536 ≤ x.1.path)
      && decide (x.1.path < va / 65536 + n))) }

/-- Whether a key lies in T1 on a channel that is being re-homed (04 R122, 09 R235, 12 R309). -/
def State.underHoming (s : State) (key : Nat) : Bool :=
  let d := key / 2 ^ 64
  d < 4 && (s.tier.dies.getD d { lost := [], homing := [], beyond := 0 }).homing.contains (Config.channelOf d (key % 2 ^ 64 / 128))

/-! ### Events and fences (15 R391, R392, R414, R417, 23 R568) -/

/-- Write one event record to the log, which keeps the last 4,096 (23 R566, R568). -/
def State.event (s : State) (code holder status arg : Nat) : State :=
  let e : Event := { seq := s.dump.eventSeq, code := code, holder := holder, status := status, arg := arg }
  let l := s.dump.events ++ [e]
  { s with dump := { s.dump with eventSeq := s.dump.eventSeq + 1, events := l.drop (l.length - 4096) } }

/-- Add 1 to a counter of the FLT_ block and log its event (15 R417, 23 R568). -/
def State.fltBump (s : State) (off holder status arg : Nat) : State :=
  (s.bump off).event (Config.eventCode off) holder status arg

/-- A holder id (15 R391). -/
def holderId (kind index : Nat) : Nat := kind % 16 * 4096 + index % 4096

/-- The generation of a holder. -/
def State.generation (s : State) (holder : Nat) : Nat := sparseGet 0 holder s.flt.gens

/-- Resources a holder holds that the state keeps one by one: unit intake slots of a seat, passes and tables of a probe engine, far segments of a
flash scanner, cached lines of a unit's first lane, combine buffer entries of a peer, a tenant's unit issues, KV pages and save areas, and the pot
shares of an M-die. A fence reclaims every one of them, so that each names its holder and bears the holder's generation (15 R391 to R393,
notes/assumptions/26.md). -/
def State.leaseCount (s : State) (holder : Nat) : Nat :=
  let n := holder % 4096
  match holder / 4096 with
  | 0 => (s.issues.filter (fun u => u.key.seat == n)).length
  | 1 => match s.search.engines[n]? with | some e => e.work.length + e.tables.length | none => 0
  | 2 => (s.search.farWork.filter (fun j => j.channel == n)).length
  | 3 => match n with
    | 144 => s.deckCache.length
    | 160 => s.maskCache.length + s.imageBuf.length
    | 192 => s.embed.cache.length
    | _ => 0
  | 8 => (s.hands.flatMap (fun h => h.pot.filter (fun k => k / 80 == n))).length
  | 6 => sumNat (s.embed.tables.map (fun t => sumNat (t.steps.map (fun o =>
      (o.sums.filter (fun x => x.1 == n)).length + (o.rows.filter (fun x => x.1 == n)).length))))
  | 7 => (s.issues.filter (fun u => u.tenant == n)).length + (s.serving.frames.filter (fun f => f.tenant == n)).length
      + (s.invs.filter (fun v => v.tenant == n && v.saved.isSome)).length
  | _ => 0

/-- Set a holder's generation: leases of lower generations are reclaimed, and the fence is recorded (15 R392, R414). -/
def State.fenceTo (s : State) (holder g : Nat) : State :=
  let n := s.leaseCount holder
  let s := { s with flt := { s.flt with
    gens := sparsePut 0 holder g s.flt.gens
    lastHolder := BitVec.ofNat 16 holder
    lastGen := BitVec.ofNat 16 g } }
  (List.range n).foldl (fun s _ => s.fltBump 0x000F002C holder 0 g) (s.fltBump 0x000F0028 holder 0 g)

/-- Fence a holder: its generation rises by 1 (15 R392). -/
def State.fenceHolder (s : State) (holder : Nat) : State := s.fenceTo holder ((s.generation holder + 1) % 65536)

/-- Whether a unit has been taken out of service (15 R399). -/
def State.unitOut (s : State) (bit : Nat) : Bool := has (fun p => p.unit == bit && p.out) s.flt.units

/-! ### Completions (18 R473, R474, R490) -/

/-- A queue pair of a tenant. -/
def State.queue (s : State) (t q : Nat) : Option QPair := ((s.tenant t).queues[q]?).getD none

/-- Change a queue pair of a tenant. -/
def State.updQueue (s : State) (t q : Nat) (f : QPair → QPair) : State :=
  s.updTenant t (fun x => { x with queues := x.queues.modify q (Option.map f) })

/-- A tenant becomes FAULTED, once (18 R490). -/
def State.tenantFault (s : State) (t cause : Nat) : State :=
  if (s.tenant t).faulted then s else
  ((s.updTenant t (fun x => { x with faulted := true, cause := cause })).msix (32 * t + 16)).bump 0x00020030

/-- Bytes of a completion entry (18 R473, R492). -/
def completionBytes (c : Cmd) (q : QPair) (status count r0 r1 : Nat) : List Byte :=
  if q.legacy then
    leBytes 2 c.cid.toNat ++ leBytes 2 q.sqHead ++ leBytes 1 status ++ leBytes 1 (boolNat q.phase) ++ leBytes 2 0
      ++ leBytes 4 count ++ leBytes 4 r0
  else
    leBytes 4 c.cid.toNat ++ leBytes 2 q.sqHead ++ leBytes 1 status
      ++ leBytes 1 (boolNat q.phase + 2 * boolNat c.recovered) ++ leBytes 4 count ++ leBytes 4 0 ++ leBytes 8 r0
      ++ leBytes 8 r1

/-- Write a completion entry to its CQ and raise the pair's vector; a refused write faults the tenant (18 R473, R474,
R476, R490). -/
def State.writeEntry (s : State) (c : Cmd) (q : QPair) (status count r0 r1 : Nat) : State :=
  let size := if q.legacy then 16 else 32
  match s.resolve c.tenant (q.cqBase.toNat + size * q.cqTail) size 1 with
  | none => (s.tenantFault c.tenant 2).updQueue c.tenant c.queue (fun q => { q with reserved := q.reserved - 1 })
  | some k =>
    if s.poisoned k size && q.cqBase.toNat / 2 ^ 63 % 2 = 1 then
      (s.tenantFault c.tenant 3).updQueue c.tenant c.queue (fun q => { q with reserved := q.reserved - 1 })
    else
      let next := (q.cqTail + 1) % max q.cqEntries 1
      let s := (s.wr k (completionBytes c q status count r0 r1)).updQueue c.tenant c.queue (fun q =>
        { q with cqTail := next, phase := if next = 0 then !q.phase else q.phase, reserved := q.reserved - 1 })
      if q.noIrq then s else s.msix (32 * c.tenant + c.queue)

/-- Counters a completion moves (15 R417, 18 R479, R495). -/
def State.countCompletion (s : State) (c : Cmd) (status : Nat) : State :=
  let s := if status = St.badPacket || status = St.unsupported then s.bump 0x0002002C else s
  let s := if status = St.aborted then s.fltBump 0x000F001C (holderId 7 c.tenant) status c.opcode else s
  if c.recovered then (s.bump64 0x000F0020 1).event (Config.eventCode 0x000F0020) (holderId 7 c.tenant) status c.opcode
  else s

/-- Post one completion and forget the command; deferred deletions are not looked at. -/
def State.postOne (s : State) (h status count r0 r1 : Nat) : State :=
  match s.cmd? h with
  | none => s
  | some c =>
    let s := { s with cmds := s.cmds.filter (fun x => x.handle ≠ h) }
    let s := s.countCompletion c status
    match s.queue c.tenant c.queue with
    | none => s
    | some q => s.writeEntry c q status count r0 r1

/-- Remove the pairs of a tenant whose deletion waited for their last command (18 R481, R494). -/
def State.settleDeletes (t : Nat) : Nat → State → State
  | 0, s => s
  | k + 1, s =>
    let due (q : Nat) : Option Nat :=
      match s.queue t q with
      | some p => if p.reserved = 0 then p.deleting else none
      | none => none
    match (List.range 16).find? (fun q => (due q).isSome) with
    | none => s
    | some q =>
      let h := (due q).getD 0
      let s := s.updTenant t (fun x => { x with queues := x.queues.set q none })
      State.settleDeletes t k (s.postOne h St.ok 0 0 0)

/-- Complete a command: its entry, its counters, and the deletions that waited for it (18 R473, R474, R481). -/
def State.complete (s : State) (h status count r0 r1 : Nat) : State :=
  match s.cmd? h with
  | none => s
  | some c => State.settleDeletes c.tenant 17 (s.postOne h status count r0 r1)

/-- Complete a command with a status only. -/
def State.fail (s : State) (h status : Nat) : State := s.complete h status 0 0 0

/-- Mark a command as repaired (18 R479). -/
def State.recovered (s : State) (h : Nat) : State := s.updCmd h (fun c => { c with recovered := true })

/-- Take a command off without a completion (17 R458, 18 R491). -/
def State.dropCmd (s : State) (h : Nat) : State :=
  match s.cmd? h with
  | none => s
  | some c =>
    ({ s with cmds := s.cmds.filter (fun x => x.handle ≠ h) }).updQueue c.tenant c.queue
      (fun q => { q with reserved := q.reserved - 1 })

/-! ### Contexts that wait (04 R94, R100, R104, R107) -/

/-- Whether every matrix instruction of a context, and for MWAIT.ALL every DMA into the seat buffer, has completed
(04 R100). -/
def Seat.matrixDone (x : Seat) (c : Nat) (all : Bool) : Bool :=
  !has (fun r => r.ctx == c) x.queue && (!all || (x.ctx c).dmas.all (fun d => d.dstAddr))

/-- Whether the oldest tile has completed: a later tile has started, or no run queued continues it (02 R34, R42). -/
def Seat.oldestDone (x : Seat) : Bool :=
  match x.sets, x.queue with
  | [], _ => false
  | [_], r :: _ => !r.desc.cont
  | _, _ => true

/-- Whether a context has no DMA, unit issue or matrix instruction outstanding (04 R104). -/
def Seat.ctxQuiet (x : Seat) (c : Nat) : Bool :=
  let k := x.ctx c
  k.dmas.isEmpty && k.units.isEmpty && x.matrixDone c false

/-- Whether the condition a context waits for has come (04 R94). -/
def Seat.waitOver (x : Seat) (c : Nat) : Bool :=
  let k := x.ctx c
  match k.wait with
  | .none => false
  | .dma none => k.dmas.isEmpty
  | .dma (some t) => !has (fun d => d.ticket == t) k.dmas
  | .unit none => k.units.isEmpty
  | .unit (some t) => !k.units.contains t
  | .matrix all => x.matrixDone c all
  | .drain => x.repair.isNone && x.oldestDone
  | .slot => true
  | .halt => x.ctxQuiet c
  | .barrier _ _ => false
  | .page _ => false
  | .parity _ => false
  | .homing => false

/-- A context whose wait is over goes on; one that waited in HALT becomes IDLE (04 R104). -/
def Seat.wakeCtx (x : Seat) (c : Nat) : Seat :=
  if x.waitOver c then
    { x with ctxs := x.ctxs.modify c (fun k =>
        if k.wait = .halt then { k with mode := .idle, wait := .none } else { k with wait := .none }) }
  else x

/-- Look again at every context of a seat that waits. -/
def Seat.wake (x : Seat) : Seat := (List.range 64).foldl Seat.wakeCtx x

/-! ### Invocations (04 R104, R112, R113, 18 R483) -/

/-- The stand-in seat number under which the unit issues of a suspended invocation's rank are kept: they continue outside
the seats (14 R365). -/
def parkedSeat (inv rank : Nat) : Nat := 1024 + 256 * inv + rank

/-- Release a ticket in the saved context of a suspended invocation (14 R365). -/
def State.releaseParked (s : State) (k : IssueKey) : State :=
  if k.seat < 1024 then s
  else s.updInv ((k.seat - 1024) / 256) (fun v => { v with saved := v.saved.map (fun l => l.modify ((k.seat - 1024) % 256)
    (fun x => { x with ctxs := x.ctxs.modify k.ctx (fun c => { c with units := c.units.filter (fun t => t ≠ k.ticket) }) })) })

/-- The fault record's 32 bytes (04 R112). -/
def FaultRec.toBytes (f : FaultRec) : List Byte :=
  leBytes 1 f.kind ++ leBytes 1 f.ctx ++ leBytes 1 f.rank ++ leBytes 1 0 ++ leBytes 4 f.instr.toNat
    ++ leBytes 8 f.pc.toNat ++ leBytes 8 f.addr.toNat ++ leBytes 8 0

/-- A unit issue is over: no object waits for it (14 R373, 08 R216). -/
def State.forgetIssue (s : State) (p : IssueKey → Bool) : State :=
  let f (e : Option Evict) : Option Evict := e.map (fun e => { e with issues := e.issues.filter (fun k => !p k) })
  { s with
    decks := s.decks.map (fun d => { d with evicting := f d.evicting })
    automata := s.automata.map (fun a => { a with evicting := f a.evicting })
    colls := s.colls.map (fun c => { c with evicting := f c.evicting }) }

/-- Cancel the unit issues of an invocation's seats: no record is written (04 R110). -/
def State.cancelIssues (s : State) (seats : List Nat) : State :=
  { s.forgetIssue (fun k => seats.contains k.seat) with
    issues := s.issues.filter (fun u => !seats.contains u.key.seat)
    selections := s.selections.filter (fun x => !seats.contains x.key.seat)
    search := { s.search with queries := s.search.queries.filter (fun q =>
      match q.issue with
      | some k => !seats.contains k.seat
      | none => true) }
    embed := { s.embed with waiting := s.embed.waiting.filter (fun w =>
      match w.who with
      | .issue k => !seats.contains k.seat
      | .cmd _ => true) } }

/-- The work of an invocation must end with a status; its contexts stop at the next boundary (04 R113). -/
def State.stopInvocation (s : State) (n st : Nat) : State :=
  s.updInv n (fun v => { v with stop := if v.stop.isSome then v.stop else some st })

/-- End an invocation: its issues are cancelled, its seats fall quiet, and its command completes; a tenant kernel's
fault is carried at FAULT with RESULT0 1 (04 R113, 18 R483). -/
def State.endInvocation (s : State) (n : Nat) : State :=
  match s.inv? n with
  | none => s
  | some v =>
    let s := s.cancelIssues v.seats
    let s := { s with invs := s.invs.filter (fun x => x.id ≠ n) }
    let s := v.seats.foldl (fun s g => s.updSeat g (fun x =>
      { x with ctxs := List.replicate 64 .idle, sets := [], queue := [], repair := none, inv := none })) s
    match v.stop with
    | some st => s.fail v.cmd st
    | none =>
    match v.fault with
    | none => s.complete v.cmd St.ok 0 0 0
    | some f =>
      if v.stock then s.fail v.cmd St.aborted
      else
        match s.cmd? v.cmd with
        | none => s
        | some c =>
          match s.resolve v.tenant (c.field 0x28 8) 32 32 with
          | none => s.complete v.cmd St.badParam 0 1 0
          | some k => (s.wr k f.toBytes).complete v.cmd St.badParam 0 1 0

/-- An invocation ends when every context on every seat of it is IDLE (04 R104). -/
def State.checkEnd (s : State) (n : Nat) : State :=
  match s.inv? n with
  | none => s
  | some v =>
    if v.fault.isNone && v.stop.isNone && v.saved.isNone
        && v.seats.all (fun g => (s.seat g).ctxs.all (fun k => k.mode = .idle)) then s.endInvocation n
    else s

/-- Wake what can go on at a seat, and end its invocation if that left it idle. -/
def State.settleSeat (s : State) (g : Nat) : State :=
  let s := s.updSeat g Seat.wake
  match (s.seat g).inv with
  | none => s
  | some n => s.checkEnd n

/-! ### Unit issues (04 R109, R110) -/

/-- Write the 16-byte completion record and release the issue's ticket (04 R110); an issue to the meld unit counts as a
selection completed (06 R180). -/
def State.finishIssue (s : State) (k : IssueKey) (status count : Nat) : State :=
  match s.issue? k with
  | none => s
  | some u =>
    let bytes := leBytes 1 status ++ leBytes 1 (1 + 2 * boolNat u.recovered) ++ leBytes 2 0 ++ leBytes 4 count
      ++ leBytes 8 u.tag.toNat
    let s := match s.xlat u.tenant u.stock .store u.done.toNat with
      | .ok key => s.wr key bytes
      | _ => s
    let s := ({ s with issues := s.issues.filter (fun x => x.key ≠ k) }).forgetIssue (fun x => x == k)
    let s := if u.unit = 2 && s.fitted 6 && !s.flt.sLost && !s.unitOut 6 then s.bump64 0x00080000 1 else s
    let s := if status = St.aborted then s.fltBump 0x000F001C (holderId 0 k.seat) status u.unit else s
    let s := if u.recovered then
        (s.bump64 0x000F0020 1).event (Config.eventCode 0x000F0020) (holderId 0 k.seat) status u.unit
      else s
    let s := (s.updCtx k.seat k.ctx (fun c => { c with units := c.units.filter (fun t => t ≠ k.ticket) })).releaseParked k
    s.settleSeat k.seat

/-- Mark a unit issue as repaired. -/
def State.recoveredIssue (s : State) (k : IssueKey) : State :=
  { s with issues := updWhere (fun u => u.key == k) (fun u => { u with recovered := true }) s.issues }

/-- Mark whoever waits as repaired. -/
def State.recoveredWaiter (s : State) (w : Waiter) : State :=
  match w with
  | .cmd h => s.recovered h
  | .issue k => s.recoveredIssue k

/-- Complete whoever waits: a command or a unit issue. -/
def State.completeWaiter (s : State) (w : Waiter) (status count r0 : Nat) : State :=
  match w with
  | .cmd h => s.complete h status count r0 0
  | .issue k => s.finishIssue k status count

/-! ### Quotas (12 R318) -/

/-- Charge T1 bytes to a tenant. -/
def State.chargeT1 (s : State) (t n : Nat) : State := s.updTenant t (fun x => { x with t1 := { x.t1 with used := x.t1.used + n } })

/-- Release T1 bytes of a tenant. -/
def State.releaseT1 (s : State) (t n : Nat) : State := s.updTenant t (fun x => { x with t1 := { x.t1 with used := x.t1.used - n } })

/-- A pipeline query is forgotten, and its scratch released (07 R183). -/
def State.dropPipe (s : State) (h : Nat) : State :=
  (s.pipes.filter (fun p => p.cmd == h)).foldl (fun s p => s.releaseT1 p.tenant p.scratch)
    { s with pipes := s.pipes.filter (fun p => p.cmd ≠ h) }

/-- Bytes of a query's output range, where it lies, and the range with undefined contents, a free value (01 R26, 07 R192). -/
def Pipe.outBytes (p : Pipe) : Nat := 64 + packMap p.packBlock + 4 * packBudget p.packBlock
def State.outKey (s : State) (p : Pipe) : Option Nat := s.resolve p.tenant (fieldOf p.packBlock 0x18 8) p.outBytes 64
def State.spoilOut (s : State) (p : Pipe) : State :=
  match s.outKey p with
  | some k => s.draw.wr k (freeBytes s.fresh p.outBytes)
  | none => s

/-- Charge T2 bytes to a tenant. -/
def State.chargeT2 (s : State) (t n : Nat) : State := s.updTenant t (fun x => { x with t2 := { x.t2 with used := x.t2.used + n } })

/-- Release T2 bytes of a tenant. -/
def State.releaseT2 (s : State) (t n : Nat) : State := s.updTenant t (fun x => { x with t2 := { x.t2 with used := x.t2.used - n } })

/-- Whether a charge of `n` bytes fits a quota (12 R318). -/
def Quota.fits (q : Quota) (n : Nat) : Bool := decide (q.used + n ≤ q.limit * 65536)

/-- Whether a page of an object is not in T1: work that needs the object stalls until the tier engine has brought it in (01 R22,
12 R311, 15 R401). -/
def State.objectWaits (s : State) (t va len : Nat) : Bool :=
  s.pt.any (fun e => e.1.tenant == t && e.1.level == 0 && decide (va / 65536 ≤ e.1.path) && decide (65536 * e.1.path < va + len)
    && entryT1 e.2.toNat && !bitAt e.2.toNat 8)

/-- The status with which work that waits for a page of an object ends, when a fetch failed that it waited for (12 R311, 13 R329). -/
def State.fetchFate (s : State) (w : Waiter) (t va len : Nat) : Option Nat :=
  (s.tier.failed.find? (fun x => x.tenant == t && decide (va / 65536 ≤ x.block) && decide (65536 * x.block < va + len) && x.waiters.contains w)).map
    (fun x => x.status)

/-- Commands whose passages are to be fetched, the second class, in arrival order (12 R312, 07 R183). -/
def State.passagesDue (s : State) : List Nat := s.tier.passages.filter (fun h => has (fun p => p.cmd == h && p.stage == 3) s.pipes)

/-- Whether the tier engine may serve the passages of a command now (12 R312). -/
def State.passageTurn (s : State) (h : Nat) : Bool := s.tier.queue.isEmpty && s.passagesDue.head? == some h

/-- Whether the tier engine may serve an issue now: FETCH issues after demand and passage fetches, WRITEBACK issues after those, each class
in arrival order (12 R312). -/
def State.tierTurn (s : State) (k : IssueKey) (op : Nat) : Bool :=
  let first (o : Nat) := (s.issues.find? (fun u => u.unit == 6 && u.op == o && !u.begun)).map (fun u => u.key)
  s.tier.queue.isEmpty && s.passagesDue.isEmpty && first op == some k && (op == 1 || (first 1).isNone)

/-- Whether a line of an object in T1 is poisoned: no copy restores it (12 R308, 15 R400). -/
def State.objectPoisoned (s : State) (t va len : Nat) : Bool :=
  !s.tier.poison.isEmpty && s.pt.any (fun e =>
    let w := e.2.toNat
    e.1.tenant == t && e.1.level == 0 && decide (va / 65536 ≤ e.1.path) && decide (65536 * e.1.path < va + len) && bitAt w 0
      && bits w 7 6 == 0 && bitAt w 8 && s.poisoned (entryKey w) 65536)

/-- The bytes of a slot of a die's pot, 1.2 MiB: keys from, and how many (14 R370). -/
def potSlot (k : Nat) : Nat × Nat :=
  let a := ceilDiv (6291456 * (k % 80)) 5
  ((Space.pot (k / 80)).key a, ceilDiv (6291456 * (k % 80 + 1)) 5 - a)

/-- A hand's pot shares follow its seats: one slot on a die for each of its seats there, those it holds first, then the lowest that no hand
holds, which firmware zeroes (14 R370, R377, 20 R533; which slots is a DESIGN CHOICE, notes/assumptions/45.md). -/
def State.dealPot (s : State) (h : Nat) : State :=
  let x := s.hand h
  let others := (s.hands.eraseIdx h).flatMap (fun y => y.pot)
  let share (d : Nat) : List Nat :=
    let mine := x.pot.filter (fun k => k / 80 == d)
    let free := ((List.range 80).map (fun k => 80 * d + k)).filter (fun k => !others.contains k && !mine.contains k)
    (mine ++ free).take ((x.seats.filter (fun g => g / 88 == d)).length)
  let pot := share 0 ++ share 1
  let inNew (key : Nat) : Bool := (pot.filter (fun k => !x.pot.contains k)).any (fun k => let r := potSlot k; decide (r.1 ≤ key) && decide (key < r.1 + r.2))
  ({ s with mem := s.mem.filter (fun c => !inNew c.1), potBad := s.potBad.filter (fun w => !inNew w) }).updHand h (fun y => { y with pot := pot })

/-- Whether a hand holds a seat that its work can run on (01 R20, 14 R360). -/
def State.handSeated (s : State) (h : Nat) : Bool := (s.hand h).valid && (s.hand h).dealing.isNone && !(s.hand h).seats.isEmpty

/-- Whether the module runs: READY, not folded, not fatal (19 R505, R506). -/
def State.up (s : State) : Bool := s.power.phase == .running && s.power.ready

end Sys2Proof.Machine
end

