-- ==== Sys2Proof/Machine/Codec.lean ====
section
/-!
DEFINITION. Checksums, digests and block formats: CRC-32C (12 R307), SHA-256 (20 R525), bit-packed elements (02 R40), and
the stored blocks and weight codec of 12 R314 to R317.
-/
namespace Sys2Proof.Machine

/-! ### CRC-32C -/

/-- Shift a CRC register by `n` bits; the polynomial 0x1EDC_6F41 in reflected form. -/
def crcShift : Nat → Nat → Nat
  | 0, r => r
  | n + 1, r => crcShift n (if r % 2 = 1 then (r / 2) ^^^ 0x82F63B78 else r / 2)

/-- CRC-32C of bytes (12 R307). -/
def crc32c (bs : List Byte) : Nat :=
  (bs.foldl (fun r b => crcShift 8 (r ^^^ b.toNat)) 0xFFFFFFFF) ^^^ 0xFFFFFFFF

/-! ### SHA-256 -/

/-- The first primes, whose cube roots give the round constants. -/
def shaPrimes : List Nat :=
  [2, 3, 5, 7, 11, 13, 17, 19, 23, 29, 31, 37, 41, 43, 47, 53, 59, 61, 67, 71, 73, 79, 83, 89, 97, 101, 103, 107, 109, 113,
   127, 131]
  ++ [137, 139, 149, 151, 157, 163, 167, 173, 179, 181, 191, 193, 197, 199, 211, 223, 227, 229, 233, 239, 241, 251, 257,
   263, 269, 271, 277, 281, 283, 293, 307, 311]

/-- Integer cube root from bit `b` down. -/
def icbrtFrom (n : Nat) : Nat → Nat → Nat
  | 0, r => r
  | b + 1, r => let t := r + 2 ^ b; icbrtFrom n b (if t * t * t ≤ n then t else r)

/-- Round constant of a prime: 32 fraction bits of its cube root. -/
def shaK (p : Nat) : Word := BitVec.ofNat 32 (icbrtFrom (p * 2 ^ 96) 36 0)

/-- Start value of a prime: 32 fraction bits of its square root. -/
def shaH (p : Nat) : Word := BitVec.ofNat 32 (isqrt (p * 2 ^ 64))

/-- A big-endian word of four bytes. -/
def beWord (bs : List Byte) : Word := BitVec.ofNat 32 (bs.foldl (fun a b => a * 256 + b.toNat) 0)

/-- The message schedule: `n` more words from the sixteen latest, newest first. -/
def shaSchedule : Nat → List Word → List Word
  | 0, w => w
  | n + 1, w =>
    let w2 := w.getD 1 0
    let w7 := w.getD 6 0
    let w15 := w.getD 14 0
    let w16 := w.getD 15 0
    let s0 := w15.rotateRight 7 ^^^ w15.rotateRight 18 ^^^ (w15 >>> 3)
    let s1 := w2.rotateRight 17 ^^^ w2.rotateRight 19 ^^^ (w2 >>> 10)
    shaSchedule n ((w16 + s0 + w7 + s1) :: w)

/-- One round on the eight working words. -/
def shaRound (h : List Word) (kw : Word) : List Word :=
  match h with
  | [a, b, c, d, e, f, g, hh] =>
    let t1 := hh + (e.rotateRight 6 ^^^ e.rotateRight 11 ^^^ e.rotateRight 25) + ((e &&& f) ^^^ (~~~ e &&& g)) + kw
    let t2 := (a.rotateRight 2 ^^^ a.rotateRight 13 ^^^ a.rotateRight 22) + ((a &&& b) ^^^ (a &&& c) ^^^ (b &&& c))
    [t1 + t2, a, b, c, d + t1, e, f, g]
  | l => l

/-- Compress one 64-byte block. -/
def shaBlock (h : List Word) (blk : List Byte) : List Word :=
  let first := (List.range 16).map (fun i => beWord ((blk.drop (4 * i)).take 4))
  let ws := (shaSchedule 48 first.reverse).reverse
  let out := ((ws.zip shaPrimes).map (fun x => x.1 + shaK x.2)).foldl shaRound h
  (h.zip out).map (fun x => x.1 + x.2)

/-- Big-endian bytes of a number. -/
def beBytes (n v : Nat) : List Byte := (leBytes n v).reverse

/-- SHA-256 (20 R525). -/
def sha256 (m : List Byte) : List Byte :=
  let padded := m ++ [0x80] ++ List.replicate ((119 - m.length % 64) % 64) 0 ++ beBytes 8 (8 * m.length)
  let h := (chunks 64 (padded.length / 64 + 1) padded).foldl shaBlock ((shaPrimes.take 8).map shaH)
  h.flatMap (fun w => beBytes 4 w.toNat)

/-! ### Packed elements (02 R40) -/

/-- Element `k` of `w` bits of a packed row, first element in the low bits. -/
def packedElem (w : Nat) (row : List Byte) (k : Nat) : Nat :=
  let first := k * w / 8
  leNat ((row.drop first).take 3) / 2 ^ (k * w % 8) % 2 ^ w

/-- Pack elements of `w` bits, first element in the low bits, into whole bytes. -/
def packElems (w : Nat) (es : List Nat) : List Byte :=
  leBytes ((es.length * w + 7) / 8) (es.foldr (fun x acc => x % 2 ^ w + 2 ^ w * acc) 0)

/-- Bytes of a packed row of `n` elements. -/
def packedLen (w n : Nat) : Nat := (n * w + 7) / 8

/-! ### Stored blocks (12 R314) and the weight codec (12 R316) -/

/-- Exponent bits, rest bits, index bits and elements of a weight format (12 R316). -/
def wfmt : Nat → Nat × Nat × Nat × Nat
  | 0 => (4, 4, 2, 65536)
  | 1 => (5, 3, 3, 65536)
  | _ => (8, 8, 4, 32768)

/-- Exponent field of an element: it lies below the sign and above the mantissa (03 R63). -/
def expField (e r x : Nat) : Nat := x / 2 ^ (r - 1) % 2 ^ e

/-- The rest of an element: sign above mantissa (notes/assumptions/14.md). -/
def restField (e r x : Nat) : Nat := x / 2 ^ (r - 1 + e) % 2 * 2 ^ (r - 1) + x % 2 ^ (r - 1)

/-- An element from its exponent field and its rest. -/
def joinElem (e r ex rest : Nat) : Nat :=
  rest / 2 ^ (r - 1) % 2 * 2 ^ (r - 1 + e) + ex % 2 ^ e * 2 ^ (r - 1) + rest % 2 ^ (r - 1)

/-- Take exponents from the table, or the next escape for the all-ones index. -/
def wExponents (table : List Nat) (esc : Nat) : List Nat → List Nat → List Nat
  | [], _ => []
  | i :: is, es =>
    if i = esc then es.headD 0 :: wExponents table esc is es.tail
    else table.getD i 0 :: wExponents table esc is es

/-- Expand a weight payload (12 R316). -/
def wExpand (f : Nat) (p : List Byte) : List Byte :=
  let (e, r, fb, n) := wfmt f
  let table := (p.take 16).map (fun b => b.toNat)
  let rests := (List.range n).map (packedElem r (p.drop 64))
  let idxOff := 64 + roundUp (packedLen r n) 64
  let idxs := (List.range n).map (packedElem fb (p.drop idxOff))
  let escOff := idxOff + roundUp (packedLen fb n) 64
  let esc := 2 ^ fb - 1
  let escs := (List.range (idxs.filter (fun i => i = esc)).length).map (packedElem e (p.drop escOff))
  let exps := wExponents table esc idxs escs
  packElems (e + r) ((exps.zip rests).map (fun x => joinElem e r x.1 x.2))

/-- Pad bytes to a multiple of 64. -/
def pad64 (b : List Byte) : List Byte := b ++ List.replicate (roundUp b.length 64 - b.length) 0

/-- The table of the most frequent exponents, ties to the lower value (12 R316). -/
def wTable (e fb : Nat) (exps : List Nat) : List Nat :=
  let counts := (List.range (2 ^ e)).map (fun v => (v, (exps.filter (fun x => x = v)).length))
  let sorted := sortBy (fun a b => decide (a.2 > b.2) || (a.2 == b.2 && decide (a.1 < b.1))) (counts.filter (fun c => c.2 > 0))
  (sorted.take (2 ^ fb - 1)).map (fun c => c.1)

/-- The weight payload of 65,536 expanded bytes (12 R316). -/
def wEncode (f : Nat) (data : List Byte) : List Byte :=
  let (e, r, fb, n) := wfmt f
  let es := (List.range n).map (packedElem (e + r) data)
  let exps := es.map (expField e r)
  let table := wTable e fb exps
  let esc := 2 ^ fb - 1
  let idxs := exps.map (fun x => (indexWhere (fun y => y == x) table).getD esc)
  let escs := (exps.zip idxs).filterMap (fun x => if x.2 = esc then some x.1 else none)
  pad64 ((table.map (fun v => BitVec.ofNat 8 v)) ++ List.replicate (16 - table.length) 0)
    ++ pad64 (packElems r (es.map (restField e r))) ++ pad64 (packElems fb idxs) ++ pad64 (packElems e escs)

/-- The 64-byte header of a stored block (12 R314). -/
def blockHeader (mode wf va tenant : Nat) (payload data : List Byte) : List Byte :=
  leBytes 2 0x4B42 ++ leBytes 1 mode ++ leBytes 1 wf ++ leBytes 4 payload.length ++ leBytes 8 va
    ++ leBytes 4 (crc32c payload) ++ leBytes 4 (crc32c data) ++ leBytes 2 tenant ++ leBytes 38 0

/-- A weight block as stored: RAW when the payload would reach 65,536 bytes (12 R316). -/
def wStore (f va tenant : Nat) (data : List Byte) : List Byte :=
  let p := wEncode f data
  if p.length ≥ 65536 then blockHeader 0 0 va tenant data data ++ data else blockHeader 2 f va tenant p data ++ p

/-- The expanded bytes of a stored block of modes RAW and WEIGHT; none when its header or a CRC is bad (12 R314, R317). -/
def blockExpand (b : List Byte) : Option (List Byte) :=
  let payload := (b.drop 64).take (fieldOf b 4 4)
  let mode := fieldOf b 2 1
  if fieldOf b 0 2 ≠ 0x4B42 || crc32c payload ≠ fieldOf b 0x10 4 then none
  else
    let data := if mode = 0 then payload else wExpand (fieldOf b 3 1) payload
    if mode ≠ 1 && mode < 3 && crc32c data = fieldOf b 0x14 4 then some data else none

/-- The bytes of a stored block (12 R314). -/
def Stored.bytes (x : Stored) : List Byte := x.header ++ x.payload

end Sys2Proof.Machine
end

