-- ==== Sys2Proof/Machine/Frames.lean ====
section
/-!
DEFINITION. Frames and messages of the chip-to-chip links as they are sent: layout, credits, acknowledgement, routes (16 R421 to
R424, R428). The choices are notes/assumptions/32.md.
-/
namespace Sys2Proof.Machine

/-! ### Frames (16 R421) -/

/-- A 256-byte frame with its CRC. -/
def linkFrame (ty flags src dst seq ack credit : Nat) (payload : List Byte) : List Byte :=
  let p := payload.take 240
  let b := leBytes 1 ty ++ leBytes 1 flags ++ leBytes 1 src ++ leBytes 1 dst ++ leBytes 2 seq ++ leBytes 2 ack ++ leBytes 1 p.length
    ++ leBytes 3 credit ++ p ++ List.replicate (240 - p.length) 0
  b ++ leBytes 4 (crc32c b)

/-- Whether a frame has its length and its CRC. -/
def frameOk (f : List Byte) : Bool := f.length == 256 && fieldOf f 0xFC 4 == crc32c (f.take 252)

/-- Fields of a frame. -/
def frameType (f : List Byte) : Nat := fieldOf f 0 1
def frameClass (f : List Byte) : Nat := bits (fieldOf f 1 1) 1 0
def frameBit (f : List Byte) (i : Nat) : Bool := bitAt (fieldOf f 1 1) i
def frameSrc (f : List Byte) : Nat := fieldOf f 2 1
def frameDst (f : List Byte) : Nat := fieldOf f 3 1
def frameSeq (f : List Byte) : Nat := fieldOf f 4 2
def frameAck (f : List Byte) : Nat := fieldOf f 6 2
def framePayload (f : List Byte) : List Byte := (f.drop 12).take (min 240 (fieldOf f 8 1))

/-! ### Pools (16 R423) -/

/-- A count of a pool by class. -/
def Pool.get (p : Pool) : Nat → Nat
  | 0 => p.trump | 1 => p.cpl | _ => p.xch

/-- Change a count of a pool. -/
def Pool.upd (p : Pool) (c : Nat) (f : Nat → Nat) : Pool :=
  match c with
  | 0 => { p with trump := f p.trump }
  | 1 => { p with cpl := f p.cpl }
  | _ => { p with xch := f p.xch }

/-- The receive entries of the two pools. -/
def Pool.firstLeg : Pool := ⟨8, 128, 376⟩
def Pool.secondLeg : Pool := ⟨8, 64, 184⟩

/-- Credits come back, up to the size of the pool. -/
def Pool.back (p size : Pool) (n : Nat) : Pool :=
  ⟨min size.trump (p.trump + bits n 7 0), min size.cpl (p.cpl + bits n 15 8), min size.xch (p.xch + bits n 23 16)⟩

/-- The CREDIT field that returns what a pool has freed: at most 255 of a class. -/
def Pool.credit (p : Pool) : Nat := min 255 p.trump + 256 * min 255 p.cpl + 65536 * min 255 p.xch

/-- What a pool has freed and not yet returned. -/
def Pool.rest (p : Pool) : Pool := ⟨p.trump - 255, p.cpl - 255, p.xch - 255⟩

/-! ### Links and routes (16 R428) -/

/-- A link that carries all traffic, and one that carries at least TRUMP (16 R426). -/
def Link.live (l : Link) : Bool := l.mode = .up || l.mode = .degraded
def Link.trained (l : Link) : Bool := l.live || l.mode = .rejected || l.mode = .duplicate

/-- This module's member number (16 R437). -/
def State.me (s : State) : Nat := s.cell.actMember.toNat

/-- A link by its index. -/
def State.link (s : State) (l : Nat) : Link := s.cell.links.getD l (.idle false)

/-- Change a link. -/
def State.updLink (s : State) (l : Nat) (f : Link → Link) : State := s.updCell (fun c => { c with links := c.links.modify l f })

/-- Offset of a register of a link's block (16 R441). -/
def linkReg (l off : Nat) : Nat := 0x00101000 + 0x20 * l + off

/-- The direct link to a member. -/
def State.linkTo (s : State) (m : Nat) : Option Nat := indexWhere (fun l => l.live && l.peer == m) s.cell.links

/-- The member that a two-hop route to another goes through. -/
def State.hopFor (s : State) (m : Nat) : Option Nat :=
  (List.range 37).find? (fun c => c ≠ m && c ≠ s.me && s.cell.members.getLsbD c && (match s.linkTo c with
    | some l => (s.link l).peerHeard.getLsbD m
    | none => false))

/-- The link a message for a member takes. -/
def State.routeTo (s : State) (m : Nat) : Option Nat :=
  match s.linkTo m with
  | some l => some l
  | none => (s.hopFor m).bind s.linkTo

/-! ### Sending (16 R421 to R424) -/

/-- Send a frame on a link: SEQ, ACK and the freed entries are filled in; all but a NAK are kept until acknowledged. -/
def State.putFrame (s : State) (l ty flags src dst : Nat) (payload : List Byte) : State :=
  let k := s.link l
  let second := k.freed1 = ⟨0, 0, 0⟩ && k.freed2 ≠ ⟨0, 0, 0⟩
  let credit := if second then k.freed2.credit else k.freed1.credit
  let f := linkFrame ty (flags + 64 * boolNat second) src dst k.sendSeq ((k.recvSeq + 65535) % 65536) credit payload
  let s := s.updLink l (fun k => { k with
    freed1 := if second then k.freed1 else k.freed1.rest, freed2 := if second then k.freed2.rest else k.freed2
    sendSeq := if ty = 3 then k.sendSeq else (k.sendSeq + 1) % 65536
    unacked := if ty = 3 then k.unacked else k.unacked ++ [{ seq := k.sendSeq, resends := 0, bytes := f }] })
  s.emit (.frame l f)

/-- The source a class is open for, if a message of the class is under way. -/
def Link.lockOf (k : Link) (c : Nat) : Option Nat := (k.lock.find? (fun x => x.1 == c)).map (fun x => x.2)

/-- Open or close a class for a source. -/
def Link.setLock (k : Link) (c : Nat) (src : Option Nat) : Link :=
  { k with lock := (match src with | some x => [(c, x)] | none => []) ++ k.lock.filter (fun x => x.1 ≠ c) }

/-- Send the next frame of a class that is forwarded, when one may go. -/
def State.pumpFwd (s : State) (l c : Nat) : Option State :=
  let k := s.link l
  let may (x : Nat × List Byte) : Bool := frameClass x.2 == c && (match k.lockOf c with | none => true | some y => y == x.1)
  match k.fwd.find? may with
  | none => none
  | some x =>
    if k.second.get c = 0 || k.unacked.length ≥ 1024 then none
    else
      let s := s.updLink l (fun k => ({ k with
        fwd := k.fwd.erase x, second := k.second.upd c (· - 1) } : Link).setLock c (if frameBit x.2 3 then none else some x.1))
      let s := s.updLink x.1 (fun k => { k with freed1 := k.freed1.upd c (· + 1) })
      some (s.putFrame l 0 (c + 4 * boolNat (frameBit x.2 2) + 8 * boolNat (frameBit x.2 3) + 48) (frameSrc x.2) (frameDst x.2)
        (framePayload x.2))

/-- Send the next frame of this module's own message of a class, when one may go. -/
def State.pumpOwn (s : State) (l c : Nat) : Option State :=
  let k := s.link l
  match indexWhere (fun (m : OutMsg) => m.cls == c && m.last.isNone) k.out with
  | none => none
  | some i =>
    match k.out[i]? with
    | none => none
    | some m =>
      if k.first.get c = 0 || k.unacked.length ≥ 1024 || (match k.lockOf c with | none => false | some y => y ≠ 64) then none
      else
        let part := (m.bytes.drop m.sent).take 240
        let done := decide (m.bytes.length ≤ m.sent + 240)
        let s := s.updLink l (fun k => ({ k with
          first := k.first.upd c (· - 1)
          out := k.out.modify i (fun m => { m with sent := m.sent + part.length, last := if done then some k.sendSeq else none }) }
          : Link).setLock c (if done then none else some 64))
        some (s.putFrame l 0 (c + 4 * boolNat (decide (m.sent = 0)) + 8 * boolNat done + 16 * boolNat (decide (m.dst ≠ k.peer))) s.me m.dst part)

/-- Send the next DATA frame of a link: the lowest class that may go (15 R408). -/
def State.pumpOne (s : State) (l : Nat) : Option State :=
  let classes := if (s.link l).live then [0, 1, 2] else if (s.link l).trained then [0] else []
  classes.findSome? (fun c => match s.pumpFwd l c with | some s => some s | none => s.pumpOwn l c)

/-- Send what credits allow; `fuel` bounds the frames. -/
def State.pump (l : Nat) : Nat → State → State
  | 0, s => s
  | n + 1, s => match s.pumpOne l with | some s => State.pump l n s | none => s

/-- Frames a link has to send at most. -/
def Link.frames (k : Link) : Nat := k.fwd.length + sumNat (k.out.map (fun m => m.bytes.length / 240 + 1))

/-- Send what a link may send. -/
def State.pumpLink (s : State) (l : Nat) : State := State.pump l (s.link l).frames s

/-- Give a message to the link of its route, or keep it until there is one (16 R424, R428). -/
def State.sendMsg (s : State) (m : OutMsg) : State :=
  match s.routeTo m.dst with
  | none => s.updCell (fun c => { c with waiting := c.waiting ++ [m] })
  | some l => (s.updLink l (fun k => { k with out := k.out ++ [m] })).pumpLink l

/-- Send a message of a class to a member. -/
def State.send (s : State) (dst cls : Nat) (bytes : List Byte) : State :=
  s.sendMsg { dst := dst, cls := cls, bytes := bytes, sent := 0, last := none }

/-! ### Routes that change (16 R428) -/

/-- Count the members whose route is another than the last one used, and note the routes in force. -/
def State.noteRoutes (s : State) : State :=
  let now := ((List.range 37).filter (fun m => m ≠ s.me && s.cell.members.getLsbD m)).filterMap (fun m =>
    match s.linkTo m, s.hopFor m with
    | some _, _ => some (m, none)
    | none, some c => some (m, some c)
    | none, none => none)
  let changed := now.filter (fun x => has (fun y => y.1 == x.1 && y.2 ≠ x.2) s.cell.routes)
  (s.bumpBy 0x00100028 changed.length).updCell (fun c => { c with
    routes := now ++ c.routes.filter (fun y => !has (fun x => x.1 == y.1) now) })

/-- Messages not yet begun, and those without a route, take the route in force. -/
def State.reroute (s : State) : State :=
  let s := s.noteRoutes
  let stay (l : Nat) (m : OutMsg) : Bool := m.sent ≠ 0 || s.routeTo m.dst = some l
  let moved := s.cell.waiting ++ ((List.range 36).flatMap (fun l => (s.link l).out.filter (fun m => !stay l m)))
  let s := (List.range 36).foldl (fun (s : State) l => s.updLink l (fun k => { k with out := k.out.filter (stay l) })) s
  moved.foldl State.sendMsg (s.updCell (fun c => { c with waiting := [] }))

end Sys2Proof.Machine
end

