-- ==== Sys2Proof/Machine/Operands.lean ====
section
/-!
DEFINITION. The operands of a thread instruction: registers, guards, seat-buffer accesses, and how an instruction
issues, completes, stalls or faults (04 R94 to R99, R112, R113).
-/
namespace Sys2Proof.Machine

/-! ### Registers (04 R95) -/

/-- Scalar register `n`; s0 reads 0. -/
def Ctx.rs (k : Ctx) (n : Nat) : Addr := if n = 0 then 0 else k.s.getD n 0

/-- Write scalar register `n`; a write to s0 is discarded. -/
def Ctx.ws (k : Ctx) (n : Nat) (v : Addr) : Ctx := if n = 0 then k else { k with s := k.s.set n v }

/-- Predicate register `n`; p0 reads all ones. -/
def Ctx.rp (k : Ctx) (n : Nat) : Word := if n = 0 then 0xFFFFFFFF else k.p.getD n 0

/-- Write predicate register `n`; a write to p0 is discarded. -/
def Ctx.wp (k : Ctx) (n : Nat) (v : Word) : Ctx := if n = 0 then k else { k with p := k.p.set n v }

/-- Vector register `n`. -/
def Ctx.rv (k : Ctx) (n : Nat) : VReg := k.v.getD n 0

/-- Write vector register `n`. -/
def Ctx.wv (k : Ctx) (n : Nat) (v : VReg) : Ctx := { k with v := k.v.set n v }

/-! ### Vector lanes (04 R95, R99) -/

/-- Lanes of a type: 16 of 32 bits or 32 of 16 bits (04 R95). -/
def laneCount : LaneTy → Nat
  | .fp32 => 16 | .bf16 => 32 | .int32 => 16

/-- Bits of a lane. -/
def laneBits : LaneTy → Nat
  | .fp32 => 32 | .bf16 => 16 | .int32 => 32

/-- Lane `i` of a register of lanes of `w` bits. -/
def laneOf (w : Nat) (v : VReg) (i : Nat) : Nat := v.toNat / 2 ^ (w * i) % 2 ^ w

/-- Put lanes together, lane 0 lowest. -/
def ofLanes (w : Nat) (l : List Nat) : VReg := BitVec.ofNat 512 (l.foldr (fun x acc => x % 2 ^ w + 2 ^ w * acc) 0)

/-- All lanes of a register. -/
def lanesOf (ty : LaneTy) (v : VReg) : List Nat := (List.range (laneCount ty)).map (laneOf (laneBits ty) v)

/-- Lane-wise result under a guard: disabled lanes keep the old register's (04 R99). -/
def maskLanes (ty : LaneTy) (guard : Word) (old : VReg) (f : Nat → Nat) : VReg :=
  ofLanes (laneBits ty) ((List.range (laneCount ty)).map (fun i => if bitAt guard.toNat i then f i else laneOf (laneBits ty) old i))

/-- The value of a lane; a BF16 pattern is the upper half of the binary32 pattern of the same value (03 R63). -/
def laneVal (ty : LaneTy) (w : Nat) : FVal :=
  match ty with
  | .fp32 => ofF32 (BitVec.ofNat 32 w)
  | .bf16 => ofF32 (BitVec.ofNat 32 (w * 65536))
  | .int32 => FVal.ofInt (signed 32 w)

/-- The lane pattern nearest a value. -/
def laneEnc (ty : LaneTy) (v : FVal) : Nat :=
  match ty with
  | .fp32 => Fmt.fp32.encode v
  | .bf16 => Fmt.bf16.encode v
  | .int32 => v.toInt32.toNat

/-! ### Issue -/

/-- An instruction that may issue: where, its words, its context as it stands, and its invocation. -/
structure Th where
  at' : Iss
  /-- The first word and the length in bytes. -/
  word : Nat
  len : Nat
  ctx : Ctx
  inv : Invocation
  deriving DecidableEq, Repr

/-- Rank of a seat within its invocation (04 R102). -/
def Invocation.rank (v : Invocation) (g : Nat) : Nat := (indexWhere (fun x => x == g) v.seats).getD 0

/-- The context, when it is RUNNING and ready on a DEALT seat that runs an invocation (04 R94). -/
def State.thread (s : State) (i : Iss) (word len : Nat) : Option Th :=
  let x := s.seat i.seat
  let k := x.ctx i.ctx
  if s.up && s.powered (quadDomain i.seat) && x.mode = .dealt && !x.clearing && !x.saving && i.ctx < 64 && k.mode = .running && k.wait = .none then
    match x.inv with
    | none => none
    | some n => (s.inv? n).map (fun v => { at' := i, word := word, len := len, ctx := k, inv := v })
  else none

/-- Store the context with its program counter past the instruction. -/
def Th.done (t : Th) (s : State) (k : Ctx) : State :=
  s.updCtx t.at'.seat t.at'.ctx (fun _ => { k with pc := t.ctx.pc + BitVec.ofNat 64 t.len })

/-- Store the context with a new program counter. -/
def Th.jump (t : Th) (s : State) (k : Ctx) (pc : Addr) : State :=
  s.updCtx t.at'.seat t.at'.ctx (fun _ => { k with pc := pc })

/-- Only advance. -/
def Th.skip (t : Th) (s : State) : State := t.done s t.ctx

/-- Wait without advancing: the instruction issues again when the wait is over. -/
def Th.stall (t : Th) (s : State) (w : Wait) : State :=
  s.updCtx t.at'.seat t.at'.ctx (fun k => { k with wait := w })

/-- The place in issue order after those of the matrix instructions that wait at a seat (02 R35). -/
def Seat.nextTurn (x : Seat) : Nat := 1 + (x.ctxs.map (fun k => match k.turn with | some n => n.1 | none => 0)).foldl max 0

/-- Whether a matrix instruction of another context, issued before place `n`, still waits at the seat: any goes before an MRUN, but an MDRAIN
for which there is no tile; an MDRAIN goes before an MDRAIN, and past an MRUN that waits for the set it frees (02 R34, R35; DEDUCED,
notes/assumptions/39.md). -/
def Seat.behind (x : Seat) (c n : Nat) (drain : Bool) : Bool :=
  ((List.range x.ctxs.length).zip x.ctxs).any (fun k => k.1 ≠ c && (match k.2.turn with
    | some m => decide (m.1 < n) && (if m.2 then !(x.sets.isEmpty && x.queue.isEmpty && x.repair.isNone) else !drain)
    | none => false))

/-- Wait at the matrix queue, at the place already held or behind those that wait (02 R35). -/
def Th.queueUp (t : Th) (s : State) (n : Nat) (drain : Bool) (w : Wait) : State :=
  s.updCtx t.at'.seat t.at'.ctx (fun k => { k with wait := w, turn := some (n, drain) })

/-- A matrix instruction takes its turn: it waits while an earlier one of another context does; `f` gets the place it holds and the context
without it (02 R35). -/
def Th.inTurn (t : Th) (s : State) (drain : Bool) (w : Wait) (f : Th → State → Nat → State) : State :=
  let x := s.seat t.at'.seat
  let n := match t.ctx.turn with | some n => n.1 | none => x.nextTurn
  if x.behind t.at'.ctx n drain then t.queueUp s n drain w
  else f { t with ctx := { t.ctx with turn := none } } (s.updCtx t.at'.seat t.at'.ctx (fun k => { k with turn := none })) n

/-- Advance and wait; a wait whose condition already holds is over at once. -/
def Th.doneWait (t : Th) (s : State) (k : Ctx) (w : Wait) : State :=
  (t.done s { k with wait := w }).settleSeat t.at'.seat

/-- Record a fault in FLT_KFAULT and FLT_KFAULT_SRC (15 R416). -/
def State.kfault (s : State) (v : Invocation) (f : FaultRec) : State :=
  { s with flt := { s.flt with
    kfault := some f
    kfaultSrc := BitVec.ofNat 32 (2 ^ 31 + boolNat v.stock * 2 ^ 16 + v.tenant * 2 ^ 8 + v.hand) } }

/-- Take a thread fault of kinds 1 to 6: the context stops in FAULTED, the invocation keeps its first record, and the
fault is counted (04 R112, R113, 15 R416, R417). -/
def Th.fault (t : Th) (s : State) (kind : Nat) (addr : Nat) : State :=
  let f : FaultRec :=
    { kind := kind, ctx := t.at'.ctx, rank := t.inv.rank t.at'.seat, instr := BitVec.ofNat 32 (t.word),
      pc := t.ctx.pc, addr := BitVec.ofNat 64 addr }
  let s := s.updCtx t.at'.seat t.at'.ctx (fun k => { k with mode := .faulted, wait := .none })
  let s := s.updInv t.inv.id (fun v => { v with fault := if v.fault.isNone then some f else v.fault })
  let s := s.kfault t.inv f
  s.fltBump (if t.inv.stock then 0x000F0014 else 0x000F0010) (holderId 7 t.inv.tenant) 0 t.ctx.pc.toNat

/-- Whether an outstanding TVA load will write a register the instruction names (04 R96). -/
def Ctx.blocked (k : Ctx) (ss vs : List (BitVec 5)) : Bool :=
  has (fun l => if l.vec then vs.any (fun r => r.toNat == l.dst) else ss.any (fun r => r.toNat == l.dst)) k.loads

/-- The instruction's guard predicate (04 R99). -/
def Th.guard (t : Th) : Word := t.ctx.rp t.at'.pg.toNat

/-- Fetch one word of an instruction: its page must be mapped executable (04 R97). -/
def Th.fetchWord (t : Th) (s : State) (va : Nat) (f : State) : State :=
  match s.xlat t.inv.tenant t.inv.stock .fetch va with
  | .fault k => t.fault s k va
  | .absent b => t.stall s (.page b)
  | .ok _ => f

/-- Fetch the words of an instruction, which starts on a 4-byte boundary; a program counter off it is an ALIGNMENT fault (04 R97, R98;
DEDUCED, notes/assumptions/15.md). -/
def Th.fetch (t : Th) (s : State) (f : State) : State :=
  let pc := t.ctx.pc.toNat
  if pc % 4 ≠ 0 then t.fault s 5 pc
  else t.fetchWord s pc (if t.len = 8 then t.fetchWord s (pc + 4) f else f)

/-- Issue an instruction: its words are fetched (04 R97); an illegal encoding faults (R99); an instruction that names a register an
outstanding load will write is not issued (R96); a scalar or control instruction whose guard bit 0 is 0 has no effect (R99). -/
def State.issue (s : State) (i : Iss) (word len : Nat) (legal vector : Bool) (ss vs : List (BitVec 5))
    (f : Th → State → State) : State :=
  match s.thread i word len with
  | none => s
  | some t =>
    t.fetch s (
      if !legal then t.fault s 1 0
      else if t.ctx.blocked ss vs then s
      else if !vector && !bitAt t.guard.toNat 0 then t.skip s
      else f t s)

/-- Issue a scalar or control instruction that names scalar registers. -/
def State.scalar (s : State) (i : Iss) (ins : Instr) (ss : List (BitVec 5)) (f : Th → State → State) : State :=
  s.issue i (threadWord ins) (threadLen ins) (threadLegal ins) false ss [] f

/-- Issue a vector instruction, which its guard masks lane by lane. -/
def State.vector (s : State) (i : Iss) (ins : Instr) (ss vs : List (BitVec 5)) (f : Th → State → State) : State :=
  s.issue i (threadWord ins) (threadLen ins) (threadLegal ins) true ss vs f

/-! ### Seat buffer accesses (02 R47, 03 R85) -/

/-- Words of a range whose parity fails. -/
def Seat.badIn (x : Seat) (off n : Nat) : List Nat := x.badWords.filter (fun w => decide (off < w + 4) && decide (w < off + n))

/-- AUD_LAST keeps the first event after VALID was cleared (03 R90). -/
def State.audEvent (s : State) (kind unit row col : Nat) : State :=
  if s.audLast.valid then s
  else { s with audLast := { valid := true, kind := kind, unit := unit, row := row, col := col } }

/-- The AUD_ counters of a seat (03 R92). -/
def audSeat (g off : Nat) : Nat := 0x00061000 + g * 0x20 + off

/-- A bad seat-buffer word is met: AUD_PARITY counts the event, AUD_LAST may record it, and the command is marked (03 R85, R90). -/
def State.parityEvent (s : State) (g cmd : Nat) : State := ((s.bump (audSeat g 0x14)).audEvent 4 g 0 0).recovered cmd

/-- The seat as it stands, for a later re-run of its work from here (03 R85). -/
def State.markSeat (s : State) (g : Nat) : State :=
  let x := s.seat g
  let m : SavedSeat := { ctxs := x.ctxs, sets := x.sets, queue := x.queue, sbuf := s.sbuf g, die := g / 88, kept := sbufBytes }
  s.updSeat g (fun x => { x with mark := if x.inv.isSome then some m else none, writes := [] })

/-- A context that re-runs from the boundary: its registers as they stood there; the DMAs and unit issues it has outstanding go on under
their tickets, and later tickets follow on. -/
def Ctx.rerun (old now : Ctx) : Ctx :=
  { old with dmas := now.dmas, units := now.units, nextDma := now.nextDma, nextUnit := now.nextUnit }

/-- The barrier arrivals that a seat's contexts made since the boundary in a phase still open are taken back, because the re-run makes
them again (03 R85, 04 R123, notes/assumptions/13.md). -/
def State.withdraw (s : State) (n : Nat) (old now : List Ctx) : State :=
  let made := (now.zip old).flatMap (fun k => k.1.arrivals.filter (fun a => !k.2.arrivals.contains a))
  s.updInv n (fun v => { v with barriers := ((List.range v.barriers.length).zip v.barriers).map (fun b =>
    { b.2 with arrived := b.2.arrived - (made.filter (fun a => a.1 == b.1 && a.2 == b.2.phase + 1)).length }) })

/-- A context of a seat stores bytes through the TVA: what stood there is kept until the next trick boundary (15 R389). -/
def State.storeAt (s : State) (g key : Nat) (bs : List Byte) : State :=
  (s.updSeat g (fun x => { x with writes := (key, s.rd key bs.length, bs) :: x.writes })).wr key bs

/-- What a seat stored through the TVA since the boundary is taken back, the newest first, where it still stands, so that the re-run meets what
the first run met (15 R389, notes/assumptions/13.md). -/
def State.unstore (s : State) (g : Nat) : State :=
  ((s.seat g).writes.foldl (fun (s : State) w => if s.rd w.1 w.2.2.length = w.2.2 then s.wr w.1 w.2.1 else s) s).updSeat g
    (fun x => { x with writes := [] })

/-- The hand's work on a seat is re-run from the trick boundary: contexts, accumulators, matrix queue, buffer and what it stored as they stood
there, the line sound again (03 R85, 04 R112, 15 R389). -/
def State.rerunSeat (s : State) (g line : Nat) : State :=
  let s := if (s.seat g).mark.isSome then s.unstore g else s
  let x := s.seat g
  let s := s.updSeat g (fun y => { y with badWords := y.badWords.filter (fun b => b / 64 ≠ line) })
  match x.mark, x.inv with
  | some m, some n =>
    let s := (s.withdraw n m.ctxs x.ctxs).setSbuf g m.sbuf
    s.updSeat g (fun y => { y with
      ctxs := (m.ctxs.zip y.ctxs).map (fun k => k.1.rerun k.2), sets := m.sets, queue := m.queue, repair := none, badWords := [] })
  | _, _ => s

/-- The source DMA recorded for the line of a word, unless a store or a drain has written the word since (03 R85). -/
def Seat.wordSource (x : Seat) (w : Nat) : Option (Nat × Nat) :=
  if x.storedWords.contains w then none else x.dmaLines.find? (fun l => l.1 == w / 64)

/-- A PARITY fault: its record is kept in the FLT_ block only, it is counted, and the work on the seat is re-run from the trick boundary (03
R85, 04 R112, 15 R416, R417). -/
def State.parityFault (s : State) (g : Nat) (v : Invocation) (f : FaultRec) (line : Nat) : State :=
  ((s.kfault v f).fltBump 0x000F0018 (holderId 7 v.tenant) 0 f.pc.toNat).rerunSeat g line

/-- A read of seat-buffer bytes: with sound parity it goes on; a bad word that DMA wrote is refetched while the context waits; any other
bad word is a PARITY fault, recorded in the FLT_ block only, and the seat's work is re-run from the trick boundary (03 R85, 04 R112,
notes/assumptions/13.md). -/
def Th.readSeat (t : Th) (s : State) (off n : Nat) (f : List Byte → State) : State :=
  let g := t.at'.seat
  let x := s.seat g
  match x.badIn off n with
  | [] => f (s.rd ((Space.seat g).key off) n)
  | w :: _ =>
    let s := s.parityEvent g t.inv.cmd
    let line := w / 64
    if (x.wordSource w).isSome then t.stall s (.parity line)
    else
      let f : FaultRec :=
        { kind := 7, ctx := t.at'.ctx, rank := t.inv.rank g, instr := BitVec.ofNat 32 t.word, pc := t.ctx.pc, addr := BitVec.ofNat 64 off }
      s.parityFault g t.inv f line

/-! ### Parity in pots (03 R85) -/

/-- A read of a range finds pot words whose parity fails: each is refetched from its T1 source, counted and recorded for its die, and the
command is marked (03 R85, R90, R92). -/
def State.potRefetch (s : State) (key n cmd : Nat) : State :=
  let bad := s.potBad.filter (fun w => decide (key < w + 4) && decide (w < key + n))
  if bad.isEmpty then s
  else
    let die := key / 2 ^ 64 - 4
    let s := ((s.bumpBy (0x00060010 + 4 * die) bad.length).audEvent 5 die 0 0).recovered cmd
    { s with potBad := s.potBad.filter (fun w => !bad.contains w) }

/-- Words that are written are sound again: parity is written with the word (03 R85). -/
def State.potWritten (s : State) (key n : Nat) : State :=
  { s with potBad := s.potBad.filter (fun w => !(decide (key < w + 4) && decide (w < key + n))) }

/-- The words a range of seat-buffer bytes touches, by byte offset. -/
def wordsOf (off n : Nat) : List Nat := if n = 0 then [] else (List.range ((off + n - 1) / 4 + 1 - off / 4)).map (fun i => 4 * (off / 4 + i))

/-- Write seat-buffer bytes: each word is written with its parity, and in a line that DMA wrote it no longer has a source (03 R85). -/
def State.writeSeat (s : State) (g off : Nat) (bs : List Byte) : State :=
  let s := s.updSeat g (fun x => { x with
    badWords := x.badWords.filter (fun w => !(decide (off ≤ w) && decide (w + 4 ≤ off + bs.length)))
    storedWords := if x.dmaLines.isEmpty then [] else dedup (wordsOf off bs.length ++ x.storedWords) })
  s.wr ((Space.seat g).key off) bs

/-- The ADDRESS fault of a scalar seat access, if any: misaligned, or beyond 2 MiB (04 R100). A seat access beyond 2 MiB is reported as
kind 3, UNMAPPED, here and in every instruction that names seat offsets: 04 R112 does not say which of the kinds 3 to 5 it is (DESIGN CHOICE,
notes/assumptions/15.md). -/
def seatFault (addr size : Nat) : Option Nat :=
  if addr % size ≠ 0 then some 5 else if addr + size > sbufBytes then some 3 else none

end Sys2Proof.Machine
end

