-- ==== Sys2Proof/Machine/Flags.lean ====
section
/-!
DEFINITION. Comparisons and predicates: the flags of the thread processor are its predicate registers (04 R95, R100).
-/
namespace Sys2Proof.Machine

/-- The comparison of CMP (04 R100). -/
def cmpHolds (op : CmpOp) (a b : Addr) : Bool :=
  match op with
  | .eq => a == b
  | .ne => a != b
  | .lt => a.slt b
  | .ltu => a.ult b
  | .ge => !a.slt b
  | .geu => !a.ult b

/-- All 32 bits of a predicate from one truth value (04 R100). -/
def allBits (b : Bool) : Word := if b then 0xFFFFFFFF else 0

/-- PAND, POR, PXOR (04 R100). -/
def predOp (op : PredOp) (a b : Word) : Word :=
  match op with
  | .pand => a &&& b
  | .por => a ||| b
  | .pxor => a ^^^ b

/-- Comparison of two lanes; a NaN compares false (04 R101). -/
def vcmpHolds (op : VCmpOp) (a b : FVal) : Bool :=
  match op with
  | .vcmpeq => a.eqv b
  | .vcmplt => a.lt b
  | .vcmple => a.le b

/-- Predicate bits of a vector comparison: enabled lanes get the comparison, other bits keep their values (04 R99,
R101). -/
def vcmpBits (op : VCmpOp) (ty : LaneTy) (guard old : Word) (a b : VReg) : Word :=
  BitVec.ofNat 32 ((List.range 32).foldr (fun i acc =>
    let bit :=
      if i < laneCount ty && bitAt guard.toNat i then
        boolNat (vcmpHolds op (laneVal ty (laneOf (laneBits ty) a i)) (laneVal ty (laneOf (laneBits ty) b i)))
      else boolNat (bitAt old.toNat i)
    bit + 2 * acc) 0)

end Sys2Proof.Machine
end

