-- ==== Sys2Proof/Machine/Scalar.lean ====
section
/-!
DEFINITION. Scalar and control instructions of the thread processor (04 R100, R102, R104).
-/
namespace Sys2Proof.Machine

/-- Every meaning ends in a next state. -/
abbrev Res := Host.Outcome State Fault Refusal

/-- ADD, SUB, AND, OR, XOR (04 R100). -/
def arith (op : ArithOp) (a b : Addr) : Addr :=
  match op with
  | .add => a + b
  | .sub => a - b
  | .and => a &&& b
  | .or => a ||| b
  | .xor => a ^^^ b

/-- SHL, SHR, SRA by a count of 0 to 63 (04 R100). -/
def shift (op : ShiftOp) (a : Addr) (n : Nat) : Addr :=
  match op with
  | .shl => a <<< n
  | .shr => a >>> n
  | .sra => a.sshiftRight n

/-- MIN, MAX signed, MINU, MAXU unsigned (04 R100, R122). -/
def minMax (op : MinMaxOp) (a b : Addr) : Addr :=
  match op with
  | .min => if b.slt a then b else a
  | .max => if a.slt b then b else a
  | .minu => if b.ult a then b else a
  | .maxu => if a.ult b then b else a

/-- ADDI, ANDI, ORI, XORI (04 R100). -/
def immArith (op : ImmOp) (a b : Addr) : Addr :=
  match op with
  | .addi => a + b
  | .andi => a &&& b
  | .ori => a ||| b
  | .xori => a ^^^ b

/-- The address of a branch `n` instruction words from the branch (04 R100). -/
def branchTo (pc : Addr) (n : Addr) : Addr := pc + 4 * n

/-- ADD, SUB, AND, OR, XOR (04 R100). -/
def execAddSubAndOrXor (i : Iss) (op : ArithOp) (d a b : BitVec 5) (s : State) : Res :=
  .next (s.scalar i (.addSubAndOrXor i op d a b) [d, a, b] (fun t s =>
    t.done s (t.ctx.ws d.toNat (arith op (t.ctx.rs a.toNat) (t.ctx.rs b.toNat)))))

/-- SHL, SHR, SRA: D ← A shifted by B[5:0] (04 R100). -/
def execShlShrSra (i : Iss) (op : ShiftOp) (d a b : BitVec 5) (s : State) : Res :=
  .next (s.scalar i (.shlShrSra i op d a b) [d, a, b] (fun t s =>
    t.done s (t.ctx.ws d.toNat (shift op (t.ctx.rs a.toNat) ((t.ctx.rs b.toNat).toNat % 64)))))

/-- MUL and MULHU: low, or unsigned high, 64 bits of A × B (04 R100). -/
def execMulMulhu (i : Iss) (high : Bool) (d a b : BitVec 5) (s : State) : Res :=
  .next (s.scalar i (.mulMulhu i high d a b) [d, a, b] (fun t s =>
    let p := (t.ctx.rs a.toNat).toNat * (t.ctx.rs b.toNat).toNat
    t.done s (t.ctx.ws d.toNat (BitVec.ofNat 64 (if high then p / 2 ^ 64 else p)))))

/-- DIVU and REMU; B = 0 gives all ones and A (04 R100). -/
def execDivuRemu (i : Iss) (rem : Bool) (d a b : BitVec 5) (s : State) : Res :=
  .next (s.scalar i (.divuRemu i rem d a b) [d, a, b] (fun t s =>
    let x := t.ctx.rs a.toNat
    let y := t.ctx.rs b.toNat
    let r := if y = 0 then (if rem then x else BitVec.allOnes 64) else if rem then x % y else x / y
    t.done s (t.ctx.ws d.toNat r)))

/-- MIN, MAX, MINU, MAXU (04 R100). -/
def execMinMaxMinuMaxu (i : Iss) (op : MinMaxOp) (d a b : BitVec 5) (s : State) : Res :=
  .next (s.scalar i (.minMaxMinuMaxu i op d a b) [d, a, b] (fun t s =>
    t.done s (t.ctx.ws d.toNat (minMax op (t.ctx.rs a.toNat) (t.ctx.rs b.toNat)))))

/-- ADDI, ANDI, ORI, XORI: D ← A op sign-extended IMM (04 R100). -/
def execAddiAndiOriXori (i : Iss) (op : ImmOp) (d a : BitVec 5) (imm : BitVec 13) (s : State) : Res :=
  .next (s.scalar i (.addiAndiOriXori i op d a imm) [d, a] (fun t s =>
    t.done s (t.ctx.ws d.toNat (immArith op (t.ctx.rs a.toNat) (imm.signExtend 64)))))

/-- SHLI, SHRI, SRAI: shift by IMM[5:0]; IMM[12:6] must be 0 (04 R100). -/
def execShliShriSrai (i : Iss) (op : ShiftOp) (d a : BitVec 5) (imm : BitVec 13) (s : State) : Res :=
  .next (s.scalar i (.shliShriSrai i op d a imm) [d, a] (fun t s =>
    t.done s (t.ctx.ws d.toNat (shift op (t.ctx.rs a.toNat) (imm.toNat % 64)))))

/-- CMP: all 32 bits of predicate D (04 R100). -/
def execCmp (i : Iss) (op : CmpOp) (d a b : BitVec 5) (s : State) : Res :=
  .next (s.scalar i (.cmp i op d a b) [a, b] (fun t s =>
    t.done s (t.ctx.wp d.toNat (allBits (cmpHolds op (t.ctx.rs a.toNat) (t.ctx.rs b.toNat))))))

/-- BR: PC ← PC + 4 × IMM (04 R100). -/
def execBr (i : Iss) (imm : BitVec 13) (s : State) : Res :=
  .next (s.scalar i (.br i imm) [] (fun t s => t.jump s t.ctx (branchTo t.ctx.pc (imm.signExtend 64))))

/-- JR: PC ← A (04 R100). -/
def execJr (i : Iss) (a : BitVec 5) (s : State) : Res :=
  .next (s.scalar i (.jr i a) [a] (fun t s => t.jump s t.ctx (t.ctx.rs a.toNat)))

/-- JAL: D ← PC + 4; PC ← A + 4 × IMM, A read before D is written (04 R100). -/
def execJal (i : Iss) (d a : BitVec 5) (imm : BitVec 13) (s : State) : Res :=
  .next (s.scalar i (.jal i d a imm) [d, a] (fun t s =>
    t.jump s (t.ctx.ws d.toNat (t.ctx.pc + 4)) (branchTo (t.ctx.rs a.toNat) (imm.signExtend 64))))

/-- PAND, POR, PXOR (04 R100). -/
def execPandPorPxor (i : Iss) (op : PredOp) (d a b : BitVec 5) (s : State) : Res :=
  .next (s.scalar i (.pandPorPxor i op d a b) [] (fun t s =>
    t.done s (t.ctx.wp d.toNat (predOp op (t.ctx.rp a.toNat) (t.ctx.rp b.toNat)))))

/-- PNOT (04 R100). -/
def execPnot (i : Iss) (d a : BitVec 5) (s : State) : Res :=
  .next (s.scalar i (.pnot i d a) [] (fun t s => t.done s (t.ctx.wp d.toNat (~~~ (t.ctx.rp a.toNat)))))

/-- PFROMS: predicate D ← scalar A[31:0]; PTOS: scalar D ← predicate A, zero-extended (04 R100). -/
def execPfromsPtos (i : Iss) (toScalar : Bool) (d a : BitVec 5) (s : State) : Res :=
  .next (s.scalar i (.pfromsPtos i toScalar d a) (if toScalar then [d] else [a]) (fun t s =>
    if toScalar then t.done s (t.ctx.ws d.toNat ((t.ctx.rp a.toNat).setWidth 64))
    else t.done s (t.ctx.wp d.toNat ((t.ctx.rs a.toNat).setWidth 32))))

/-- The control value CSRR reads; MCLK_CYCLES is a free value (04 R102, notes/assumptions/6.md). -/
def csrValue (t : Th) (n fresh : Nat) : Nat :=
  match n with
  | 0 => t.at'.ctx
  | 1 => t.inv.rank t.at'.seat
  | 2 => t.inv.seatCount
  | 3 => t.inv.hand
  | 4 => t.inv.tenant
  | 5 => t.at'.seat
  | 6 => Config.free fresh 0
  | _ => t.inv.boundaries

/-- CSRR: D ← control value IMM (04 R100, R102). -/
def execCsrr (i : Iss) (d : BitVec 5) (imm : BitVec 13) (s : State) : Res :=
  .next (s.scalar i (.csrr i d imm) [d] (fun t s =>
    t.done (if imm.toNat = 6 then s.draw else s) (t.ctx.ws d.toNat (BitVec.ofNat 64 (csrValue t imm.toNat s.fresh)))))

/-- The IDLE contexts of a seat. -/
def Seat.idleCtxs (x : Seat) : List Nat := (List.range 64).filter (fun c => (x.ctx c).mode = .idle)

/-- TSPAWN: start an IDLE context of this seat at PC = A with s1 = B; D ← its number, or all ones if none is IDLE. Which
IDLE context starts is a free value (04 R100, notes/assumptions/6.md). -/
def execTspawn (i : Iss) (d a b : BitVec 5) (s : State) : Res :=
  .next (s.scalar i (.tspawn i d a b) [d, a, b] (fun t s =>
    let idle := (s.seat i.seat).idleCtxs
    match idle with
    | [] => t.done s (t.ctx.ws d.toNat (BitVec.allOnes 64))
    | _ :: _ =>
      let c := idle.getD (Config.free s.fresh 0 % idle.length) 0
      let s := t.done s.draw (t.ctx.ws d.toNat (BitVec.ofNat 64 c))
      s.updCtx i.seat c (fun k =>
        { (k.ws 1 (t.ctx.rs b.toNat)) with mode := .running, wait := .none, pc := t.ctx.rs a.toNat })))

/-- NOP (04 R100). -/
def execNop (i : Iss) (s : State) : Res := .next (s.scalar i (.nop i) [] (fun t s => t.skip s))

/-- HALT: wait for the context's DMAs, unit issues and matrix instructions, then become IDLE (04 R104). -/
def execHalt (i : Iss) (s : State) : Res :=
  .next (s.scalar i (.halt i) [] (fun t s => t.doneWait s t.ctx .halt))

/-- LI: D ← sign-extended IMM32; LIH: D[63:32] ← IMM32 (04 R100). -/
def execLiLih (i : Iss) (high : Bool) (d : BitVec 5) (imm : Word) (s : State) : Res :=
  .next (s.scalar i (.liLih i high d imm) [d] (fun t s =>
    let old := t.ctx.rs d.toNat
    t.done s (t.ctx.ws d.toNat (if high then imm ++ old.setWidth 32 else imm.signExtend 64))))

/-- ADDL: D ← A + sign-extended IMM32 (04 R100). -/
def execAddl (i : Iss) (d a : BitVec 5) (imm : Word) (s : State) : Res :=
  .next (s.scalar i (.addl i d a imm) [d, a] (fun t s =>
    t.done s (t.ctx.ws d.toNat (t.ctx.rs a.toNat + imm.signExtend 64))))

/-- BRL: PC ← PC + 4 × IMM32 (04 R100). -/
def execBrl (i : Iss) (imm : Word) (s : State) : Res :=
  .next (s.scalar i (.brl i imm) [] (fun t s => t.jump s t.ctx (branchTo t.ctx.pc (imm.signExtend 64))))

/-- An encoding outside the table, an out-of-range register field or a nonzero reserved field gives an ILLEGAL fault
whose record holds the first word; words that decode are no such encoding, and nothing changes (04 R99, R112). -/
def execIllegalEncoding (i : Iss) (w0 w1 : Word) (s : State) : Res :=
  .next (match decodeThread i.seat i.ctx w0 w1 with
    | some _ => s
    | none => s.issue i w0.toNat 4 false false [] [] (fun t s => t.fault s 1 0))

end Sys2Proof.Machine
end

