-- ==== Sys2Proof/Machine/ThreadMem.lean ====
section
/-!
DEFINITION. Memory instructions, fences, hand barriers, DMA and unit issue of the thread processor (04 R100, R106 to
R110, R119 to R123).
-/
namespace Sys2Proof.Machine

/-- The work of an invocation must end with ABORTED_FAULT; its contexts stop at the next boundary (04 R113). -/
def State.abortInv (s : State) (n : Nat) : State := s.stopInvocation n St.aborted

/-- Note a use of the tiered blocks of a range, and that they are dirty after a store; kernel code shows in the lower half too (12 R311, 04
R124). -/
def State.touchRange (s : State) (t va len : Nat) (dirty : Bool) : State :=
  let hit (b : Nat) : Bool := decide (va / 65536 ≤ b) && decide (65536 * b < va + len)
  { s with tier := { s.tier with
    clock := s.tier.clock + 1
    blocks := updWhere (fun x => x.tenant == t && (hit x.block || (decide (2 ^ 31 ≤ x.block) && decide (va < 2 ^ 44) && hit (x.block - 2 ^ 31))))
      (fun x => { x with lastUse := s.tier.clock + 1, dirty := x.dirty || dirty }) s.tier.blocks } }

/-- Note a use of the tiered block of an address. -/
def State.touch (s : State) (t va : Nat) (dirty : Bool) : State := s.touchRange t va 1 dirty

/-- One access of a thread through the TVA to the byte ranges given, by offset from its address: a fault, a stall on an absent page or a line in
transit, an abort for a poisoned line or a rejected host request, or the key; a bad pot word it reads is refetched (03 R85, 04 R99, R114 to R118,
12 R308, R309, 17 R448). -/
def Th.accessAt (t : Th) (s : State) (acc : Access) (va : Nat) (parts : List (Nat × Nat)) (f : State → Nat → State) : State :=
  match s.xlat t.inv.tenant t.inv.stock acc va with
  | .fault k => t.fault s k va
  | .absent b => t.stall s (.page b)
  | .ok key =>
    if s.underHoming key then t.stall s .homing
    else if parts.any (fun p => !s.hostAccepts (key + p.1) p.2) then ((s.bump 0x00110014).abortInv t.inv.id)
    else if acc ≠ .store && parts.any (fun p => s.poisoned (key + p.1) p.2) then s.abortInv t.inv.id
    else
      let s := parts.foldl (fun s p =>
        if acc = .store then s.potWritten (key + p.1) p.2 else s.potRefetch (key + p.1) p.2 t.inv.cmd) s
      f (s.touch t.inv.tenant va (acc ≠ .load)) key

/-- One access of a thread to `len` bytes. -/
def Th.access (t : Th) (s : State) (acc : Access) (va len : Nat) (f : State → Nat → State) : State :=
  t.accessAt s acc va [(0, len)] f

/-- The address A + OFF × scale of a memory instruction (04 R98, R100). -/
def memAddr (t : Th) (a : BitVec 5) (off : BitVec 11) (scale : Nat) : Nat :=
  (t.ctx.rs a.toNat + off.signExtend 64 * BitVec.ofNat 64 scale).toNat

/-- LDS and STS: scalar load, zero-extended, and store, at seat offset A + OFF (04 R100). -/
def execLdsSts (i : Iss) (store : Bool) (sz : BitVec 2) (d a : BitVec 5) (off : BitVec 11) (s : State) : Res :=
  .next (s.scalar i (.ldsSts i store sz d a off) [d, a] (fun t s =>
    let n := 2 ^ sz.toNat
    let addr := memAddr t a off n
    match seatFault addr n with
    | some k => t.fault s k addr
    | none =>
      if store then t.skip (s.writeSeat i.seat addr (leBytes n (t.ctx.rs d.toNat).toNat))
      else t.readSeat s addr n (fun b => t.done s (t.ctx.ws d.toNat (BitVec.ofNat 64 (leNat b))))))

/-- LD and ST: scalar access at tenant virtual address A + OFF; a load's data arrives later (04 R96, R100, R119). -/
def execLdSt (i : Iss) (store : Bool) (sz : BitVec 2) (d a : BitVec 5) (off : BitVec 11) (s : State) : Res :=
  .next (s.scalar i (.ldSt i store sz d a off) [d, a] (fun t s =>
    let n := 2 ^ sz.toNat
    let va := memAddr t a off n
    if va % n ≠ 0 then t.fault s 5 va
    else if store then
      t.access s .store va n (fun s key => t.skip (s.storeAt i.seat key (leBytes n (t.ctx.rs d.toNat).toNat)))
    else
      t.access s .load va n (fun s key =>
        t.done s { t.ctx with loads := t.ctx.loads ++ [{ vec := false, dst := d.toNat, val := BitVec.ofNat 512 (s.rdNat key n), again := some (va, n, 0) }] })))

/-- The lanes of a vector memory access are its sixteen 32-bit lanes (notes/assumptions/15.md). -/
def enabledLanes (guard : Word) : List Nat := (List.range 16).filter (fun i => bitAt guard.toNat i)

/-- Store the enabled lanes of a register at a key: disabled lanes' bytes are not accessed (04 R99). -/
def State.storeLanes (s : State) (g key : Nat) (guard : Word) (v : VReg) : State :=
  (enabledLanes guard).foldl (fun s i => s.storeAt g (key + 4 * i) (leBytes 4 (laneOf 32 v i))) s

/-- The bytes of the enabled lanes of a vector access, by offset and length (04 R99). -/
def lanePieces (guard : Word) : List (Nat × Nat) := (enabledLanes guard).map (fun l => (4 * l, 4))

/-- VLDS and VSTS: 64-byte access at seat offset A + 64 × OFF, with guarded lanes (04 R99, R100). -/
def execVldsVsts (i : Iss) (store : Bool) (sz : BitVec 2) (d a : BitVec 5) (off : BitVec 11) (s : State) : Res :=
  .next (s.vector i (.vldsVsts i store sz d a off) [a] [d] (fun t s =>
    let addr := memAddr t a off 64
    if addr % 64 ≠ 0 then t.fault s 5 addr
    else if (enabledLanes t.guard).isEmpty then t.skip s
    else if addr + 64 > sbufBytes then t.fault s 3 addr
    else if store then
      t.skip ((enabledLanes t.guard).foldl
        (fun s l => s.writeSeat i.seat (addr + 4 * l) (leBytes 4 (laneOf 32 (t.ctx.rv d.toNat) l))) s)
    else
      match (enabledLanes t.guard).find? (fun l => !((s.seat i.seat).badIn (addr + 4 * l) 4).isEmpty) with
      | some l => t.readSeat s (addr + 4 * l) 4 (fun _ => s)
      | none =>
        t.done s (t.ctx.wv d.toNat (maskLanes .int32 t.guard (t.ctx.rv d.toNat)
          (laneOf 32 (BitVec.ofNat 512 (s.rdNat ((Space.seat i.seat).key addr) 64)))))))

/-- VLD and VST: 64-byte access at tenant virtual address A + 64 × OFF, translated once (04 R99, R100, R118). A misaligned address is a
fault whatever the guard, here and in VLDS and VSTS: 04 R99 keeps the bytes of disabled lanes from faulting, and does not say so of the address
(DESIGN CHOICE, notes/assumptions/15.md). -/
def execVldVst (i : Iss) (store : Bool) (sz : BitVec 2) (d a : BitVec 5) (off : BitVec 11) (s : State) : Res :=
  .next (s.vector i (.vldVst i store sz d a off) [a] [d] (fun t s =>
    let va := memAddr t a off 64
    if va % 64 ≠ 0 then t.fault s 5 va
    else if (enabledLanes t.guard).isEmpty then t.skip s
    else if store then
      t.accessAt s .store va (lanePieces t.guard) (fun s key => t.skip (s.storeLanes i.seat key t.guard (t.ctx.rv d.toNat)))
    else
      t.accessAt s .load va (lanePieces t.guard) (fun s key =>
        let v := maskLanes .int32 t.guard (t.ctx.rv d.toNat) (laneOf 32 (BitVec.ofNat 512 (s.rdNat key 64)))
        t.done s { t.ctx with loads := t.ctx.loads ++ [{ vec := true, dst := d.toNat, val := v, again := some (va, 64, t.guard) }] })))

/-- The value an atomic stores, if any: operands and old value of the operation's width `w` (04 R122). -/
def amoStore (op w : Nat) (old b d : Nat) : Option Nat :=
  let x : Addr := if w = 8 then BitVec.ofNat 64 old else (BitVec.ofNat 32 old).signExtend 64
  let y : Addr := if w = 8 then BitVec.ofNat 64 b else (BitVec.ofNat 32 b).signExtend 64
  let ux : Addr := BitVec.ofNat 64 (old % 2 ^ (8 * w))
  let uy : Addr := BitVec.ofNat 64 (b % 2 ^ (8 * w))
  match op with
  | 0 => some ((old + b) % 2 ^ (8 * w))
  | 1 => some ((minMax .min x y).toNat % 2 ^ (8 * w))
  | 2 => some ((minMax .max x y).toNat % 2 ^ (8 * w))
  | 3 => some (minMax .minu ux uy).toNat
  | 4 => some (minMax .maxu ux uy).toNat
  | _ => if old = d % 2 ^ (8 * w) then some (b % 2 ^ (8 * w)) else none

/-- AMO at the home controller: naturally aligned, ATOM pages only; a location under channel re-homing stalls it; FN[4] or CAS returns the
old value (04 R100, R117, R122). -/
def execAmo (i : Iss) (fn : BitVec 8) (d a b : BitVec 5) (s : State) : Res :=
  .next (s.scalar i (.amo i fn d a b) [d, a, b] (fun t s =>
    let w := if bitAt fn.toNat 3 then 8 else 4
    let va := (t.ctx.rs a.toNat).toNat
    if va % w ≠ 0 then t.fault s 5 va
    else
      t.access s .atomic va w (fun s key =>
        let old := s.rdNat key w
        let s := match amoStore (fn.toNat % 8) w old (t.ctx.rs b.toNat).toNat (t.ctx.rs d.toNat).toNat with
          | some v => s.storeAt i.seat key (leBytes w v)
          | none => s
        if bitAt fn.toNat 4 || fn.toNat % 8 = 5 then
          t.done s { t.ctx with loads := t.ctx.loads ++ [{ vec := false, dst := d.toNat, val := BitVec.ofNat 512 old }] }
        else t.skip s)))

/-- FENCE.ACQ: with commands taking effect one at a time nothing is left to order (04 R119, notes/assumptions/1.md). -/
def execFenceAcq (i : Iss) (s : State) : Res := .next (s.scalar i (.fenceAcq i) [] (fun t s => t.skip s))

/-- FENCE.REL (04 R119). -/
def execFenceRel (i : Iss) (s : State) : Res := .next (s.scalar i (.fenceRel i) [] (fun t s => t.skip s))

/-- FENCE.SYS (04 R119). -/
def execFenceSys (i : Iss) (s : State) : Res := .next (s.scalar i (.fenceSys i) [] (fun t s => t.skip s))

/-! ### Hand barriers (04 R123) -/

/-- A barrier of an invocation. -/
def Invocation.barrier (v : Invocation) (b : Nat) : Barrier :=
  v.barriers.getD b { init := false, count := 0, phase := 0, arrived := 0 }

/-- Change a barrier of an invocation. -/
def State.updBarrier (s : State) (n b : Nat) (f : Barrier → Barrier) : State :=
  s.updInv n (fun v => { v with barriers := v.barriers.modify b f })

/-- Change every context of an invocation. -/
def State.updInvCtxs (s : State) (v : Invocation) (f : Ctx → Ctx) : State :=
  v.seats.foldl (fun s g => s.updSeat g (fun x => { x with ctxs := x.ctxs.map f })) s

/-- The phase of the context's last arrival at a barrier, plus 1; 0 when that phase completed before an INIT. -/
def Ctx.arrival (k : Ctx) (b : Nat) : Option Nat := (k.arrivals.find? (fun x => x.1 == b)).map (fun x => x.2)

/-- Record an arrival of a context. -/
def Ctx.setArrival (k : Ctx) (b p : Nat) : Ctx :=
  { k with arrivals := (b, p) :: k.arrivals.filter (fun x => x.1 ≠ b) }

/-- Whether the phase recorded for an arrival has completed. -/
def arrivalOver (bar : Barrier) (p : Nat) : Bool := p == 0 || decide (p ≤ bar.phase)

/-- Count one arrival of a context; the phase completes when arrivals reach the count, and its waiters go on. -/
def State.arrive (s : State) (t : Th) (b : Nat) : State :=
  let bar := t.inv.barrier b
  let s := s.updCtx t.at'.seat t.at'.ctx (fun k => k.setArrival b (bar.phase + 1))
  if bar.arrived + 1 ≥ bar.count then
    let s := s.updBarrier t.inv.id b (fun x => { x with phase := bar.phase + 1, arrived := 0 })
    s.updInvCtxs t.inv (fun k => if k.wait = .barrier b (bar.phase + 1) then { k with wait := .none } else k)
  else s.updBarrier t.inv.id b (fun x => { x with arrived := bar.arrived + 1 })

/-- Wait for the phase of the context's last arrival; its own arrival may just have completed it. -/
def State.barrierWait (s : State) (t : Th) (b : Nat) : State :=
  let k := (s.seat t.at'.seat).ctx t.at'.ctx
  let bar := match s.inv? t.inv.id with
    | some v => v.barrier b
    | none => t.inv.barrier b
  match k.arrival b with
  | none => t.fault s 6 0
  | some p => if arrivalOver bar p then t.done s k else t.done s { k with wait := .barrier b p }

/-- HBAR SYNC: ARRIVE, then WAIT (04 R123). -/
def execHbarSync (i : Iss) (bar : BitVec 4) (s : State) : Res :=
  .next (s.scalar i (.hbarSync i bar) [] (fun t s =>
    if !(t.inv.barrier bar.toNat).init then t.fault s 6 0
    else (s.arrive t bar.toNat).barrierWait t bar.toNat))

/-- HBAR ARRIVE (04 R123). -/
def execHbarArrive (i : Iss) (bar : BitVec 4) (s : State) : Res :=
  .next (s.scalar i (.hbarArrive i bar) [] (fun t s =>
    if !(t.inv.barrier bar.toNat).init then t.fault s 6 0
    else
      let s := s.arrive t bar.toNat
      t.done s ((s.seat i.seat).ctx i.ctx)))

/-- HBAR WAIT: without an arrival of the context it is a BARRIER fault (04 R123). -/
def execHbarWait (i : Iss) (bar : BitVec 4) (s : State) : Res :=
  .next (s.scalar i (.hbarWait i bar) [] (fun t s => s.barrierWait t bar.toNat))

/-- HBAR INIT: the count is scalar A, 1 to 64 × seat count, and the phase 0; it faults while a phase has arrivals
(04 R123). -/
def execHbarInit (i : Iss) (bar : BitVec 4) (a : BitVec 5) (s : State) : Res :=
  .next (s.scalar i (.hbarInit i bar a) [a] (fun t s =>
    let n := (t.ctx.rs a.toNat).toNat
    let x := t.inv.barrier bar.toNat
    if x.arrived > 0 || n = 0 || n > 64 * t.inv.seatCount then t.fault s 6 0
    else
      let s := s.updBarrier t.inv.id bar.toNat (fun _ => { init := true, count := n, phase := 0, arrived := 0 })
      let s := s.updInvCtxs t.inv (fun k => if (k.arrival bar.toNat).isSome then k.setArrival bar.toNat 0 else k)
      t.done s ((s.seat i.seat).ctx i.ctx)))

/-! ### DMA (04 R106, R107) -/

/-- The DMA descriptor's rules (04 R106); the own-die rule of DECOMP needs the translation. -/
def dmaFieldsOk (b : List Byte) : Bool :=
  let len := fieldOf b 0x10 4
  let kind := fieldOf b 0x14 1
  let fl := fieldOf b 0x15 1
  let zero := bitAt fl 0
  decide (64 ≤ len) && decide (len ≤ 16777216) && len % 64 == 0 && decide (kind % 16 < 2) && decide (kind / 16 < 2)
    && decide (fl < 4) && zeroRange b 0x16 10 && (zero || fieldOf b 0 8 % 64 == 0) && fieldOf b 8 8 % 64 == 0
    && (!bitAt fl 1 || (len % 65536 == 0 && kind / 16 == 1))

/-- A descriptor's fields. -/
def dmaOf (ticket : Nat) (b : List Byte) : Dma :=
  { ticket := ticket, src := fieldOf b 0 8, dst := fieldOf b 8 8, length := fieldOf b 0x10 4,
    srcAddr := fieldOf b 0x14 1 % 16 = 1, dstAddr := fieldOf b 0x14 1 / 16 = 1, zero := bitAt (fieldOf b 0x15 1) 0,
    decomp := bitAt (fieldOf b 0x15 1) 1 }

/-- Whether every page of a range is a pot window of a die. -/
def State.inPot (s : State) (t die va len : Nat) : Bool :=
  (List.range ((va + len + 65535) / 65536 - va / 65536)).all (fun i =>
    match s.walk t (max va ((va / 65536 + i) * 65536)) 3 with
    | some (e, _) => bits e.toNat 7 6 == 2 && bits e.toNat 10 9 == die
    | none => false)

/-- Where each of `n` consecutive stored blocks begins from an offset on, and where the last ends, by the payload lengths that `len` reads in their
headers: a block is at most one stored RAW (12 R314, R316). -/
def storedStarts (len : Nat → Nat) : Nat → Nat → List Nat → List Nat × Nat
  | 0, off, acc => (acc, off)
  | n + 1, off, acc => storedStarts len n (off + roundUp (64 + min (len off) 65536) 64) (acc ++ [off])

/-- What stands against reading the header of the first of `n` stored blocks that cannot be read, if one cannot. -/
def State.headerTrouble (s : State) (t : Nat) (stock : Bool) (src : Nat) : Nat → Nat → Option (Xlat × Nat)
  | 0, _ => none
  | n + 1, off =>
    match s.rangeTroubleAt t stock .load (src + off) 64 with
    | some e => some e
    | none => s.headerTrouble t stock src n (off + roundUp (64 + min (leNat (s.rdTva t stock (src + off + 4) 4)) 65536) 64)

/-- The bytes of a DMA's source from an offset on. -/
def State.srcBytes (s : State) (t : Nat) (stock : Bool) (g : Nat) (m : Dma) (off n : Nat) : List Byte :=
  if m.srcAddr then s.rdTva t stock (m.src + off) n else s.rd ((Space.seat g).key (m.src + off)) n

/-- Where the stored blocks a DMA expands begin in its source, and where the last ends (04 R106). -/
def State.srcBlocks (s : State) (t : Nat) (stock : Bool) (g : Nat) (m : Dma) : List Nat × Nat :=
  storedStarts (fun off => leNat (s.srcBytes t stock g m (off + 4) 4)) (m.length / 65536) 0 []

/-- Bytes a DMA reads at its source: with DECOMP the stored blocks it expands (04 R106). -/
def State.srcLen (s : State) (t : Nat) (stock : Bool) (g : Nat) (m : Dma) : Nat := if m.decomp then (s.srcBlocks t stock g m).2 else m.length

/-- What stands against a DMA: a fault kind or an absent block, with the address of the page or the seat offset (04 R106, R112, R117). -/
def State.dmaTrouble (s : State) (t : Nat) (stock : Bool) (g : Nat) (m : Dma) : Option (Xlat × Nat) :=
  let side (addr : Bool) (acc : Access) (x len : Nat) : Option (Xlat × Nat) :=
    if addr then s.rangeTroubleAt t stock acc x len
    else if x + len > sbufBytes then some (.fault 3, x) else none
  let headers := if m.decomp && m.srcAddr && !m.zero then s.headerTrouble t stock m.src (m.length / 65536) 0 else none
  match headers, (if m.zero then none else side m.srcAddr .load m.src (s.srcLen t stock g m)) with
  | some e, _ => some e
  | none, some e => some e
  | none, none => side m.dstAddr .store m.dst m.length

/-- What stands against a DMA when its thread issues it. -/
def Th.dmaTrouble (t : Th) (s : State) (m : Dma) : Option (Xlat × Nat) := s.dmaTrouble t.inv.tenant t.inv.stock t.at'.seat m

/-- DMA: copy and check the descriptor at seat A, start the transfer, D ← ticket (04 R100, R106, R107). -/
def execDma (i : Iss) (d a : BitVec 5) (s : State) : Res :=
  .next (s.scalar i (.dma i d a) [d, a] (fun t s =>
    let at' := (t.ctx.rs a.toNat).toNat
    if at' % 32 ≠ 0 then t.fault s 2 0
    else if at' + 32 > sbufBytes then t.fault s 3 at'
    else if t.ctx.dmas.length ≥ 16 || sumNat ((s.seat i.seat).ctxs.map (fun k => k.dmas.length)) ≥ 64 then t.stall s .slot
    else
      t.readSeat s at' 32 (fun b =>
        let ticket := t.ctx.nextDma % 65536
        let m := dmaOf ticket b
        if !dmaFieldsOk b then t.fault s 2 0
        else
          match t.dmaTrouble s m with
          | some (.fault k, x) => t.fault s k x
          | some (.absent blk, _) => t.stall s (.page blk)
          | _ =>
            if m.decomp && !s.inPot t.inv.tenant (i.seat / 88) m.dst m.length then t.fault s 2 0
            else
              t.done s ({ t.ctx with nextDma := ticket + 1, dmas := t.ctx.dmas ++ [m] }.ws d.toNat
                (BitVec.ofNat 64 ticket)))))

/-- The stored block that an object's media copy holds for an address in T1, with where it lies in the object: a block of an object that keeps its
weights encoded (12 R316, R317). -/
def State.mediaBlock (s : State) (t va : Nat) : Option Stored :=
  let m := s.models.find? (fun m => m.tenant == t && decide (m.va.toNat ≤ va) && decide (va < m.va.toNat + m.bytes.length))
  m.bind (fun m => (s.flash.extents.find? (fun e => (match e.owner with
      | .object k n o _ => k == m.kind && n == m.number && m.va.toNat + o == va
      | _ => false) && !e.lpns.any (fun l => s.flash.map.contains (l, PageAt.lost)))).map (fun e => e.stored))

/-- What expanding one stored block came to: its bytes from T1, its bytes from its media copy with that copy, or no bytes (12 R314, R317). -/
def State.expandAt (s : State) (v : Invocation) (g : Nat) (m : Dma) (off : Nat) : Option (List Byte × Option Stored) :=
  let b := s.srcBytes v.tenant v.stock g m off (64 + min (leNat (s.srcBytes v.tenant v.stock g m (off + 4) 4)) 65536)
  let copy := if m.srcAddr then s.mediaBlock v.tenant (m.src + off) else none
  let named := fieldOf b 0x18 2 == v.tenant && (match copy with | some x => fieldOf x.header 8 8 == fieldOf b 8 8 | none => true)
  match (if named then blockExpand b else none) with
  | some d => some (d, none)
  | none => copy.map (fun x => (x.data, some x))

/-- The bytes a DMA moves, read when it completes, with the blocks whose media copy was used, by their offset in the source; none when its source
cannot be used. -/
def State.dmaBytes (s : State) (v : Invocation) (g : Nat) (m : Dma) : Option (List Byte × List (Nat × Stored)) :=
  if m.zero then some (List.replicate m.length 0, [])
  else if m.decomp then
    (s.srcBlocks v.tenant v.stock g m).1.foldl (fun (acc : Option (List Byte × List (Nat × Stored))) off =>
      acc.bind (fun a => (s.expandAt v g m off).map (fun x =>
        (a.1 ++ x.1, a.2 ++ (match x.2 with | some c => [(off, c)] | none => []))))) (some ([], []))
  else some (s.srcBytes v.tenant v.stock g m 0 m.length, [])

/-- A block whose expansion failed is put back in T1 from its media copy (12 R308, R317). -/
def State.refetchBlock (s : State) (t va : Nat) (x : Stored) : State :=
  (s.bump 0x000D001C).wrRange t true .load va x.bytes

/-- The keys of the lines of a range of tenant virtual addresses. -/
def State.lineKeys (s : State) (v : Invocation) (acc : Access) (x len : Nat) : List Nat :=
  (List.range (len / 64)).map (fun i => s.keyOf v.tenant v.stock acc (x + 64 * i))

/-- The keys of the lines a DMA reads at addresses. -/
def State.dmaSources (s : State) (v : Invocation) (g : Nat) (m : Dma) : List Nat :=
  if m.zero || !m.srcAddr then [] else s.lineKeys v .load m.src (s.srcLen v.tenant v.stock g m)

/-- The keys of the lines a DMA writes at addresses. -/
def State.dmaTargets (s : State) (v : Invocation) (m : Dma) : List Nat := if m.dstAddr then s.lineKeys v .store m.dst m.length else []

/-- Whether a DMA needs a line in transit (04 R118, 12 R309). -/
def State.dmaHoming (s : State) (v : Invocation) (g : Nat) (m : Dma) : Bool :=
  (s.dmaSources v g m ++ s.dmaTargets v m).any s.underHoming

/-- Whether a DMA needs a host page the host rejects (17 R448). -/
def State.dmaRejected (s : State) (v : Invocation) (g : Nat) (m : Dma) : Bool :=
  (s.dmaSources v g m ++ s.dmaTargets v m).any (fun k => !s.hostAccepts k 64)

/-- Whether a DMA reads a poisoned line (12 R308). -/
def State.dmaPoisoned (s : State) (v : Invocation) (g : Nat) (m : Dma) : Bool := (s.dmaSources v g m).any (fun k => s.poisoned k 64)

/-- Words of the seat buffer that a DMA reads and whose parity fails (03 R85). -/
def State.dmaBadWords (s : State) (v : Invocation) (g : Nat) (m : Dma) : List Nat :=
  if m.zero || m.srcAddr then [] else (s.seat g).badIn m.src (s.srcLen v.tenant v.stock g m)

/-- The lines DMA wrote in a seat buffer, each with the key of its source. A ZERO DMA has no source that could be read again: its words
count as words without a source (03 R85; DESIGN CHOICE, notes/assumptions/13.md). -/
def State.dmaLineMarks (s : State) (v : Invocation) (g : Nat) (m : Dma) : List (Nat × Nat) :=
  if m.zero then []
  else (List.range (m.length / 64)).map (fun i =>
    (m.dst / 64 + i, if m.srcAddr then s.keyOf v.tenant v.stock .load (m.src + 64 * i) else (Space.seat g).key (m.src + 64 * i)))

/-- The 16 words of a line, each read from the source unless something else has written it since DMA did (03 R85). -/
def State.lineWords (s : State) (g line src : Nat) : List Byte :=
  (List.range 16).flatMap (fun i =>
    s.rd (if (s.seat g).storedWords.contains (64 * line + 4 * i) then (Space.seat g).key (64 * line + 4 * i) else src + 4 * i) 4)

/-- Put back a seat-buffer line from the source DMA recorded for it: the refetch counts as a step-1 repair (03 R85, R92). -/
def State.refetchLine (s : State) (g line src : Nat) : State :=
  let s := s.wr ((Space.seat g).key (64 * line)) (s.lineWords g line src)
  let s := s.updSeat g (fun y => { y with
    badWords := y.badWords.filter (fun w => w / 64 ≠ line || y.storedWords.contains w)
    ctxs := y.ctxs.map (fun k => if k.wait = .parity line then { k with wait := .none } else k) })
  s.bump (audSeat g 0x04)

/-- A DMA or the array reads a bad word of a seat's buffer: a line DMA wrote is refetched, and the read repeats; otherwise it is a PARITY
fault of the context whose work reads it. The record of a fault that no instruction's issue takes has the context's next instruction: INSTR is
a free value (03 R85, 04 R112, notes/assumptions/13.md). -/
def State.engineParity (s : State) (g ctx : Nat) (v : Invocation) (w : Nat) : State :=
  let s := s.parityEvent g v.cmd
  match (s.seat g).wordSource w with
  | some l => s.refetchLine g (w / 64) l.2
  | none =>
    let f : FaultRec :=
      { kind := 7, ctx := ctx, rank := v.rank g, instr := BitVec.ofNat 32 (Config.free s.fresh 0), pc := ((s.seat g).ctx ctx).pc,
        addr := BitVec.ofNat 64 w }
    s.draw.parityFault g v f (w / 64)

/-- An outstanding DMA finishes: its bytes are in place, its ticket is released, waiters go on. A T1 page that has left since the issue, or a line
in transit, is waited for (04 R117, R118). A block whose expansion does not pass its checks is read again, from T1 and then from its media copy;
`crcBad`: a mismatch that the second reading of T1 does not show (04 R107, 12 R314, R317). -/
def execDmaComplete (seat ctx ticket : Nat) (crcBad : Bool) (s : State) : Res :=
  .next (
    let x := s.seat seat
    match x.inv, (x.ctx ctx).dmas.find? (fun m => m.ticket == ticket) with
    | some n, some m =>
      match s.inv? n with
      | none => s
      | some v =>
        match s.dmaTrouble v.tenant v.stock seat m, s.dmaBadWords v seat m with
        | some (.absent _, _), _ => s
        | _, w :: _ => s.engineParity seat ctx v w
        | _, [] =>
          if s.dmaHoming v seat m then s
          else
            let s := s.updCtx seat ctx (fun k => { k with dmas := k.dmas.filter (fun y => y.ticket ≠ ticket) })
            let s := if m.decomp && crcBad then (s.bump 0x000D0034).recovered v.cmd else s
            if s.dmaRejected v seat m then ((s.bump 0x00110014).abortInv n).settleSeat seat
            else if s.dmaPoisoned v seat m then (s.abortInv n).settleSeat seat
            else
              match s.dmaBytes v seat m with
              | none => ((s.bump 0x000D0034).abortInv n).settleSeat seat
              | some (b, copies) =>
                let marks := s.dmaLineMarks v seat m
                let s := copies.foldl (fun s c => ((s.bump 0x000D0034).recovered v.cmd).refetchBlock v.tenant (m.src + c.1) c.2) s
                let s := (s.dmaSources v seat m).foldl (fun s k => s.potRefetch k 64 v.cmd) s
                let s := if m.srcAddr && !m.zero then s.touchRange v.tenant m.src (s.srcLen v.tenant v.stock seat m) false else s
                let s := if m.dstAddr then
                    ((s.dmaTargets v m).foldl (fun s k => s.potWritten k 64) (s.wrTva v.tenant v.stock m.dst b)).touchRange v.tenant m.dst m.length true
                  else (s.writeSeat seat m.dst b).updSeat seat (fun y => { y with
                    dmaLines := marks ++ y.dmaLines.filter (fun l => !(decide (m.dst / 64 ≤ l.1) && decide (l.1 < (m.dst + m.length) / 64)))
                    storedWords := y.storedWords.filter (fun w => !(decide (m.dst ≤ w) && decide (w < m.dst + m.length))) })
                s.settleSeat seat
    | _, _ => s)

/-- DWAIT: wait for the DMA with ticket A, or for all of the context's DMAs if A is s0 (04 R100, R107). -/
def execDwait (i : Iss) (a : BitVec 5) (s : State) : Res :=
  .next (s.scalar i (.dwait i a) [a] (fun t s =>
    t.doneWait s t.ctx (.dma (if a.toNat = 0 then none else some (t.ctx.rs a.toNat).toNat))))

/-- DTEST: predicate D ← all ones if ticket A has completed, else 0 (04 R100, R107). For a ticket that was never issued the manual says
only that it returns at once: the model answers all ones, as for a completed one (DESIGN CHOICE, notes/assumptions/15.md). -/
def execDtest (i : Iss) (d a : BitVec 5) (s : State) : Res :=
  .next (s.scalar i (.dtest i d a) [a] (fun t s =>
    t.done s (t.ctx.wp d.toNat (allBits (!has (fun m => m.ticket == (t.ctx.rs a.toNat).toNat) t.ctx.dmas)))))

/-! ### Unit issue (04 R109, R110) -/

/-- The bit of MOD_UNIT_PRESENT a unit issue needs: SEARCH, MELD, TOKENIZE, DETOKENIZE, GRAMMAR, TIER, GATHER (00 R8). -/
def unitBit : Nat → Nat
  | 1 => 4 | 2 => 6 | 3 => 9 | 4 => 9 | 5 => 10 | 6 => 13 | _ => 12

/-- The highest OP of a unit (04 R111). -/
def unitOps : Nat → Nat
  | 2 => 3 | 5 => 3 | 6 => 2 | 7 => 2 | _ => 1

/-- UISSUE: copy the descriptor at seat A, check its header, queue it; D ← ticket. An absent unit completes the issue
with UNIT_ABSENT, and an OP the unit does not have with BAD_PARAM (04 R100, R109, R110, R111). Which fault a descriptor off 32 bytes gives (DESCRIPTOR) and which a DONE off 16 bytes gives
(ALIGNMENT) is not stated (DESIGN CHOICE, notes/assumptions/15.md). -/
def execUissue (i : Iss) (d a : BitVec 5) (s : State) : Res :=
  .next (s.scalar i (.uissue i d a) [d, a] (fun t s =>
    let at' := (t.ctx.rs a.toNat).toNat
    if at' % 32 ≠ 0 then t.fault s 2 0
    else if at' + 32 > sbufBytes then t.fault s 3 at'
    else if t.ctx.units.length ≥ 32 then t.stall s .slot
    else
      t.readSeat s at' 32 (fun h =>
        let unit := fieldOf h 0 1
        let len := fieldOf h 4 4
        let done := fieldOf h 8 8
        if unit = 0 || unit > 7 || len > 224 || len % 8 ≠ 0 || fieldOf h 2 2 ≠ 0 || fieldOf h 0x18 8 ≠ 0 then t.fault s 2 0
        else if at' + 32 + len > sbufBytes then t.fault s 3 at'
        else if done % 16 ≠ 0 then t.fault s 5 done
        else
          t.access s .store done 16 (fun s _ =>
            t.readSeat s (at' + 32) len (fun body =>
              let ticket := t.ctx.nextUnit % 65536
              let key : IssueKey := { seat := i.seat, ctx := i.ctx, ticket := ticket }
              let u : UnitIssue :=
                { key := key, tenant := t.inv.tenant, stock := t.inv.stock, unit := unit, op := fieldOf h 1 1, body := body,
                  done := BitVec.ofNat 64 done, tag := BitVec.ofNat 64 (fieldOf h 0x10 8), recovered := false, begun := false }
              let s := t.done s ({ t.ctx with nextUnit := ticket + 1, units := t.ctx.units ++ [ticket] }.ws d.toNat
                (BitVec.ofNat 64 ticket))
              let s := { s with issues := s.issues ++ [u] }
              if !s.fitted (unitBit unit) || (unit ≤ 2 && (s.flt.sLost || s.unitOut (unitBit unit))) then s.finishIssue key St.unitAbsent 0
              else if s.unitOut (unitBit unit) then s.finishIssue key St.aborted 0
              else if u.op < 1 || u.op > unitOps unit then s.finishIssue key St.badParam 0 else s)))))

/-- UWAIT: as DWAIT for unit issues (04 R100, R121). -/
def execUwait (i : Iss) (a : BitVec 5) (s : State) : Res :=
  .next (s.scalar i (.uwait i a) [a] (fun t s =>
    t.doneWait s t.ctx (.unit (if a.toNat = 0 then none else some (t.ctx.rs a.toNat).toNat))))

/-- UTEST: as DTEST for unit issues, a ticket never issued included (04 R100; DESIGN CHOICE, notes/assumptions/15.md). -/
def execUtest (i : Iss) (d a : BitVec 5) (s : State) : Res :=
  .next (s.scalar i (.utest i d a) [a] (fun t s =>
    t.done s (t.ctx.wp d.toNat (allBits (!t.ctx.units.contains (t.ctx.rs a.toNat).toNat)))))

/-! ### Data that arrives -/

/-- The data of the oldest outstanding TVA load or atomic of a context arrives in its register (04 R96). -/
def execTvaLoadData (seat ctx : Nat) (s : State) : Res :=
  .next (match ((s.seat seat).ctx ctx).loads with
    | [] => s
    | l :: rest =>
      s.updCtx seat ctx (fun k =>
        let k := { k with loads := rest }
        if l.vec then k.wv l.dst l.val else k.ws l.dst (l.val.setWidth 64)))

/-- A TVA load in flight when its seat stopped is issued again; an atomic keeps its value, as does a load that cannot be read at once (14 R365). -/
def State.loadAgain (s : State) (t : Nat) (stock : Bool) (l : Load) : Load :=
  match l.again with
  | none => l
  | some (va, n, guard) =>
    match s.xlat t stock .load va with
    | .ok key =>
      if s.underHoming key || s.poisoned key n || !s.hostAccepts key n then l
      else { l with val := if l.vec then maskLanes .int32 guard l.val (laneOf 32 (BitVec.ofNat 512 (s.rdNat key 64))) else BitVec.ofNat 512 (s.rdNat key n) }
    | _ => l

/-- The refetch of a seat-buffer line arrives from the source DMA recorded; the load or tile that read it is repeated
and the event counts as a step-1 repair (03 R85, R92). -/
def execParityRefetchDone (seat line : Nat) (s : State) : Res :=
  .next (
    let x := s.seat seat
    match x.dmaLines.find? (fun l => l.1 == line) with
    | none => s
    | some (_, src) =>
      if ((x.badIn (64 * line) 64).filter (fun w => !x.storedWords.contains w)).isEmpty then s else s.refetchLine seat line src)

end Sys2Proof.Machine
end

