-- ==== Sys2Proof/Machine/Matrix.lean ====
section
/-!
DEFINITION. The matrix array: stream descriptors, runs, drains, the audit and its repairs, and RELAYOUT (02 R33 to R50,
03 R66 to R84, 04 R100, R105, R108).
-/
namespace Sys2Proof.Machine

/-! ### Formats and operands (02 R36 to R41, 03 R64) -/

/-- What a format code stands for: element width, floating format or none for an integer, and MX (02 R39). -/
structure OpFmt where
  width : Nat
  fmt : Option Fmt
  mx : Bool
  /-- MXINT8 elements carry a factor 2^-6 (03 R63). -/
  int8mx : Bool
  deriving DecidableEq, Repr

/-- The format table of 02 R39; none for a reserved code. -/
def opFmt : Nat → Option OpFmt
  | 0x00 => some ⟨8, some .e4m3, false, false⟩
  | 0x01 => some ⟨8, some .e5m2, false, false⟩
  | 0x02 => some ⟨8, some .e4m3, true, false⟩
  | 0x03 => some ⟨8, some .e5m2, true, false⟩
  | 0x04 => some ⟨6, some .e3m2, true, false⟩
  | 0x05 => some ⟨6, some .e2m3, true, false⟩
  | 0x06 => some ⟨4, some .e2m1, true, false⟩
  | 0x07 => some ⟨8, none, true, true⟩
  | 0x08 => some ⟨8, none, false, false⟩
  | 0x09 => some ⟨4, none, false, false⟩
  | 0x0A => some ⟨16, some .bf16, false, false⟩
  | 0x0B => some ⟨16, some .fp16, false, false⟩
  | 0x0C => some ⟨4, some .e2m1, false, false⟩
  | _ => none

/-- Whether a format is one of the integer group of 02 R37. -/
def OpFmt.integer (f : OpFmt) : Bool := f.fmt.isNone && !f.mx

/-- The value of an element before its block scale (03 R63). -/
def OpFmt.value (f : OpFmt) (w : Nat) : FVal :=
  match f.fmt with
  | some g => g.decode w
  | none =>
    let n := signed f.width w
    if f.int8mx then .num (n < 0) n.natAbs (-6) else FVal.ofInt n

/-- The stream descriptor of 64 bytes (02 R38). -/
def descOf (b : List Byte) : StreamDesc :=
  { aBase := fieldOf b 0 4, bBase := fieldOf b 4 4, aScale := fieldOf b 8 4, bScale := fieldOf b 0xC 4, k := fieldOf b 0x10 4,
    aStride := fieldOf b 0x14 2, bStride := fieldOf b 0x16 2, aFmt := fieldOf b 0x18 1, bFmt := fieldOf b 0x19 1,
    m := fieldOf b 0x1A 1, n := fieldOf b 0x1B 1, cont := bitAt (fieldOf b 0x1C 4) 0,
    rowValid := BitVec.ofNat 64 (fieldOf b 0x20 8), colValid := BitVec.ofNat 64 (fieldOf b 0x28 8) }

/-- Pitch of a scale plane (02 R40). -/
def scalePitch (k : Nat) : Nat := roundUp (ceilDiv k 32) 64

/-- The end of an operand of `rows` rows (02 R40, R41). -/
def operandEnd (base stride rows w k : Nat) : Nat := base + (rows - 1) * stride * 64 + packedLen w k

/-- The last run a CONTINUE would continue: the newest queued, or the newest in a set (02 R41, R42). -/
def Seat.lastRun (x : Seat) : Option Run :=
  match x.queue.getLast? with
  | some r => some r
  | none => (x.sets.getLast?).bind (fun t => t.runs.getLast?)

/-- Whether MRUN may start a descriptor (02 R41). The list of 02 R41 is taken as whole: a scale base off 64 bytes, a stride above 2,048
and a nonzero scale base of a format without scales, which 02 R38 excludes and 02 R41 does not list, do not stop a run (DESIGN CHOICE,
notes/assumptions/39.md). -/
def descOk (x : Seat) (b : List Byte) : Bool :=
  let d := descOf b
  match opFmt d.aFmt, opFmt d.bFmt with
  | some fa, some fb =>
    let okScale (f : OpFmt) (sc rows : Nat) : Bool :=
      !f.mx || (d.k % 32 == 0 && sc != 0
        && decide (sc + (rows - 1) * scalePitch d.k + ceilDiv d.k 32 ≤ sbufBytes))
    decide (1 ≤ d.m) && decide (d.m ≤ 64) && decide (1 ≤ d.n) && decide (d.n ≤ 64) && decide (1 ≤ d.k)
      && decide (d.k ≤ 65535) && d.aBase % 64 == 0 && d.bBase % 64 == 0
      && decide (operandEnd d.aBase d.aStride d.m fa.width d.k ≤ sbufBytes)
      && decide (operandEnd d.bBase d.bStride d.n fb.width d.k ≤ sbufBytes)
      && okScale fa d.aScale d.m && okScale fb d.bScale d.n && fa.integer == fb.integer
      && decide (fieldOf b 0x1C 4 < 2) && zeroRange b 0x30 16
      && (!d.cont || match x.lastRun with
        | some r => r.desc.m == d.m && r.desc.n == d.n && r.desc.aFmt == d.aFmt && r.desc.bFmt == d.bFmt
        | none => false)
  | _, _ => false

/-- The values of one operand row, block scales applied (02 R40, 03 R64). -/
def State.operandRow (s : State) (g base stride sc fmtCode k r : Nat) : List FVal :=
  match opFmt fmtCode with
  | none => []
  | some f =>
    let row := s.rd ((Space.seat g).key (base + r * stride * 64)) (packedLen f.width k)
    let elems := (List.range k).map (fun j => f.value (packedElem f.width row j))
    if f.mx then
      let plane := s.rd ((Space.seat g).key (sc + r * scalePitch k)) (ceilDiv k 32)
      (elems.zip (List.range k)).map (fun x => x.1.scale ((plane.getD (x.2 / 32) 0).toNat))
    else elems

/-- A run with its operands as they stand: empty rows have no values (02 R43, 04 R120). -/
def State.runOf (s : State) (g ctx : Nat) (d : StreamDesc) : Run :=
  { desc := d, ctx := ctx
    a := (List.range d.m).map (fun r =>
      if bitAt d.rowValid.toNat r then s.operandRow g d.aBase d.aStride d.aScale d.aFmt d.k r else [])
    b := (List.range d.n).map (fun r =>
      if bitAt d.colValid.toNat r then s.operandRow g d.bBase d.bStride d.bScale d.bFmt d.k r else [])
    tolShift := s.audCtrl.tolShift }

/-- Steps of a run: the slower class of its operands (02 R36, R37). -/
def StreamDesc.steps (d : StreamDesc) : Nat :=
  let of (c : Nat) : Nat :=
    match opFmt c with
    | some f => if f.width = 16 then 4 * d.k else if f.width = 4 then ceilDiv d.k 2 else d.k
    | none => 0
  max (of d.aFmt) (of d.bFmt)

/-- Tiles that hold or will need an accumulator set (02 R34). -/
def Seat.tilesInUse (x : Seat) : Nat :=
  x.sets.length + (x.queue.filter (fun r => !r.desc.cont)).length + boolNat x.repair.isSome

/-- MSTREAM: the context's stream descriptor pointer (04 R100). -/
def execMstream (i : Iss) (a : BitVec 5) (s : State) : Res :=
  .next (s.scalar i (.mstream i a) [a] (fun t s => t.done s { t.ctx with stream := some (t.ctx.rs a.toNat).toNat }))

/-- The first range of a run's operands or scale planes whose parity fails (03 R85). -/
def Seat.badOperand (x : Seat) (d : StreamDesc) : Option (Nat × Nat) :=
  let w (c : Nat) : Nat := match opFmt c with | some f => f.width | none => 8
  let mx (c : Nat) : Bool := match opFmt c with | some f => f.mx | none => false
  let side (base stride sc fmt rows : Nat) : List (Nat × Nat) :=
    (List.range rows).map (fun r => (base + r * stride * 64, packedLen (w fmt) d.k))
      ++ (if mx fmt then (List.range rows).map (fun r => (sc + r * scalePitch d.k, ceilDiv d.k 32)) else [])
  let rows := side d.aBase d.aStride d.aScale d.aFmt d.m ++ side d.bBase d.bStride d.bScale d.bFmt d.n
  rows.find? (fun r => !(x.badIn r.1 r.2).isEmpty)

/-- MRUN: check the descriptor and queue the run with its operands, behind earlier matrix instructions that wait; a third tile waits for a
free set; no MSTREAM in the invocation, or a bad descriptor, is a DESCRIPTOR fault (02 R34, R35, R41, 04 R100, R104). -/
def execMrun (i : Iss) (s : State) : Res :=
  .next (s.scalar i (.mrun i) [] (fun t s => t.inTurn s false .slot (fun t s turn =>
    let x := s.seat i.seat
    match t.ctx.stream with
    | none => t.fault s 2 0
    | some p =>
      if p % 64 ≠ 0 then t.fault s 2 0
      else if p + 64 > sbufBytes then t.fault s 3 p
      else
        t.readSeat s p 64 (fun b =>
          let d := descOf b
          if !descOk x b then t.fault s 2 0
          else if !d.cont && x.tilesInUse ≥ 2 then t.queueUp s turn false .slot
          else
            match (if x.badWords.isEmpty then none else x.badOperand d) with
            | some (off, n) => t.readSeat s off n (fun _ => s)
            | none =>
              let r := s.runOf i.seat i.ctx d
              (t.skip s).updSeat i.seat (fun y => { y with queue := y.queue ++ [r] })))))

/-! ### Runs (02 R42 to R45, R48, R54, R58) -/

/-- Rows valid in some run of a tile. -/
def Tile.validRows (t : Tile) : List Nat :=
  (List.range 64).filter (fun i => t.runs.any (fun r => !(r.a.getD i []).isEmpty))

/-- Columns valid in some run of a tile. -/
def Tile.validCols (t : Tile) : List Nat :=
  (List.range 64).filter (fun j => t.runs.any (fun r => !(r.b.getD j []).isEmpty))

/-- Whether the product of two operands is gated: one is zero and the other finite (02 R54). -/
def gatedPair (a b : FVal) : Bool := (a.isZero && b.isFin) || (b.isZero && a.isFin)

/-- Gated steps of one valid cell (02 R54): for 4-bit operands a step is gated when both its products are. -/
def gatedCell (steps k : Nat) (a b : List FVal) : Nat :=
  let g := (a.zip b).map (fun x => gatedPair x.1 x.2)
  if steps = k then (g.filter id).length
  else if steps = 4 * k then 4 * (g.filter id).length
  else ((chunks 2 k g).filter (fun c => c.all id)).length

/-- Gated cell-steps of a run over the 64 × 64 array (02 R43, R54). -/
def Run.gated (r : Run) : Nat :=
  let st := r.desc.steps
  let rows := r.a.filter (fun x => !x.isEmpty)
  let cols := r.b.filter (fun x => !x.isEmpty)
  (4096 - rows.length * cols.length) * st
    + sumNat (rows.flatMap (fun a => cols.map (fun b => gatedCell st r.desc.k a b)))

/-- Bank groups a range lies in (02 R47, R48). -/
def groupsOf (lo hi : Nat) : List Nat := (List.range 4).filter (fun g => decide (lo < (g + 1) * 524288) && decide (g * 524288 < hi))

/-- Bank groups of operand A and of operand B of a run; scale planes have a port of their own (02 R48). -/
def StreamDesc.groups (d : StreamDesc) : List Nat × List Nat :=
  let w (c : Nat) : Nat := match opFmt c with | some f => f.width | none => 8
  (groupsOf d.aBase (operandEnd d.aBase d.aStride d.m (w d.aFmt) d.k), groupsOf d.bBase (operandEnd d.bBase d.bStride d.n (w d.bFmt) d.k))

/-- Whether operands A and B of a run share a bank group, which halves the streaming rate (02 R48). -/
def StreamDesc.shareGroup (d : StreamDesc) : Bool := d.groups.1.any d.groups.2.contains

/-- Whether the target of the previous tile's drain lies in a group of A or B, so that drain cycles cost streaming cycles (02 R48). -/
def ArrayTail.clashes (x : ArrayTail) (d : StreamDesc) : Bool :=
  match x.target with
  | some r => (groupsOf r.1 r.2).any (fun g => d.groups.1.contains g || d.groups.2.contains g)
  | none => false

/-- Whether a run can follow the last one without a restart: there is a last run of the same M, N, A_FMT and B_FMT, and a new tile does
not follow a column drain (02 R44, R45). -/
def ArrayTail.follows (x : ArrayTail) (d : StreamDesc) : Bool :=
  (match x.last with
    | some e => e.m == d.m && e.n == d.n && e.aFmt == d.aFmt && e.bFmt == d.bFmt
    | none => false) && (d.cont || !x.column)

/-- A SEAT_ counter's BAR0 offset (02 R58). -/
def seatReg (g off : Nat) : Nat := 0x00040000 + g * 0x100 + off

/-- Fill and drain cycles a run adds beyond its steps (02 R44). -/
def fillCycles (cont chained : Bool) : Nat := if cont then (if chained then 0 else 63) else if chained then 63 else 126

/-- The run at the head of the matrix queue finishes: it starts a tile in a free set, or adds to the tile still accumulating (02 R34,
R42). `chained` says that its operands and descriptor were ready before the last step of the run before (R44), which counts only after a
run it can follow; the stall cycles are those the array counted, for a drain only one that shares a group (R48, R34). A quarantined seat
is clock-gated (R31). -/
def execMatrixRunDone (seat : Nat) (chained : Bool) (drainStall queueStall : Nat) (s : State) : Res :=
  .next (
    let x := s.seat seat
    match x.queue with
    | [] => s
    | r :: rest =>
      if x.mode = .quarantined || (r.desc.cont && x.sets.isEmpty) then s
      else if !r.desc.cont && x.sets.length + boolNat x.repair.isSome ≥ 2 then s
      else
        let rest := match rest with
          | [] => []
          | n :: ns => { n with tolShift := s.audCtrl.tolShift } :: ns
        let sets := if r.desc.cont then x.sets.modify (x.sets.length - 1) (fun t => { t with runs := t.runs ++ [r] })
          else x.sets ++ [{ runs := [r] }]
        let st := r.desc.steps
        let tail : ArrayTail := { x.tail with last := some r.desc, column := r.desc.cont && x.tail.column }
        let s := s.updSeat seat (fun y => { y with queue := rest, sets := sets, tail := tail })
        let s := s.bump64 (seatReg seat 0x18) st
        let s := s.bump64 (seatReg seat 0x20) (fillCycles r.desc.cont (chained && x.tail.follows r.desc))
        let s := s.bumpBy (seatReg seat 0x28)
          ((if r.desc.shareGroup then st else 0) + (if x.tail.clashes r.desc then drainStall else 0))
        let s := s.bumpBy (seatReg seat 0x2C) queueStall
        let s := s.bump64 (seatReg seat 0x30) r.gated
        s.settleSeat seat)

/-- MWAIT.RUN (04 R100). -/
def execMwaitRun (i : Iss) (s : State) : Res :=
  .next (s.scalar i (.mwaitRun i) [] (fun t s => t.doneWait s t.ctx (.matrix false)))

/-- MWAIT.ALL (04 R100). -/
def execMwaitAll (i : Iss) (s : State) : Res :=
  .next (s.scalar i (.mwaitAll i) [] (fun t s => t.doneWait s t.ctx (.matrix true)))

/-! ### Accumulation (03 R66 to R69) -/

/-- Merge values pairwise with additions rounded by `rnd`, the pairs picked by free value `n`; a lone value is added to the +0 the
accumulator starts at (03 R66, R69, R76, notes/assumptions/10.md). -/
def sumWith (rnd : Nat → FVal → FVal) (n base : Nat) : Nat → List FVal → FVal
  | 0, l => rnd 0 (l.foldl FVal.add (.num false 0 0))
  | _, [] => .num false 0 0
  | _, [x] => rnd 0 ((FVal.num false 0 0).add x)
  | k + 1, x :: y :: r =>
    let l := x :: y :: r
    let i := Config.free n (base + 2 * k) % l.length
    let l1 := l.eraseIdx i
    let j := Config.free n (base + 2 * k + 1) % l1.length
    sumWith rnd n base k (rnd (k + 1) ((l.getD i x).add (l1.getD j y)) :: l1.eraseIdx j)

/-- A picked evaluation with binary32 additions (03 R66). -/
def sumPicks (n base fuel : Nat) (l : List FVal) : FVal := sumWith (fun _ v => v.r32) n base fuel l

/-- The terms of an evaluation: each product as it is, or added by itself into an accumulator's +0, which rounds it (03 R66, R69). -/
def sumTerms (n base : Nat) (l : List FVal) : List FVal :=
  (l.zip (List.range l.length)).map (fun x =>
    if Config.free n (base + 2 ^ 30 + x.2) % 2 = 1 then ((FVal.num false 0 0).add x.1).r32 else x.1)

/-- The terms of every evaluation. -/
def termChoices : List FVal → List (List FVal)
  | [] => [[]]
  | x :: xs => (termChoices xs).flatMap (fun r => [x :: r, ((FVal.num false 0 0).add x).r32 :: r])

/-- Every evaluation of the terms with binary32 additions, in every order and grouping (03 R66). -/
def sumAll : Nat → List FVal → List FVal
  | 0, l => [(l.foldl FVal.add (.num false 0 0)).r32]
  | _, [] => [.num false 0 0]
  | _, [x] => [((FVal.num false 0 0).add x).r32]
  | k + 1, x :: y :: r =>
    let l := x :: y :: r
    (List.range l.length).flatMap (fun j => (List.range j).flatMap (fun i =>
      sumAll k (((l.getD i x).add (l.getD j y)).r32 :: (l.eraseIdx j).eraseIdx i)))

/-- A sum under 03 R66: the picked evaluation, or a free value strictly closer to the exact sum than every evaluation; a zero is +0 (03
R69). -/
def sumFree (n base : Nat) (l : List FVal) : FVal :=
  let v := sumPicks n base l.length (sumTerms n base l)
  let exact := l.foldl FVal.add (.num false 0 0)
  if v.eqv exact || !v.isFin || !exact.isFin then v
  else
    let c := ofF32 (BitVec.ofNat 32 (Config.free n (base + 2 * l.length)))
    let c := if c.isZero then .num false 0 0 else c
    if c.isFin && ((termChoices l).flatMap (sumAll l.length)).all (fun w => !w.isFin || exact.closer c w) then c else v

/-- The products of an output element over all runs of its tile (02 R43, 03 R66). -/
def Tile.products (t : Tile) (i j : Nat) : List FVal :=
  t.runs.flatMap (fun r => ((r.a.getD i []).zip (r.b.getD j [])).map (fun x => x.1.mul x.2))

/-- Whether a tile is an integer tile (03 R67). -/
def Tile.integer (t : Tile) : Bool :=
  match t.runs with
  | r :: _ => match opFmt r.desc.aFmt with | some f => f.integer | none => false
  | [] => false

/-- The signed value of an exact number, for integer tiles. -/
def FVal.toInt : FVal → Int
  | .num n m e => scaleTo n m e 0
  | _ => 0

/-- The accumulator of an element: a binary32 pattern, or 32 bits of two's complement (03 R66, R67). -/
def Tile.acc (t : Tile) (draw i j : Nat) : Word :=
  let ps := t.products i j
  if t.integer then BitVec.ofInt 32 ((ps.map FVal.toInt).foldl (· + ·) 0)
  else toF32 (sumFree draw (i * 2 ^ 40 + j * 2 ^ 32) ps)

/-- M and N of a tile. -/
def Tile.dims (t : Tile) : Nat × Nat :=
  match t.runs with
  | r :: _ => (r.desc.m, r.desc.n)
  | [] => (0, 0)

/-- The accumulators of a tile, row by row, with one bit of one cell inverted where an upset or an injection says so
(03 R91). -/
def Tile.accs (t : Tile) (draw : Nat) (flips : List (Nat × Nat × Nat)) : List (List Word) :=
  let (m, n) := t.dims
  (List.range m).map (fun i => (List.range n).map (fun j =>
    (flips.filter (fun f => f.1 == i && f.2.1 == j)).foldl (fun w f => w ^^^ (1 <<< f.2.2)) (t.acc draw i j)))

/-! ### The audit (03 R75 to R79) -/

/-- A drained accumulator as a value. -/
def Tile.val (t : Tile) (w : Word) : FVal := if t.integer then FVal.ofInt w.toInt else ofF32 w

/-- Exact sum of values. -/
def sumExact (l : List FVal) : FVal := l.foldl FVal.add (.num false 0 0)

/-- Round to the 48-bit significand of the audit's internal format; its rounding is not stated, so `pick` says whether a magnitude that
does not fit goes down or up. Sums of products never reach the ends of the 11-bit exponent (03 R76, notes/assumptions/10.md). -/
def FVal.r48 (pick : Nat) : FVal → FVal
  | .num n m e =>
    let sh := Nat.log2 m + 1 - 48
    if m % 2 ^ sh = 0 then .num n m e else .num n (m / 2 ^ sh + pick % 2) (e + (sh : Int))
  | v => v

/-- A sum of the audit lanes: additions in the internal format, in an order that is not stated (03 R76). -/
def sum48 (n base : Nat) (l : List FVal) : FVal :=
  sumWith (fun k v => v.r48 (Config.free n (base + 2 ^ 20 + k))) n base l.length l

/-- The outcome of one row's or column's check. -/
inductive Check | pass | fail | unchecked
  deriving DecidableEq, Repr

/-- τ of 03 R77. -/
def auditTau (shift k : Nat) (mag : FVal) : FVal :=
  let a := FVal.mul (.num false (2 ^ shift * k) (-24)) mag
  let b := FVal.num false (2 ^ shift * k) (-149)
  if a.lt b then b else a

/-- One audit or magnitude accumulator of a row, or of a column: for every step the edge summer's sum over the valid lines of the other
operand, times the line's own element, accumulated over all runs (03 R75, R76). `f` is the identity, or the magnitude. -/
def Tile.auditAcc (t : Tile) (n base : Nat) (row : Bool) (i : Nat) (f : FVal → FVal) : FVal :=
  sum48 n base (((List.range t.runs.length).zip t.runs).flatMap (fun r =>
    let own := ((if row then r.2.a else r.2.b).getD i [])
    let other := (if row then r.2.b else r.2.a).filter (fun y => !y.isEmpty)
    ((List.range own.length).zip own).map (fun x =>
      (f x.2).mul (sum48 n (base + (1 + r.1 * 65536 + x.1) * 2 ^ 24) (other.map (fun y => f (y.getD x.1 (.num false 0 0))))))))

/-- Compare the drained sum of a row, or of a column, with its audit value (03 R77, R78). -/
def Tile.auditLine (t : Tile) (n base shift k : Nat) (row : Bool) (i : Nat) (drained products : List FVal) : Check :=
  if t.integer then
    if BitVec.ofInt 32 (sumExact drained).toInt = BitVec.ofInt 32 (sumExact products).toInt then .pass else .fail
  else
    let audit := t.auditAcc n base row i id
    let mag := t.auditAcc n (base + 2 ^ 60) row i FVal.abs
    if !(drained.all FVal.isFin && audit.isFin && mag.isFin) then .unchecked
    else if ((sum48 n (base + 2 ^ 61) drained).add audit.neg).abs.le (auditTau shift k mag) then .pass else .fail

/-- Total depth and the tolerance shift of a tile (03 R77, R80). -/
def Tile.depth (t : Tile) : Nat := sumNat (t.runs.map (fun r => r.desc.k))

/-- TOL_SHIFT when the tile's first run started (03 R80). -/
def Tile.shift (t : Tile) : Nat := match t.runs with | r :: _ => r.tolShift | [] => 0

/-- What the comparator reports: the first failing row and column, and how many lines went unchecked. -/
structure Audit where
  row : Option Nat
  col : Option Nat
  unchecked : Nat
  deriving DecidableEq, Repr

/-- Check every valid row and column of a tile; free value `n` stands for the rounding of the internal sums (03 R76 to R78). -/
def Tile.audit (t : Tile) (n : Nat) (accs : List (List Word)) : Audit :=
  let at' (i j : Nat) : FVal := t.val ((accs.getD i []).getD j 0)
  let rows := t.validRows
  let cols := t.validCols
  let line (row : Bool) (i : Nat) (drained products : List FVal) : Check :=
    t.auditLine n (2 ^ 70 + (2 * i + boolNat row) * 2 ^ 62) t.shift t.depth row i drained products
  let rc := rows.map (fun i => (i, line true i (cols.map (at' i)) (cols.flatMap (t.products i))))
  let cc := cols.map (fun j => (j, line false j (rows.map (fun i => at' i j)) (rows.flatMap (fun i => t.products i j))))
  { row := (rc.find? (fun x => x.2 = .fail)).map (fun x => x.1)
    col := (cc.find? (fun x => x.2 = .fail)).map (fun x => x.1)
    unchecked := ((rc ++ cc).filter (fun x => x.2 = .unchecked)).length }

/-! ### Drain conversion (03 R70 to R73, 04 R105) -/

/-- The MDRAIN control word; none outside its fields (04 R105). -/
def drainOf (ctx target w : Nat) : Option Drain :=
  let act := bits w 10 8
  let ds := bits w 31 16
  if bitAt w 7 || bits w 15 11 ≠ 0 || bits w 63 32 ≠ 0 || act > 4 || ds = 0 || ds > 2048 || bits w 3 0 > 5 then none
  else some { ctx := ctx, target := target, fmt := bits w 3 0, stoch := bitAt w 4, nanOpt := bitAt w 5, column := bitAt w 6,
              act := act, dstride := ds }

/-- Whether a tile allows a drain's format and rounding (03 R70). -/
def Drain.allowed (d : Drain) (integer : Bool) : Bool :=
  (if integer then d.fmt == 0 || d.fmt == 5 else decide (d.fmt ≤ 4))
    && !(d.stoch && (d.fmt == 0 || d.fmt == 2 || d.fmt == 5))

/-- Bytes of an output element (03 R70). -/
def Drain.size (d : Drain) : Nat :=
  match d.fmt with
  | 0 => 4 | 1 => 2 | 2 => 2 | 3 => 1 | 4 => 1 | _ => 4

/-- The activation in binary32; its accuracy is not stated, so GELU, SiLU and tanh give a free value on a number
(04 R105, notes/assumptions/16.md). -/
def activate (act free : Nat) (v : FVal) : FVal :=
  match act with
  | 0 => v
  | 1 => match v with
    | .nan => .nan
    | .inf n => if n then .num false 0 0 else v
    | .num n m _ => if n && m ≠ 0 then .num false 0 0 else v
  | _ => if v.isNan then .nan else ofF32 (BitVec.ofNat 32 free)

/-- An activated value of an integer tile as INT32: modulo 2^32 (03 R70). ReLU leaves an integer; any other activation gives a free value,
whose nearest integer is taken. -/
def FVal.mod32 : FVal → Word
  | .num n m e =>
    let mag :=
      if e ≥ 0 then m * 2 ^ e.toNat
      else
        let sh := (-e).toNat
        if m % 2 ^ sh ≠ 0 && roundsUpEven (m / 2 ^ sh) (m % 2 ^ sh) sh then m / 2 ^ sh + 1 else m / 2 ^ sh
    if n then BitVec.ofInt 32 (-(mag : Int)) else BitVec.ofNat 32 mag
  | _ => 0

/-- Convert one drained value (03 R70 to R72). -/
def Drain.convert (d : Drain) (integer : Bool) (draw i j : Nat) (w : Word) : Nat :=
  if integer && d.fmt = 5 && d.act = 0 then w.toNat
  else
    let v0 := if integer then (FVal.ofInt w.toInt).r32 else ofF32 w
    let v := activate d.act (Config.free draw (2 ^ 50 + i * 64 + j)) v0
    let up := if d.stoch then roundsUpStoch (Config.free draw (2 ^ 51 + i * 64 + j) % 65536) else roundsUpEven
    match d.fmt with
    | 0 => Fmt.fp32.encode v
    | 1 => Fmt.bf16.drainEncode up d.nanOpt v
    | 2 => Fmt.fp16.drainEncode roundsUpEven d.nanOpt v
    | 3 => Fmt.e4m3.drainEncode up d.nanOpt v
    | 4 => Fmt.e5m2.drainEncode up d.nanOpt v
    | _ => v.mod32.toNat

/-- The output rows as bytes, M × N or, with COLUMN, N × M; an element of an empty row or column is +0 (02 R43, R45). -/
def Drain.rows (d : Drain) (t : Tile) (draw : Nat) (accs : List (List Word)) : List (List Byte) :=
  let (m, n) := t.dims
  let rows := t.validRows
  let cols := t.validCols
  let el (i j : Nat) : List Byte := leBytes d.size
    (if rows.contains i && cols.contains j then d.convert t.integer draw i j ((accs.getD i []).getD j 0) else 0)
  if d.column then (List.range n).map (fun j => (List.range m).flatMap (fun i => el i j))
  else (List.range m).map (fun i => (List.range n).flatMap (fun j => el i j))

/-- The end of the drain target of a tile. -/
def Drain.endOf (d : Drain) (t : Tile) : Nat :=
  let (m, n) := t.dims
  let rows := if d.column then n else m
  let cols := if d.column then m else n
  d.target + (rows - 1) * d.dstride * 64 + cols * d.size

/-- Write output rows at the drain target. -/
def State.writeRows (s : State) (g : Nat) (d : Drain) (rows : List (List Byte)) : State :=
  ((List.range rows.length).zip rows).foldl (fun s x => s.writeSeat g (d.target + x.1 * d.dstride * 64) x.2) s

/-! ### Running and judging a tile -/

/-- The bits inverted when a tile drains on a seat: the transient the command names, and an armed injection, which is
consumed (03 R91). -/
def State.flips (s : State) (g : Nat) (u : Upset) : List (Nat × Nat × Nat) :=
  (match u with
    | .cell r c b => [(r, c, b.toNat)]
    | _ => [])
  ++ (if s.audInject.arm && s.audInject.seat = g then [(s.audInject.row, s.audInject.col, s.audInject.bit)] else [])

/-- Only cells in use hold an accumulator an inversion can reach (03 R91). -/
def Tile.inUse (t : Tile) (f : Nat × Nat × Nat) : Bool := t.validRows.contains f.1 && t.validCols.contains f.2.1

/-- Disarm a consumed injection. -/
def State.disarm (s : State) (g : Nat) : State :=
  if s.audInject.arm && s.audInject.seat = g then { s with audInject := { s.audInject with arm := false } } else s

/-- Count and record a failed audit (03 R84, R90). The manual gives no KIND for copies that disagree: the model records KIND 0 (3 for an
integer tile), row 0 and column 0 (DESIGN CHOICE, notes/assumptions/39.md). -/
def State.mismatch (s : State) (g : Nat) (t : Tile) (row col : Option Nat) : State :=
  let kind := if t.integer then 3 else if row.isSome && col.isNone then 1 else if row.isNone && col.isSome then 2 else 0
  (s.bump (audSeat g 0x00)).audEvent kind g (row.getD 0) (col.getD 0)

/-- Run, drain and audit a tile on a seat: the accumulators, whether the audit passed, and the state with the audit's
counters and AUD_LAST (03 R77 to R79, R84, R90, R92). -/
def State.judge (s : State) (g : Nat) (t : Tile) (u : Upset) : List (List Word) × Bool × State :=
  let accs := t.accs s.fresh ((s.flips g u).filter t.inUse)
  let a := t.audit s.fresh accs
  let pass := a.row.isNone && a.col.isNone && u ≠ .copies
  let s := (s.disarm g).bumpBy (audSeat g 0x18) a.unchecked
  (accs, pass, if pass then s.draw else (s.mismatch g t a.row a.col).draw)

/-- Whether operands or scale planes of a tile's runs have changed in the seat that ran them (03 R82). -/
def State.stale (s : State) (home : Nat) (t : Tile) : Bool :=
  t.runs.any (fun r => let n := s.runOf home r.ctx r.desc; n.a ≠ r.a || n.b ≠ r.b)

/-- A repair's run of a tile on seat `g` from the operands of seat `home`. Changed operands give an undefined result, and nothing detects
it: the accumulators are free values that pass (03 R81, R82). -/
def State.judgeAgain (s : State) (home g : Nat) (t : Tile) (u : Upset) : List (List Word) × Bool × State :=
  if !s.stale home t then s.judge g t u
  else
    let (m, n) := t.dims
    let accs := (List.range m).map (fun i => (List.range n).map (fun j => BitVec.ofNat 32 (Config.free s.fresh (2 ^ 52 + i * 64 + j))))
    let pass := ((s.flips g u).filter t.inUse).isEmpty && u ≠ .copies
    let s := s.disarm g
    (accs, pass, if pass then s.draw else (s.mismatch g t none none).draw)

/-- One more tile counts on a seat: strikes age and leave the window after 2^20 tiles (03 R83). -/
def Seat.countTile (x : Seat) : Seat := { x with strikes := (x.strikes.map (· + 1)).filter (fun n => n < 2 ^ 20) }

/-- Whether one more strike quarantines a seat: two are in its window (03 R83). -/
def Seat.onTwoStrikes (x : Seat) : Bool := decide (2 ≤ x.strikes.length)

/-- A strike on a seat, which then is QUARANTINED and fenced if it is due (03 R83, R92, 15 R392). The tile that caused it is no further
tile of its window (DEDUCED, notes/assumptions/39.md). -/
def State.strike (s : State) (g : Nat) (due : Bool) : State :=
  let s := (s.updSeat g (fun x => { x with strikes := 0 :: x.strikes })).bump (audSeat g 0x1C)
  if due then (s.updSeat g (fun x => { x with mode := .quarantined })).fenceHolder (holderId 0 g) else s

/-- The tile of a seat is resolved: its MDRAIN completes, the tile counts, and the seat goes on (03 R81, R83). -/
def State.resolveTile (s : State) (g : Nat) (d : Drain) (t : Tile) : State :=
  let s := s.updSeat g (fun x => { (x.countTile) with
    repair := none
    tail := { x.tail with column := d.column, target := some (d.target, d.endOf t) }
    ctxs := x.ctxs.modify d.ctx (fun k => { k with wait := .none, pc := k.pc + 4 }) })
  let s := s.bump64 (seatReg g 0x08) 1
  let s := s.bump64 (seatReg g 0x10) t.validRows.length
  let s := if d.column then s.bump64 (seatReg g 0x20) 63 else s
  s.settleSeat g

/-- Mark the work of the seat's invocation as repaired (03 R84). -/
def State.recoveredSeat (s : State) (g : Nat) : State :=
  match (s.seat g).inv with
  | some n => match s.inv? n with
    | some v => s.recovered v.cmd
    | none => s
  | none => s

/-- MDRAIN: drain the oldest completed tile to seat A under the control word in scalar B, through the audit, the
activation and the conversion, behind earlier MDRAINs that wait (02 R35). A failed audit leaves the target undefined and begins the repair of R81 (03 R70, R77, R81, 04 R105). With
no tile completed, running or queued the manual gives no end of the wait: the context waits until some tile completes (DESIGN CHOICE,
notes/assumptions/39.md). -/
def execMdrain (i : Iss) (a b : BitVec 5) (upset : Upset) (s : State) : Res :=
  .next (s.scalar i (.mdrain i a b upset) [a, b] (fun t s => t.inTurn s true .drain (fun t s turn =>
    let x := s.seat i.seat
    let target := (t.ctx.rs a.toNat).toNat
    match drainOf i.ctx target (t.ctx.rs b.toNat).toNat with
    | none => t.fault s 2 0
    | some d =>
      match x.sets with
      | [] => t.queueUp s turn true .drain
      | tile :: rest =>
        if !x.oldestDone || x.repair.isSome then t.queueUp s turn true .drain
        else if !d.allowed tile.integer then t.fault s 2 0
        else if target % 64 ≠ 0 then t.fault s 5 target
        else if d.endOf tile > sbufBytes then t.fault s 3 target
        else
          let (accs, pass, s1) := s.judge i.seat tile upset
          let s1 := s1.updSeat i.seat (fun y => { y with sets := rest })
          if pass then (s1.writeRows i.seat d (d.rows tile s.fresh accs)).resolveTile i.seat d tile
          else
            let junk := (d.rows tile s.fresh accs).map (fun r => freeBytes s1.fresh r.length)
            let s1 := s1.draw.writeRows i.seat d junk
            (s1.updSeat i.seat (fun y => { y with repair := some { tile := tile, drain := d, step := 1 } })).updCtx i.seat i.ctx
              (fun k => { k with wait := .drain }))))

/-- The first bad word among the operands and scale planes of a tile's runs, with the context whose run reads it (03 R85). -/
def Seat.badRun (x : Seat) (t : Tile) : Option (Nat × Nat) :=
  if x.badWords.isEmpty then none
  else (t.runs.filterMap (fun r => (x.badOperand r.desc).bind (fun o => ((x.badIn o.1 o.2).head?).map (fun w => (r.ctx, w))))).head?

/-- A repair's run of a tile reads a seat's operands: a bad word is refetched, and the tile runs again after it, or is a PARITY fault that
re-runs the seat's work from the trick boundary (03 R81, R85). -/
def State.repairRead (s : State) (g : Nat) (t : Tile) (f : State → State) : State :=
  match (s.seat g).badRun t, (s.seat g).inv.bind s.inv? with
  | some b, some v => s.engineParity g b.1 v b.2
  | _, _ => f s

/-- Step 1 of 03 R81: the re-run on the same seat finishes and its audit decides. -/
def execTileRerun (seat : Nat) (upset : Upset) (s : State) : Res :=
  .next (match (s.seat seat).repair with
    | none => s
    | some r =>
      if r.step ≠ 1 || (s.seat seat).mode = .quarantined then s
      else s.repairRead seat r.tile (fun s =>
        let (accs, pass, s1) := s.judgeAgain seat seat r.tile upset
        if pass then
          let s1 := (s1.bump (audSeat seat 0x04)).recoveredSeat seat
          (s1.writeRows seat r.drain (r.drain.rows r.tile s.fresh accs)).resolveTile seat r.drain r.tile
        else s1.updSeat seat (fun x => { x with repair := some { r with step := 2 } })))

/-- Whether `other` may run the tile of `seat` under step 2 of 03 R81: another seat of the hand, on the same die if the
hand has one there; the seat itself when the hand has one seat. -/
def State.mayRepair (s : State) (seat other : Nat) : Bool :=
  let h := (s.seat seat).hand
  let mates := ((s.hand h).seats).filter (fun g => g ≠ seat && (s.seat g).mode = .dealt)
  if mates.isEmpty then other == seat && (s.seat seat).mode = .dealt
  else
    mates.contains other && (other / 88 == seat / 88 || !mates.any (fun g => g / 88 == seat / 88))
      && decide ((s.seat other).tilesInUse < 2)

/-- Step 2 of 03 R81: the run on another seat of the hand finishes. The first seat has a strike; if the run fails too the other takes a
strike and the tile is aborted. A hand of one seat runs it a third time and only then has a strike. Each seat counts the tile, and a seat
that had two strikes in its window is QUARANTINED (R83). -/
def execTileRepairOther (seat other : Nat) (upset : Upset) (s : State) : Res :=
  .next (match (s.seat seat).repair with
    | none => s
    | some r =>
      if r.step ≠ 2 || (s.seat seat).mode = .quarantined || !s.mayRepair seat other then s
      else s.repairRead seat r.tile (fun s =>
        let alone := other = seat
        let due1 := (s.seat seat).onTwoStrikes
        let due2 := (s.seat other).onTwoStrikes
        let (accs, pass, s1) := s.judgeAgain seat other r.tile upset
        let s1 := if alone then s1 else s1.bump (audSeat other 0x0C)
        let s1 :=
          if pass then
            let s1 := if alone then s1 else s1.bump (audSeat seat 0x08)
            (s1.recoveredSeat seat).writeRows seat r.drain (r.drain.rows r.tile s.fresh accs)
          else
            let s1 := s1.bump (audSeat seat 0x10)
            match (s1.seat seat).inv with
            | some n => s1.abortInv n
            | none => s1
        let s1 := s1.resolveTile seat r.drain r.tile
        let s1 := if alone then s1 else s1.updSeat other Seat.countTile
        let s1 := if alone && pass then s1 else s1.strike seat due1
        if alone || pass then s1 else s1.strike other due2))

/-! ### RELAYOUT (02 R46, 04 R108) -/

/-- Element bits of EBITS (04 R108). -/
def ebits : Nat → Nat
  | 0 => 4 | 1 => 6 | 2 => 8 | _ => 16

/-- The descriptor's rules (04 R108). -/
def relayoutOk (b : List Byte) : Bool :=
  let src := fieldOf b 0 4
  let dst := fieldOf b 4 4
  let r := fieldOf b 8 2
  let c := fieldOf b 0xA 2
  let e := fieldOf b 0xC 1
  let ss := fieldOf b 0xE 2
  let ds := fieldOf b 0x10 2
  let w := ebits e
  let srcEnd := src + (r - 1) * ss * 64 + packedLen w c
  let dstEnd := dst + (c - 1) * ds * 64 + packedLen w r
  src % 64 == 0 && dst % 64 == 0 && decide (1 ≤ r) && decide (r ≤ 4096) && decide (1 ≤ c) && decide (c ≤ 4096)
    && decide (e < 4) && fieldOf b 0xD 1 == 0 && decide (1 ≤ ss) && decide (ss ≤ 2048) && decide (1 ≤ ds) && decide (ds ≤ 2048)
    && zeroRange b 0x12 14 && (e != 0 || (r % 2 == 0 && c % 2 == 0)) && (e != 1 || (r % 4 == 0 && c % 4 == 0))
    && decide (srcEnd ≤ sbufBytes) && decide (dstEnd ≤ sbufBytes) && (decide (srcEnd ≤ dst) || decide (dstEnd ≤ src))

/-- RELAYOUT: rewrite the R × C operand described at seat A as C × R; element bits only (02 R46, 04 R108). -/
def execRelayout (i : Iss) (a : BitVec 5) (s : State) : Res :=
  .next (s.scalar i (.relayout i a) [a] (fun t s =>
    let p := (t.ctx.rs a.toNat).toNat
    if p % 32 ≠ 0 then t.fault s 2 0
    else if p + 32 > sbufBytes then t.fault s 3 p
    else
      t.readSeat s p 32 (fun b =>
        if !relayoutOk b then t.fault s 2 0
        else
          let src := fieldOf b 0 4
          let dst := fieldOf b 4 4
          let r := fieldOf b 8 2
          let c := fieldOf b 0xA 2
          let w := ebits (fieldOf b 0xC 1)
          let ss := fieldOf b 0xE 2
          let ds := fieldOf b 0x10 2
          let bad := (List.range r).find? (fun k => !((s.seat i.seat).badIn (src + k * ss * 64) (packedLen w c)).isEmpty)
          t.readSeat s (src + bad.getD 0 * ss * 64) (packedLen w c) (fun _ =>
            let rows := (List.range r).map (fun k => s.rd ((Space.seat i.seat).key (src + k * ss * 64)) (packedLen w c))
            let s := (List.range c).foldl (fun s k =>
              s.writeSeat i.seat (dst + k * ds * 64) (packElems w (rows.map (fun row => packedElem w row k)))) s
            t.skip s))))

end Sys2Proof.Machine
end

