-- ==== Sys2Proof/Machine/Select.lean ====
section
/-!
DEFINITION. The one selection rule (06 R165 to R175): order, invalid entries, duplicates, ties, partial lists and merges;
and the checks of the addresses a unit issue names (04 R110, 06 R176).
-/
namespace Sys2Proof.Machine

/-- A key's value under KEYFMT: 0 FP32, 1 BF16, 2 INT32 (04 R111, 06 R165). -/
def keyVal (fmt : Nat) (w : Word) : FVal :=
  match fmt with
  | 0 => ofF32 w
  | 1 => ofF32 (w <<< 16)
  | _ => FVal.ofInt w.toInt

/-- The index no valid entry has (06 R167). -/
def noIndex : Addr := 0xFFFFFFFFFFFFFFFF

/-- Whether an entry is invalid: a NaN key, the reserved index, or for TOPP a key 06 R175 excludes (06 R167). -/
def MEntry.invalid (fmt : Nat) (topp : Bool) (e : MEntry) : Bool :=
  let v := keyVal fmt e.key
  v.isNan || e.index == noIndex || (topp && (v.lt (.num false 0 0) || v.eqv (.inf false)))

/-- Whether one entry's key ranks before another's (06 R165). -/
def keyBefore (fmt : Nat) (largest : Bool) (a b : Word) : Bool :=
  if largest then (keyVal fmt b).lt (keyVal fmt a) else (keyVal fmt a).lt (keyVal fmt b)

/-- The order: by key, then by lower index (06 R165), then by lower source, which R173 states for copies under UNIQUE and which orders equal
entries without UNIQUE too (DESIGN CHOICE, notes/assumptions/47.md). -/
def MEntry.before (fmt : Nat) (largest : Bool) (a b : MEntry) : Bool :=
  keyBefore fmt largest a.key b.key
    || (!keyBefore fmt largest b.key a.key && (decide (a.index < b.index) || (a.index == b.index && decide (a.source < b.source))))

/-- Keep the first entry of each index. -/
def dropCopies : List MEntry → List MEntry
  | [] => []
  | e :: es => e :: (dropCopies es).filter (fun x => x.index ≠ e.index)

/-- What a selection keeps and counts. -/
structure Selected where
  entries : List MEntry
  ties : Nat
  invalid : Nat
  duplicates : Nat
  deriving DecidableEq, Repr

/-- Whether two keys are equal in the order. -/
def keyEq (fmt : Nat) (a b : Word) : Bool := (keyVal fmt a).eqv (keyVal fmt b)

/-- The best K of entries (06 R165, R167, R170, R173). -/
def selectBest (fmt : Nat) (largest unique topp : Bool) (k : Nat) (l : List MEntry) : Selected :=
  let valid := l.filter (fun e => !e.invalid fmt topp)
  let sorted := sortBy (MEntry.before fmt largest) valid
  let kept := if unique then dropCopies sorted else sorted
  let best := kept.take k
  let ties := match best.getLast? with
    | some e => if best.length = k then ((kept.drop k).filter (fun x => keyEq fmt x.key e.key)).length else 0
    | none => 0
  { entries := best, ties := ties, invalid := l.length - valid.length, duplicates := valid.length - kept.length }

/-- The key of a list's last valid entry (06 R174). -/
def lastKey (fmt : Nat) (topp : Bool) (l : List MEntry) : Option Word :=
  ((l.filter (fun e => !e.invalid fmt topp)).getLast?).map (fun e => e.key)

/-- The left-out ties of partial lists, each under the last key of the piece or group that left them out (06 R171, R174). -/
def tiesOf (fmt : Nat) (topp : Bool) (parts : List MPart) : List (Word × Nat) :=
  parts.flatMap (fun p =>
    (match lastKey fmt topp p.entries with
      | some w => if p.ties = 0 then [] else [(w, p.ties)]
      | none => []) ++ p.spare)

/-- Merge a group of partial lists to the best K: left-out ties of the inputs under the merged last key add up, the others
wait for the final merge (06 R171, R173, R174). -/
def mergeParts (fmt : Nat) (largest unique topp : Bool) (k : Nat) (parts : List MPart) : MPart × Nat × Nat :=
  let r := selectBest fmt largest unique topp k (parts.flatMap (fun p => p.entries))
  let all := tiesOf fmt topp parts
  let mine (x : Word × Nat) : Bool := match r.entries.getLast? with | some e => keyEq fmt x.1 e.key | none => false
  ({ entries := r.entries, ties := r.ties + sumNat ((all.filter mine).map (fun x => x.2)), spare := all.filter (fun x => !mine x) },
    r.invalid, r.duplicates)

/-- Merge levels in groups of 16 until one list is left (06 R171); `fuel` bounds the levels. -/
def mergeAll (fmt : Nat) (largest unique : Bool) (k : Nat) : Nat → List MPart → MPart × Nat × Nat
  | 0, parts => mergeParts fmt largest unique false k parts
  | f + 1, parts =>
    if parts.length ≤ 16 then mergeParts fmt largest unique false k parts
    else
      let gs := (chunks 16 parts.length parts).map (mergeParts fmt largest unique false k)
      let (p, i, d) := mergeAll fmt largest unique k f (gs.map (fun g => g.1))
      (p, i + sumNat (gs.map (fun g => g.2.1)), d + sumNat (gs.map (fun g => g.2.2)))

/-- Merge groups that `mergeAll` runs over `n` lists (06 R171). -/
def mergeGroups : Nat → Nat → Nat
  | 0, _ => 1
  | f + 1, n => if n ≤ 16 then 1 else ceilDiv n 16 + mergeGroups f (ceilDiv n 16)

/-- What each merge group of `mergeAll` excludes and removes, in the order they run (06 R171). -/
def mergeTrace (fmt : Nat) (largest unique : Bool) (k : Nat) : Nat → List MPart → List (Nat × Nat)
  | 0, parts => [(mergeParts fmt largest unique false k parts).2]
  | f + 1, parts =>
    if parts.length ≤ 16 then [(mergeParts fmt largest unique false k parts).2]
    else
      let gs := (chunks 16 parts.length parts).map (mergeParts fmt largest unique false k)
      gs.map (fun g => g.2) ++ mergeTrace fmt largest unique k f (gs.map (fun g => g.1))

/-- Take entries in rank order until the running binary32 sum reaches P or K are taken (06 R175). -/
def toppTake (p : FVal) : Nat → FVal → List MEntry → List MEntry × FVal
  | 0, sum, _ => ([], sum)
  | _, sum, [] => ([], sum)
  | k + 1, sum, e :: es =>
    if p.le sum then ([], sum)
    else
      let (r, m) := toppTake p k ((sum.add (ofF32 e.key)).r32) es
      (e :: r, m)

/-- Entries that a piece or group excludes or removes count at once (06 R167, R173, R180). -/
def State.countExcluded (s : State) (invalid duplicates : Nat) : State := (s.bump64 0x00080010 invalid).bump64 0x00080018 duplicates

/-! ### Addresses of a unit issue -/

/-- What stands against a range a unit needs: nothing, BAD_PARAM, a page not yet in T1 or a line in transit, a fetch that failed with a status (12
R311), a poisoned line, or a request the host rejects. -/
inductive UCheck | ok | bad | wait | failed (status : Nat) | poison | rejected
  deriving DecidableEq, Repr

/-- The keys of the 64-byte blocks of a range of a tenant. -/
def State.keysOf (s : State) (t : Nat) (stock : Bool) (acc : Access) (va len : Nat) : List Nat :=
  (List.range (if len = 0 then 0 else (va % 64 + len + 63) / 64)).map (fun i => s.keyOf t stock acc (max va (va / 64 * 64 + 64 * i)))

/-- Check one range of tenant virtual addresses for a unit issue (04 R110, R117, R118, 06 R176, 12 R308, R309, 17 R448). -/
def State.unitCheck (s : State) (u : UnitIssue) (acc : Access) (va len align : Nat) : UCheck :=
  if va % align ≠ 0 then .bad
  else
    match s.rangeTrouble u.tenant u.stock acc va len with
    | some (.fault _) => .bad
    | some (.absent b) => (s.fetchFate (.issue u.key) u.tenant (65536 * b) 1).elim .wait .failed
    | _ =>
      let ks := s.keysOf u.tenant u.stock acc va len
      if ks.any s.underHoming then .wait
      else if ks.any (fun k => !s.hostAccepts k 1) then .rejected
      else if acc = .load && ks.any (fun k => s.poisoned k 1) then .poison else .ok

/-- What stands against work that reads a whole object: pages that the tier engine must bring in, or failed to bring in, or a line that no copy
restores (01 R22, 12 R308, R311). -/
def State.objectCheck (s : State) (w : Waiter) (t va len : Nat) : UCheck :=
  if s.objectWaits t va len then (s.fetchFate w t va len).elim .wait .failed
  else if s.objectPoisoned t va len then .poison else .ok

/-- Whether a check found a fetch that failed. -/
def UCheck.isFailed : UCheck → Bool
  | .failed _ => true
  | _ => false

/-- The first trouble of several ranges: BAD_PARAM before everything else. -/
def worstCheck (l : List UCheck) : UCheck :=
  if l.contains .bad then .bad else if let some c := l.find? UCheck.isFailed then c else if l.contains .wait then .wait else if l.contains .rejected then .rejected
  else if l.contains .poison then .poison else .ok

/-- Go on with a unit issue when its ranges are sound; otherwise it completes or waits (06 R176, 12 R308, 17 R448). -/
def State.onCheck (s : State) (k : IssueKey) (c : UCheck) (f : State → State) : State :=
  match c with
  | .ok => f s
  | .bad => s.finishIssue k St.badParam 0
  | .wait => s
  | .failed st => s.finishIssue k st 0
  | .poison => s.finishIssue k St.aborted 0
  | .rejected => (s.bump 0x00110014).finishIssue k St.aborted 0

/-- The unit issue with a key, when it names the unit and operation and has not begun. -/
def State.issueAt (s : State) (k : IssueKey) (unit op : Nat) : Option UnitIssue :=
  match s.issue? k with
  | some u => if u.unit = unit && u.op = op && !u.begun then some u else none
  | none => none

/-- Whether one of a unit's four lanes has taken an issue: issues are taken in arrival order, and a lane runs its issue to completion (08
R213, 09 R231). Steps of the serving unit take effect in the command that makes them, ahead of every waiting issue. -/
def State.inLane (s : State) (u : UnitIssue) : Bool := has (fun x => x.key == u.key) ((s.issues.filter (fun x => x.unit == u.unit)).take 4)

/-- The unit issue with a key that a lane of its unit has taken; an issue of a tenant that is reset has stopped (08 R216, 09 R235). -/
def State.laneIssue (s : State) (k : IssueKey) (unit op : Nat) : Option UnitIssue :=
  match s.issueAt k unit op with
  | some u => if s.inLane u && (s.tenant u.tenant).reset.isNone then some u else none
  | none => none

/-- Bytes of a range of a tenant before the first block that is not in T1, is poisoned, or that the host rejects. -/
def State.readable (s : State) (t : Nat) (stock : Bool) (va len : Nat) : Nat :=
  match (List.range ((va % 64 + len + 63) / 64)).find? (fun i =>
      match s.xlat t stock .load (max va (va / 64 * 64 + 64 * i)) with
      | .ok k => !s.hostAccepts k 1 || s.poisoned k 1 || s.underHoming k
      | _ => true) with
  | some i => max va (va / 64 * 64 + 64 * i) - va
  | none => len

/-- A unit issue is being worked on. -/
def State.beginIssue (s : State) (k : IssueKey) : State :=
  { s with issues := updWhere (fun u => u.key == k) (fun u => { u with begun := true }) s.issues }

/-- Whether the unused bytes of a body are 0 (04 R111). -/
def bodyTailZero (u : UnitIssue) (used : Nat) : Bool := (u.body.drop used).all (fun b => b == 0)

end Sys2Proof.Machine
end

