-- ==== Sys2Proof/Machine/Media.lean ====
section
/-!
DEFINITION. Flash media: geometry, map, journal, stripes, stored blocks, blocks and their wear, the reserve and its states, and the media
commands and events (13 R325 to R359, 12 R314, R315). Where pages lie within the rules of R327 and R335 to R342, and how the pinned region is
laid out, is notes/assumptions/19.md.
-/
namespace Sys2Proof.Machine

/-! ### Geometry (13 R325, R326) -/

/-- Flash dies, channels, blocks, write-buffer blocks, capacity and logical pages of a variant. -/
def Variant.flashDies (v : Variant) : Nat := 16 * v.nandPkgs
def Variant.flashChannels (v : Variant) : Nat := 2 * v.nandPkgs
def Variant.flashBlocks (v : Variant) : Nat := 4096 * v.flashDies
def Variant.bufferBlocks (v : Variant) : Nat := 128 * v.flashDies
def Variant.mediaBytes : Variant → Nat
  | .v9720 => 44 * 2 ^ 40
  | .v9714 => 22 * 2 ^ 40
  | .v9706 => 11 * 2 ^ 40
def Variant.logicalPages (v : Variant) : Nat := v.mediaBytes / 16384

/-- The ONFI channel of a block (13 R326). -/
def blockChannel (n : Nat) : Nat := n / 4096 / 8

/-- Block numbers within a die: the first of the pinned region, then its parts: two checkpoint slots of four blocks, four blocks of journal, the
two firmware slots, and two blocks of dump area; block 4,095 holds the die's factory records (13 R326, R332; where the region lies is DESIGN
CHOICE, notes/assumptions/19.md). -/
def pinnedFrom : Nat := 4079
def ckptFrom (slot : Nat) : Nat := 4079 + 4 * (slot % 2)
def journalFrom : Nat := 4087
def firmwareFrom (slot : Nat) : Nat := 4091 + slot % 2
def dumpFrom : Nat := 4093

/-- The blocks of the pinned region with `n` numbers from `first` on every die of the first `dies`. -/
def pinnedRange (dies first n : Nat) : List Nat :=
  (List.range dies).flatMap (fun d => (List.range n).map (fun i => 4096 * d + first + i))

/-- Whether a block lies in the pinned region (13 R332). -/
def inPinned (n : Nat) : Bool := decide (pinnedFrom ≤ n % 4096) && decide (n % 4096 < 4095)

/-! ### Blocks (13 R326, R327) -/

/-- The mode and bad-block count of a die. -/
def Flash.die (f : Flash) (d : Nat) : DieMode × Nat := f.dies.getD d (.notFitted, 0)

/-- A listed block, or a free block that was never erased. -/
def Flash.blk (f : Flash) (n : Nat) : Blk :=
  (f.blks.find? (fun b => b.num == n)).getD
    { num := n, use := .free, erases := 0, reads := 0, pages := [], queued := false, deferred := false, group := 0, member := 0 }

/-- Store a block's record. -/
def Flash.putBlk (f : Flash) (b : Blk) : Flash := { f with blks := b :: f.blks.filter (fun x => x.num ≠ b.num) }

/-- The logical page that page `i` of a block still holds (13 R327). -/
def Flash.holds (f : Flash) (b : Blk) (i : Nat) : Option Nat :=
  match b.pages[i]? with
  | none => none
  | some l => if f.map.contains (l, PageAt.at (b.num * 4096 + i)) then some l else none

/-- The valid pages of a block. -/
def Flash.valid (f : Flash) (b : Blk) : List Nat := (List.range b.pages.length).filterMap (f.holds b)

/-- Whether a block may hold data: its die is good, and it lies outside the pinned region and is not block 4,095 (13 R326, R348). -/
def Flash.eligible (v : Variant) (f : Flash) (n : Nat) : Bool :=
  decide (n % 4096 < pinnedFrom) && decide (n < v.flashBlocks) && (f.die (n / 4096)).1 = .good

/-- The pages of a block before its trailer: 1,023 in one-bit mode, 4,095 in QLC mode (13 R326). -/
def Blk.last (b : Blk) : Nat := if b.use = .qlc then 4095 else 1023

/-- What a block's page list holds for the page that carries the parity of its stripe. -/
def parityPage : Nat := 0xFFFFFFFF

/-- Numbers below `x` at which member `m` of a group carries the parity of its stripe: the parity member of stripe `i` is `i mod 16` (13 R335). -/
def parityBelow (m x : Nat) : Nat := (x + 15 - m) / 16

/-- Data pages that a block can still take. -/
def Blk.room (b : Blk) : Nat := (b.last - parityBelow b.member b.last) - (b.pages.length - parityBelow b.member b.pages.length)

/-- A block whose next page is its stripe's parity keeps that page for it. -/
def Blk.pad (b : Blk) : Blk :=
  if b.pages.length < b.last && b.pages.length % 16 = b.member then { b with pages := b.pages ++ [parityPage] } else b

/-! ### The reserve and its states (13 R348, R349, R354) -/

/-- Retired blocks of the pinned region of a die. -/
def Flash.pinnedRetired (f : Flash) (d : Nat) : Nat :=
  (f.blks.filter (fun b => b.use = .retired && inPinned b.num && b.num / 4096 == d)).length

/-- Good blocks outside the pinned region and block 4,095 of each die (13 R348). -/
def Flash.goodBlocks (f : Flash) : Nat :=
  sumNat ((f.dies.zip (List.range f.dies.length)).map (fun d => if d.1.1 = .good then pinnedFrom - (d.1.2 - f.pinnedRetired d.2) else 0))

/-- Mapped logical pages (13 R348). -/
def Flash.mapped (f : Flash) : Nat := f.map.length

/-- The reserve in blocks (13 R348). -/
def Flash.reserve (v : Variant) (f : Flash) : Nat := f.goodBlocks - v.bufferBlocks - ceilDiv (16 * f.mapped) (15 * 4095)

/-- LIMITED latches below 0.25% and clears above 0.5% (13 R349). -/
def Flash.settle (v : Variant) (f : Flash) : Flash :=
  let r := f.reserve v
  { f with limited := if 400 * r < v.flashBlocks then true else if 200 * r > v.flashBlocks then false else f.limited }

/-- Whether tenant data writes are refused (13 R349). -/
def State.mediaRefuses (s : State) : Bool := s.flash.sealed || s.flash.limited

/-- FLS_STATUS (13 R348, R349, R354). -/
def State.flsStatus (s : State) : Nat :=
  let f := s.flash
  let r := f.reserve s.variant
  let total := max s.variant.flashBlocks 1
  2 ^ 18 * boolNat f.folding + 2 ^ 17 * boolNat (f.dies.any (fun d => d.1 = .rebuilding)) + 2 ^ 16 * boolNat f.sealed
    + 2 ^ 15 * boolNat f.limited + 2 ^ 14 * boolNat (decide (100 * r < total)) + min 10000 (10000 * r / total)

/-- A change of FLS_STATUS raises vector 31 (17 R447). -/
def State.announceFls (s old : State) : State := if s.flsStatus = old.flsStatus then s else s.msix 31

/-! ### The journal and the map (13 R327, R330) -/

/-- The 32 bytes of a record (13 R330). -/
def JRec.bytes (r : JRec) : List Byte :=
  leBytes 8 r.seq ++ leBytes 1 r.kind ++ leBytes 3 0 ++ leBytes 4 r.crc ++ leBytes 8 r.a ++ leBytes 8 r.b

/-- The CRC a record bears: CRC-32C of the record with that field 0 (13 R330). -/
def JRec.sum (r : JRec) : Nat := crc32c ({ r with crc := 0 } : JRec).bytes

/-- Append a journal record; records in the buffer are durable (13 R330, R331). -/
def Flash.record (f : Flash) (kind a b : Nat) : Flash :=
  let r : JRec := { seq := f.seq, kind := kind, a := a, b := b, crc := 0 }
  { f with seq := f.seq + 1, sinceCkpt := f.sinceCkpt + 32, journal := f.journal ++ [{ r with crc := r.sum }] }

/-- Map a logical page (13 R327). -/
def Flash.setMap (f : Flash) (lpn : Nat) (a : PageAt) : Flash := { f with map := (lpn, a) :: f.map.filter (fun x => x.1 ≠ lpn) }

/-- Mark a logical page LOST through a MAP record (13 R334). -/
def Flash.lose (f : Flash) (lpn : Nat) : Flash := (f.setMap lpn .lost).record 0 lpn 0xFFFFFFFE

/-- SEALED latches, by a SEAL record (13 R349). -/
def Flash.seal (f : Flash) : Flash := if f.sealed then f else { f.record 4 1 0 with sealed := true }

/-- Set the numbers of the lowest logical pages that are unmapped, `k` of them below a limit; `fuel` bounds the search. -/
def freeFrom (used : List Nat) (limit : Nat) : Nat → Nat → Nat → List Nat
  | 0, _, _ => []
  | fuel + 1, n, k =>
    if k = 0 || limit ≤ n then []
    else if used.contains n then freeFrom used limit fuel (n + 1) k
    else n :: freeFrom used limit fuel (n + 1) (k - 1)

/-- The lowest `k` unmapped logical pages (13 R325, R327). -/
def Flash.freeLpns (v : Variant) (f : Flash) (k : Nat) : List Nat :=
  freeFrom (f.map.map (fun x => x.1)) v.logicalPages (f.map.length + k) 0 k

/-! ### Stripes (13 R335, R342) -/

/-- The first block not listed, from a number on, off some channels and dies. -/
def Flash.nextUnlisted (v : Variant) (f : Flash) (off dies : List Nat) : Nat → Nat → Option Nat
  | 0, _ => none
  | k + 1, n =>
    if n ≥ v.flashBlocks then none
    else if (f.die (n / 4096)).1 ≠ .good || off.contains (blockChannel n) || dies.contains (n / 4096) || pinnedFrom ≤ n % 4096 then
      f.nextUnlisted v off dies k ((n / 4096 + 1) * 4096)
    else if has (fun b => b.num == n) f.blks then f.nextUnlisted v off dies k (n + 1)
    else some n

/-- The least-worn free block off some channels and dies, ties to the lower PPN (13 R342). -/
def Flash.takeFreeOff (v : Variant) (f : Flash) (off dies : List Nat) : Option Nat :=
  let listed := (f.blks.filter (fun b => b.use = .free && f.eligible v b.num && !off.contains (blockChannel b.num) && !dies.contains (b.num / 4096))).map
    (fun b => (b.erases, b.num))
  let fresh := match f.nextUnlisted v off dies (f.blks.length + 512) 0 with | some n => [(0, n)] | none => []
  ((sortBy (fun a b => decide (a.1 < b.1) || (a.1 == b.1 && decide (a.2 < b.2))) (listed ++ fresh)).head?).map (fun x => x.2)

/-- The least-worn free block, ties to the lower PPN (13 R342). -/
def Flash.takeFree (v : Variant) (f : Flash) : Option Nat := f.takeFreeOff v [] []

/-- `k` more members for a group: each the least-worn free block on a die of its own, and on a channel of its own, or on the 9706 with one other
die of its channel (13 R335). -/
def Flash.members (v : Variant) (f : Flash) : Nat → List Nat → Option (List Nat)
  | 0, acc => some acc
  | k + 1, acc =>
    let chs := acc.map blockChannel
    let full := chs.filter (fun c => decide ((if v = .v9706 then 2 else 1) ≤ (chs.filter (fun d => d == c)).length))
    match f.takeFreeOff v full (acc.map (fun n => n / 4096)) with
    | none => none
    | some n => Flash.members v f k (acc ++ [n])

/-- Stripes of a group all of whose pages are written. -/
def Flash.stripesDone (f : Flash) (g : Group) : Nat := (g.blocks.map (fun n => (f.blk n).pages.length)).foldl min 4095

/-- Stripes of a group that are begun and not complete; their parity is held in SRAM (13 R335). -/
def Flash.stripesOpen (f : Flash) (g : Option Group) : Nat :=
  match g with
  | none => 0
  | some g => (g.blocks.map (fun n => (f.blk n).pages.length)).foldl max 0 - f.stripesDone g

/-- Open stripes of the two groups being filled. -/
def Flash.openStripes (f : Flash) : Nat := f.stripesOpen f.bufGroup + f.stripesOpen f.qlcGroup

/-- The group that pages of a kind are written to. -/
def Flash.groupOf (f : Flash) (use : BlkUse) : Option Group := if use = .qlc then f.qlcGroup else f.bufGroup

/-- Set it. -/
def Flash.setGroup (f : Flash) (use : BlkUse) (g : Option Group) : Flash := if use = .qlc then { f with qlcGroup := g } else { f with bufGroup := g }

/-- A group takes no further page: the parity of its open stripes is programmed (13 R335). -/
def Flash.closeGroup (f : Flash) (use : BlkUse) : Flash :=
  ({ f with nandBytes := f.nandBytes + 16384 * f.stripesOpen (f.groupOf use) }).setGroup use none

/-- Open a group of sixteen free blocks; none where the reserve is 0, unless the write has begun, or where no free blocks are left (13 R335,
R342, R349). -/
def Flash.openGroup (v : Variant) (f : Flash) (use : BlkUse) (begun : Bool) : Option (Flash × Group) :=
  if f.reserve v = 0 && !begun then none
  else
    (f.members v 16 []).map (fun ns =>
      let f := f.closeGroup use
      let f := (ns.zip (List.range 16)).foldl (fun (f : Flash) x =>
        let b : Blk := { f.blk x.1 with use := use, pages := [], group := f.nextGroup, member := x.2 }
        f.putBlk b.pad) f
      let g : Group := { id := f.nextGroup, blocks := ns, turn := 0 }
      (({ f with nextGroup := f.nextGroup + 1 } : Flash).setGroup use (some g), g))

/-- The member that takes the next `k` pages: from the one whose turn it is, the first off some channels with room. -/
def Flash.pick (f : Flash) (g : Group) (off : List Nat) (k : Nat) : Option Nat :=
  ((List.range 16).map (fun i => (g.turn + i) % 16)).find? (fun m =>
    let n := g.blocks.getD m 0
    !off.contains (blockChannel n) && decide (k ≤ (f.blk n).room))

/-- Program one logical page into a block's next page, with the trailer when the block is full (13 R326, R330). -/
def Flash.programIn (n : Nat) (f : Flash) (lpn : Nat) : Flash :=
  let b := f.blk n
  let b' : Blk := Blk.pad { b with pages := b.pages ++ [lpn], reads := 0 }
  let ppn := n * 4096 + b.pages.length
  let f := ((f.putBlk b').setMap lpn (.at ppn)).record 0 lpn ppn
  { f with nandBytes := f.nandBytes + 16384 + (if b'.pages.length = b'.last then 16384 else 0) }

/-- Program logical pages into one member of a group, and the parity of each stripe this completes (13 R335). -/
def Flash.writeIn (f : Flash) (use : BlkUse) (g : Group) (m : Nat) (lpns : List Nat) : Flash :=
  let done := f.stripesDone g
  let f := lpns.foldl (Flash.programIn (g.blocks.getD m 0)) f
  ({ f with nandBytes := f.nandBytes + 16384 * (f.stripesDone g - done) }).setGroup use (some { g with turn := (m + 1) % 16 })

/-- Whether the open group takes `k` pages together off some channels. -/
def Flash.takes (f : Flash) (use : BlkUse) (off : List Nat) (k : Nat) : Bool := ((f.groupOf use).bind (fun g => f.pick g off k)).isSome

/-- Program logical pages together on one channel off some channels, in the open group or a new one; none where a block is needed and refused
(13 R335, R349, 05 R135). -/
def Flash.place (v : Variant) (use : BlkUse) (begun : Bool) (off lpns : List Nat) (f : Flash) : Option Flash :=
  match (f.groupOf use).bind (fun g => (f.pick g off lpns.length).map (fun m => (g, m))) with
  | some (g, m) => some (f.writeIn use g m lpns)
  | none =>
    match f.openGroup v use begun with
    | none => none
    | some (f, g) => (f.pick g off lpns.length).map (fun m => f.writeIn use g m lpns)

/-! ### Copying pages (13 R339, R341, R342, R346, 05 R135) -/

/-- The ONFI channel of a logical page (13 R326). -/
def Flash.channelOf (f : Flash) (lpn : Nat) : Nat :=
  match f.map.find? (fun x => x.1 == lpn) with
  | some (_, .at ppn) => ppn / 2 ^ 24 / 8
  | _ => 0

/-- Whether a stored block is a far-list segment (05 R135, 12 R315). -/
def Stored.far (x : Stored) : Bool := x.header.isEmpty

/-- The channels that hold the segments before and after a far list's segment (05 R135). -/
def Flash.beside (f : Flash) (o : Owner) : List Nat :=
  match o with
  | .seg c l g => (f.extents.filter (fun e => e.stored.far && (e.owner == .seg c l (g + 1) || (decide (0 < g) && e.owner == .seg c l (g - 1))))).flatMap
      (fun e => e.lpns.map f.channelOf)
  | _ => []

/-- Pages to copy, those of one far-list segment together with the channels they keep off (05 R135). -/
def Flash.units (f : Flash) (lpns : List Nat) : List (List Nat × List Nat) :=
  lpns.filterMap (fun l =>
    match f.extents.find? (fun e => e.stored.far && e.lpns.contains l) with
    | none => some ([l], [])
    | some e =>
      let mine := lpns.filter e.lpns.contains
      if mine.head? = some l then some (mine, f.beside e.owner) else none)

/-- Copy valid pages to blocks of a kind; none where a block is needed and refused. -/
def Flash.copyTo (v : Variant) (use : BlkUse) (lpns : List Nat) (f : Flash) : Option Flash :=
  (f.units lpns).foldl (fun (o : Option Flash) u => o.bind (Flash.place v use false u.2 u.1)) (some f)

/-- Erase a block: it returns to the free pool (13 R339, R341, R346, R359). -/
def Flash.erase (f : Flash) (n : Nat) : Flash :=
  let b := f.blk n
  let b' : Blk := { b with use := .free, erases := b.erases + 1, reads := 0, pages := [], queued := false, deferred := false, group := 0, member := 0 }
  { f.putBlk b' with erases := f.erases + 1 }

/-- Copy the valid pages of blocks into QLC blocks, and erase them (13 R339, R341, R346). -/
def Flash.move (v : Variant) (f : Flash) (srcs : List Nat) : Option Flash :=
  (f.copyTo v .qlc (srcs.flatMap (fun x => f.valid (f.blk x)))).map (fun g => srcs.foldl Flash.erase g)

/-- Whether a block belongs to a group being filled. -/
def Flash.filling (f : Flash) (n : Nat) : Bool :=
  has (fun g => g.blocks.contains n) (f.bufGroup.toList ++ f.qlcGroup.toList)

/-- Buffer blocks in use (13 R338, R339). -/
def Flash.bufferUsed (f : Flash) : Nat := (f.blks.filter (fun b => b.use = .buffer)).length

/-- Folding starts at FOLD_HIGH percent of fill and stops below FOLD_LOW (13 R339). -/
def Flash.settleFold (v : Variant) (f : Flash) : Flash :=
  let pct := 100 * f.bufferUsed
  { f with folding := if pct ≥ f.foldHigh * v.bufferBlocks then true else if pct < f.foldLow * v.bufferBlocks then false else f.folding }

/-- Buffer blocks that folding may take, oldest first. -/
def Flash.foldable (f : Flash) : List Nat := ((f.blks.filter (fun b => b.use = .buffer && !f.filling b.num)).map (fun b => b.num)).reverse

/-- One fold: the valid pages of up to four buffer blocks, oldest first, into QLC blocks (13 R339). -/
def Flash.fold1 (v : Variant) (f : Flash) : Option Flash :=
  if f.foldable.isEmpty then none else (f.move v (f.foldable.take 4)).map (fun g => (g.settleFold v).settle v)

/-- Fold until the write buffer has room for another group; `fuel` bounds the folds (13 R340). -/
def Flash.foldRoom (v : Variant) : Nat → Flash → Option Flash
  | 0, _ => none
  | k + 1, f => if f.bufferUsed + 16 ≤ v.bufferBlocks then some f else (f.fold1 v).bind (Flash.foldRoom v k)

/-! ### Stored blocks (12 R314, R315, R318, 13 R327) -/

/-- Charge of a stored block: header and payload rounded up to 256; a RAW block is 65,792 bytes (12 R315). -/
def storedCharge (payload : Nat) : Nat := roundUp (64 + payload) 256

/-- The charge of a stored block; a far-list segment is charged as it is (12 R315). -/
def Stored.charge (x : Stored) : Nat := if x.far then x.payload.length else storedCharge x.payload.length

/-- Whether a stored block is RAW (12 R314). -/
def Stored.raw (x : Stored) : Bool := !x.far && fieldOf x.header 2 1 == 0

/-- The TIER payload of the `i`-th block of a draw: the format is the module's own, so its length is free; 0 stands for a
payload beyond 65,536 bytes, stored RAW (12 R314, notes/assumptions/6.md). -/
def tierPayload (draw i : Nat) : Nat := Config.free draw i % 65537

/-- The `i`-th block of a draw as stored: 64 KiB of a tenant at an address, in TIER mode, its payload free bytes, or RAW (12 R314). -/
def tierStored (draw i va t : Nat) (data : List Byte) : Stored :=
  let n := tierPayload draw i
  if n = 0 then { header := blockHeader 0 0 va t data data, payload := data, data := data }
  else
    let p := (List.range n).map (fun j => BitVec.ofNat 8 (Config.free draw (i + 2 ^ 32 * (j + 1))))
    { header := blockHeader 1 0 va t p data, payload := p, data := data }

/-- A block of a weight-codec object as stored, from its bytes in T1 (12 R316). -/
def weightStored (b data : List Byte) : Stored := { header := b.take 64, payload := (b.drop 64).take (fieldOf b 4 4), data := data }

/-- A far-list segment as stored (05 R135). -/
def farStored (data : List Byte) : Stored := { header := [], payload := data, data := data }

/-- The charge of the `i`-th block of a draw, which holds 64 KiB. -/
def tierCharge (draw i : Nat) : Nat := storedCharge (if tierPayload draw i = 0 then 65536 else tierPayload draw i)

/-- Charge of `n` blocks of a draw, and how many of them are RAW. -/
def tierCharges (draw n : Nat) : Nat := sumNat ((List.range n).map (tierCharge draw))
def tierRaws (draw n : Nat) : Nat := ((List.range n).filter (fun i => tierPayload draw i = 0)).length

/-- 64 KiB from bytes, zeros past their end. -/
def block64 (b : List Byte) : List Byte := b.take 65536 ++ List.replicate (65536 - b.length) 0

/-- Bytes cut into the blocks of a draw, addresses from `va` on. -/
def tierBlocksOf (draw va t : Nat) (b : List Byte) : List Stored :=
  (List.range (ceilDiv b.length 65536)).map (fun i => tierStored draw i (va + 65536 * i) t (block64 (b.drop (65536 * i))))

/-- Write one unit of pages into the write buffer; a write that finds the buffer full waits until folding has freed blocks. Answers whether it
was programmed, and whether it waited; SEALED latches where a block is needed and refused (13 R338, R340, R349). -/
def State.bufferPlace (s : State) (begun : Bool) (off lpns : List Nat) : State × Bool × Bool :=
  let v := s.variant
  let f := s.flash
  let full := !f.takes .buffer off lpns.length && decide (v.bufferBlocks < f.bufferUsed + 16)
  match (if full then f.foldRoom v 64 else some f).bind (Flash.place v .buffer begun off lpns) with
  | some g => ({ s with flash := (g.settleFold v).settle v }, true, full)
  | none => ({ s with flash := f.seal }, false, full)

/-- Store a block for an owner: packed into logical pages behind the block before it, a far-list segment in pages of its own on one channel off
some channels. Answers whether it was stored: whether a write is refused is decided when its first page is placed (12 R315, R318, 13 R327, R338,
R340, R349). -/
def State.mediaPut (s : State) (off : List Nat) (o : Owner) (t : Nat) (x : Stored) : State × Bool :=
  let f := s.flash
  let seq := f.seq
  let head : Option (Nat × Nat) := if x.far then none else f.pack.filter (fun p => !f.map.contains (p.1, PageAt.lost))
  let at' := match head with | some p => p.2 | none => 0
  let k := ceilDiv (at' + x.charge) 16384 - head.toList.length
  let new := f.freeLpns s.variant k
  let lpns := head.toList.map (fun p => p.1) ++ new
  let units := if x.far then [lpns] else lpns.map (fun l => [l])
  let (z, ok, waited) := units.foldl (fun (acc : State × Bool × Bool) u =>
    if !acc.2.1 then acc
    else
      let (z, ok, w) := acc.1.bufferPlace (decide (acc.1.flash.seq ≠ seq)) off u
      (z, ok, acc.2.2 || w)) (s, decide (new.length = k), false)
  let count (z : State) : State := if waited then z.bump 0x000E0054 else z
  if !ok then ((count { s with flash := if z.flash.sealed then s.flash.seal else s.flash }).announceFls s, false)
  else
    let g := z.flash
    let past := (at' + x.charge) % 16384
    let z := { z with flash := { g with
      pack := if x.far then g.pack else if past = 0 then none else lpns.getLast?.map (fun l => (l, past))
      extents := g.extents ++ [{ owner := o, tenant := t, lpns := lpns, off := at', stored := x, seq := seq }]
      hostBytes := g.hostBytes + x.charge } }
    let z := if x.raw then z.bump 0x000D002C else z
    (((count z).announceFls s).chargeT2 t x.charge, true)

/-- Store blocks in order until one is refused; answers how many were stored (13 R353). -/
def State.mediaPuts (s : State) (t : Nat) (l : List (Owner × Stored)) : State × Nat :=
  l.foldl (fun (acc : State × Nat × Bool) x =>
    if !acc.2.2 then acc
    else
      let (z, ok) := acc.1.mediaPut [] x.1 t x.2
      (z, acc.2.1 + boolNat ok, ok)) (s, 0, true) |> (fun r => (r.1, r.2.1))

/-- Free stored blocks: a page whose last block is freed is unmapped by a TRIM record, and the charges are released (13 R327, R328). -/
def State.mediaFreeExt (s : State) (p : Extent → Bool) : State :=
  let f := s.flash
  let gone := f.extents.filter p
  let kept := f.extents.filter (fun e => !p e)
  let lpns := (dedup (gone.flatMap (fun e => e.lpns))).filter (fun l => !has (fun e => e.lpns.contains l) kept)
  let g : Flash := lpns.foldl (fun (g : Flash) l => { (g.record 1 l 0) with map := g.map.filter (fun x => x.1 ≠ l) }) f
  let g : Flash := { g with
    extents := kept
    trimmed := g.trimmed ++ gone.map (fun e => (f.seq, e))
    pack := g.pack.filter (fun x => !lpns.contains x.1) }
  let z := ({ s with flash := g.settle s.variant } : State).announceFls s
  gone.foldl (fun z e => z.releaseT2 e.tenant e.stored.charge) z

/-- Free the stored blocks of the owners named. -/
def State.mediaFree (s : State) (p : Owner → Bool) : State := s.mediaFreeExt (fun e => p e.owner)

/-- Store a block in place of what its owner had stored; the old copy stands where the new one is refused (13 R349, R352). -/
def State.mediaReplace (s : State) (off : List Nat) (o : Owner) (t : Nat) (x : Stored) : State × Bool :=
  let old := s.flash.extents.filter (fun e => e.owner == o)
  let (z, ok) := s.mediaPut off o t x
  if ok then (z.mediaFreeExt old.contains, true) else (z, false)

/-- Stored bytes of the owners named. -/
def State.mediaCharge (s : State) (p : Owner → Bool) : Nat := sumNat ((s.flash.extents.filter (fun e => p e.owner)).map (fun e => e.stored.charge))

/-- The LOST pages of a stored block. -/
def State.lostPages (s : State) (e : Extent) : List Nat := e.lpns.filter (fun l => s.flash.map.contains (l, PageAt.lost))

/-- Whether an owner's pages include a LOST one (13 R334, R337). -/
def State.mediaLost (s : State) (p : Owner → Bool) : Bool := s.flash.extents.any (fun e => p e.owner && !(s.lostPages e).isEmpty)

/-- Count the reads of an owner's LOST pages (13 R337). -/
def State.countLost (s : State) (p : Owner → Bool) : State :=
  s.bumpBy 0x000E0044 (sumNat ((s.flash.extents.filter (fun e => p e.owner)).map (fun e => (s.lostPages e).length)))

/-- A stored block of an object that stands for bytes of a range of it. -/
def isObject (kind number off len : Nat) : Owner → Bool
  | .object k n o l => k == kind && n == number && decide (o < off + len) && decide (off < o + l)
  | _ => false

/-! ### Background work (13 R339, R341, R343, R346, R347) -/

/-- Blocks in the free pool. -/
def Flash.freeBlocks (f : Flash) : Nat :=
  f.goodBlocks - (f.blks.filter (fun b => (b.use = .buffer || b.use = .qlc) && (f.die (b.num / 4096)).1 = .good)).length

/-- Whether a block is pinned-class: it lies in the pinned region, or holds a page of a segment of a hot far list (13 R347). -/
def Flash.pinnedClass (f : Flash) (b : Blk) : Bool :=
  inPinned b.num || f.extents.any (fun e => e.stored.far && (match e.owner with | .seg c l _ => f.hot.contains (c, l) | _ => false)
    && e.lpns.any (f.valid b).contains)

/-- A relocation is deferred, once, until the media are unsealed (13 R349, R351). -/
def State.defer (s : State) (n : Nat) : State :=
  ({ s with flash := s.flash.putBlk { s.flash.blk n with deferred := true } }).bump 0x000E005C

/-- Relocate one block, or defer it while the media is sealed (13 R346, R349); a relocation that finds no block seals. -/
def State.relocate (s : State) (n : Nat) (byReads : Bool) : State :=
  if s.flash.sealed then s.defer n
  else
    match s.flash.move s.variant [n] with
    | none => ({ s with flash := s.flash.seal } : State).defer n
    | some f =>
      let s := ({ s with flash := f.settle s.variant }).bump 0x000E0048
      if byReads then s.bump 0x000E004C else s

/-- A retired block whose valid pages are not copied yet (13 R342). -/
def Flash.uncopied (f : Flash) : Option Blk := f.blks.find? (fun b => b.use = .retired && !(f.valid b).isEmpty && (f.die (b.num / 4096)).1 = .good)

/-- Copy the valid pages of a retired block elsewhere; media without a block are sealed (13 R342, R349). -/
def State.copyRetired (s : State) (n : Nat) (use : BlkUse) : State :=
  let f := s.flash
  match f.copyTo s.variant use (f.valid (f.blk n)) with
  | some g => { s with flash := ((g.putBlk { g.blk n with pages := [] }).settleFold s.variant).settle s.variant }
  | none => { s with flash := f.seal }

/-- The full QLC block with the fewest valid pages, when the free pool is short (13 R341). -/
def Flash.garbage (f : Flash) : Option Nat :=
  if f.freeBlocks < 1024 then
    ((sortBy (fun a b => decide ((f.valid a).length < (f.valid b).length))
      (f.blks.filter (fun b => b.use = .qlc && b.pages.length == b.last && !f.filling b.num))).head?).map (fun b => b.num)
  else none

/-- The block whose relocation is due. -/
def Flash.queuedBlk (f : Flash) : Option Blk := f.blks.find? (fun b => b.queued && !(f.sealed && b.deferred))

/-- Whether the controller has work of the classes before patrol: folding, rebuild, relocation, garbage collection (13 R343). -/
def Flash.backWork (f : Flash) : Bool :=
  f.folding || f.dies.any (fun d => d.1 = .rebuilding) || f.uncopied.isSome || f.queuedBlk.isSome || f.garbage.isSome

/-- One unit of background work in the order of 13 R343: folding, then relocation and garbage collection. Work that needs a block and finds
none seals the media (13 R349). -/
def State.background (s : State) : State :=
  let f := s.flash
  if f.stopped then s
  else if f.folding && !f.foldable.isEmpty then { s with flash := (f.fold1 s.variant).getD f.seal }
  else
    match f.uncopied, f.queuedBlk, f.garbage with
    | some b, _, _ => s.copyRetired b.num .qlc
    | none, some b, _ => s.relocate b.num (f.pinnedClass b && decide (b.reads ≥ 50000))
    | none, none, some n => { s with flash := ((f.move s.variant [n]).getD f.seal).settle s.variant }
    | none, none, none => s

/-- A group loses a member: no further page goes to it. -/
def Flash.leave (f : Flash) (p : Nat → Bool) : Flash :=
  let broken (g : Option Group) : Bool := match g with | some g => g.blocks.any p | none => false
  let f := if broken f.bufGroup then f.closeGroup .buffer else f
  if broken f.qlcGroup then f.closeGroup .qlc else f

/-- Pages that lose their source when a die fails while others are being rebuilt: those on either whose stripe has a member on the other (13
R335, R337). -/
def Flash.sourceless (f : Flash) (d : Nat) (others : List Nat) : List Nat :=
  let member (b : Blk) (i e : Nat) : Bool := has (fun x => x.group == b.group && x.group != 0 && x.num / 4096 == e && decide (i < x.pages.length)) f.blks
  f.map.filterMap (fun x => match x.2 with
    | .at p =>
      let b := f.blk (p / 4096)
      let hit := if p / 2 ^ 24 = d then others.any (member b (p % 4096)) else others.contains (p / 2 ^ 24) && member b (p % 4096) d
      if hit then some x.1 else none
    | .lost => none)

/-- A die fails: it is to be rebuilt and takes no further page. Pages whose stripe has lost a second member have no source and are LOST (13
R335 to R337). -/
def State.failDie (s : State) (d : Nat) : State :=
  let f := s.flash
  if (f.die d).1 ≠ .good then s
  else
    let lost := f.sourceless d ((List.range f.dies.length).filter (fun e => (f.die e).1 = .rebuilding))
    let f := (lost.foldl Flash.lose f).leave (fun n => n / 4096 == d)
    let f := { f with dies := f.dies.modify d (fun x => (.rebuilding, x.2)) }
    ({ s with flash := f.settle s.variant } : State).bumpBy 0x000E0044 lost.length

/-- Retire a block: its record and its counts; its valid pages are copied elsewhere, at once unless a supply warning has stopped programs; the
eighth within 1,024 operations on the die fails the die (13 R336, R342, R352). -/
def State.retire (s : State) (n : Nat) : State :=
  let b := s.flash.blk n
  let d := n / 4096
  let f := ((s.flash.leave (fun m => m == n)).putBlk { s.flash.blk n with use := .retired, queued := false }).record 3 (n * 4096) 0
  let f := { f with dies := f.dies.modify d (fun x => (x.1, x.2 + 1)), recentRetires := (d, 0) :: f.recentRetires }
  let eight : Bool := decide ((f.recentRetires.filter (fun x => x.1 = d)).length ≥ 8)
  let s := ({ s with flash := f.settle s.variant }).bump 0x000E0050
  let s := if f.stopped then s else s.copyRetired n (if b.use = .qlc then .qlc else .buffer)
  if eight then s.failDie d else s

/-- One operation on a die passes: retirements older than 1,024 operations no longer count (13 R336). -/
def Flash.operation (f : Flash) (d : Nat) : Flash :=
  { f with recentRetires := (f.recentRetires.map (fun x => if x.1 = d then (x.1, x.2 + 1) else x)).filter (fun x => x.2 < 1024) }

/-- The block the next program of the write buffer goes to. -/
def Flash.nextTarget (v : Variant) (f : Flash) : Option Nat :=
  match f.bufGroup.bind (fun g => (f.pick g [] 1).map (fun m => g.blocks.getD m 0)) with
  | some n => some n
  | none => f.takeFree v

/-- Programs of one write that fail: each retires the block it went to and is tried again on the next (13 R342). -/
def State.failPrograms : Nat → State → State
  | 0, s => s
  | k + 1, s =>
    match s.flash.nextTarget s.variant with
    | some n => State.failPrograms k (s.retire n)
    | none => s

/-! ### The pinned region (13 R331, R332) -/

/-- Write pages into blocks of the pinned region in order, erasing each first where it held something (13 R332, R359). -/
def Flash.writePinned (f : Flash) (blocks : List Nat) (pages : Nat) : Flash :=
  (blocks.zip (List.range blocks.length)).foldl (fun (f : Flash) x =>
    let n := min 1023 (pages - 1023 * x.2)
    if n = 0 then f
    else
      let f := if (f.blk x.1).pages.isEmpty then f else f.erase x.1
      { f.putBlk { f.blk x.1 with use := .pinned, pages := List.replicate n parityPage, reads := 0 } with
        nandBytes := f.nandBytes + 16384 * (n + boolNat (n == 1023)) }) f

/-- The blocks of journal: the open one of a channel, or the least-worn free one (13 R331, R342). -/
def Flash.journalBlk (v : Variant) (f : Flash) (ch : Nat) : Option Nat :=
  let mine := (pinnedRange v.flashDies journalFrom 4).filter (fun n => blockChannel n == ch && (f.die (n / 4096)).1 = .good && (f.blk n).use != .retired)
  match mine.find? (fun n => !(f.blk n).pages.isEmpty && decide ((f.blk n).pages.length < 1023)) with
  | some n => some n
  | none => ((sortBy (fun a b => decide ((f.blk a).erases < (f.blk b).erases)) (mine.filter (fun n => (f.blk n).pages.isEmpty))).head?)

/-- Program one journal page on a channel. -/
def Flash.journalPage (v : Variant) (f : Flash) (ch : Nat) : Flash :=
  match f.journalBlk v ch with
  | none => f
  | some n =>
    let b := f.blk n
    let b' : Blk := { b with use := .pinned, pages := b.pages ++ [parityPage], reads := 0 }
    { f.putBlk b' with nandBytes := f.nandBytes + 16384 + (if b'.pages.length = 1023 then 16384 else 0) }

/-- What a checkpoint slot is written with: map, retired blocks, seal, patrol position, published epochs (13 R332). -/
def State.ckptNow (s : State) : Ckpt :=
  { map := s.flash.map, retired := (s.flash.blks.filter (fun b => b.use = .retired)).map (fun b => b.num), sealed := s.flash.sealed
    patNext := s.flash.patNext, passes := s.flash.passes, epochs := s.colls.map (fun x => (x.number, x.published)), seq := s.flash.seq }

/-- What a record changes of a checkpoint (13 R333); a pass ends where the patrol position falls back (13 R345). -/
def Ckpt.apply (k : Ckpt) (r : JRec) : Ckpt :=
  match r.kind with
  | 0 => { k with map := (r.a, if r.b = 0xFFFFFFFE then PageAt.lost else PageAt.at r.b) :: k.map.filter (fun x => x.1 ≠ r.a) }
  | 1 => { k with map := k.map.filter (fun x => x.1 ≠ r.a) }
  | 2 => { k with epochs := (r.a, r.b) :: k.epochs.filter (fun x => x.1 ≠ r.a) }
  | 3 => { k with retired := k.retired ++ [r.a / 4096] }
  | 4 => { k with sealed := r.a == 1 }
  | _ => { k with patNext := r.a, passes := if r.a < k.patNext then min (k.passes + 1) 4095 else k.passes }

/-- The records that replay takes: up to the first whose CRC fails or whose SEQ breaks the sequence (13 R333). -/
def soundRecords : Nat → List JRec → List JRec
  | _, [] => []
  | n, r :: rs => if r.seq = n && r.crc = r.sum then r :: soundRecords (n + 1) rs else []

/-! ### Media space (13 R328, R329) -/

/-- The parameters of a MEDIA_ command: offset, length, buffer. -/
def mediaRange (c : Cmd) : Nat × Nat × Nat := (c.field 0x10 8, c.field 0x18 4, c.field 0x20 8)

/-- BAD_PARAM of 13 R329. -/
def mediaRangeBad (c : Cmd) : Bool :=
  let (off, len, _) := mediaRange c
  off % 65536 ≠ 0 || off + len > 2 ^ 48 || len = 0 || len > 2 ^ 30

/-- Blocks a range covers: MEDIA_WRITE stores whole blocks. -/
def mediaBlocks (c : Cmd) : List Nat := let (off, len, _) := mediaRange c; (List.range (ceilDiv len 65536)).map (fun i => off / 65536 + i)

/-- A tenant's block of the media space. -/
def isSpace (t b : Nat) (o : Owner) : Bool := o == .space t b

/-- The 64 KiB of a block of a tenant's media space; a block that holds nothing, or a LOST one, reads as zeros (13 R328). -/
def State.spaceBlock (s : State) (t b : Nat) : List Byte :=
  match s.flash.extents.find? (fun e => isSpace t b e.owner) with
  | some e => if (s.lostPages e).isEmpty then e.stored.data else List.replicate 65536 0
  | none => List.replicate 65536 0

/-- A range of a tenant's media space. -/
def State.spaceBytes (s : State) (t off len : Nat) : List Byte :=
  (((List.range (ceilDiv (off % 65536 + len) 65536)).flatMap (fun i => s.spaceBlock t (off / 65536 + i))).drop (off % 65536)).take len

/-- The parity of requests that the host rejects after intake: ABORTED_FAULT (17 R448). -/
def State.reject (s : State) (h : Nat) : State := (s.bump 0x00110014).fail h St.aborted

/-- MEDIA_WRITE: whole blocks, charged, written and journalled; `failed` is a write that three programs failed (13 R328,
R329, R342, R349). Media that come to refuse writes midway refuse the rest; the blocks written stay, and COUNT gives them (R353). A
last block the length does not fill has free values past it (notes/assumptions/19.md). -/
def State.mediaWrite (s : State) (h : Nat) (c : Cmd) (res : WriteResult) : State :=
  let (off, len, buf) := mediaRange c
  if mediaRangeBad c then s.fail h St.badParam
  else
    match s.resolve c.tenant buf len 64 with
    | none => s.fail h St.badParam
    | some key =>
      if s.flash.stopped then s
      else
        let blocks := mediaBlocks c
        let fresh := tierCharges s.fresh blocks.length
        let old := s.mediaCharge (fun o => blocks.any (fun b => isSpace c.tenant b o))
        let q := (s.tenant c.tenant).t2
        let s' := s.draw
        if q.used + fresh > q.limit * 65536 + old then s'.fail h St.quota
        else if s.mediaRefuses then (s'.bump 0x000E0058).fail h St.sealed
        else if s.poisoned key len then s'.fail h St.aborted
        else if res = .failed then (((State.failPrograms 3 s').announceFls s)).fail h St.aborted
        else
          let tail := (List.range (65536 * blocks.length - len)).map (fun i => BitVec.ofNat 8 (Config.free s.fresh (blocks.length + i)))
          let data := s.rd key len ++ tail
          let (z, n) := (blocks.zip (List.range blocks.length)).foldl (fun (acc : State × Nat) x =>
            let (z, n) := acc
            if n < x.2 || z.mediaRefuses then acc
            else
              let (z, ok) := z.mediaReplace [] (.space c.tenant x.1) c.tenant
                (tierStored s.fresh x.2 (65536 * x.1) c.tenant ((data.drop (65536 * x.2)).take 65536))
              (z, n + boolNat ok)) (s', 0)
          let _ := off
          if n < blocks.length then (z.bump 0x000E0058).complete h St.sealed n 0 0 else z.complete h St.ok n 0 0

/-- MEDIA_READ: the blocks and a presence bitmap at the next 64-byte boundary; a LOST block reads as zeros with its bit
clear (13 R328, R329, R337). -/
def State.mediaRead (s : State) (h : Nat) (c : Cmd) : State :=
  let (off, len, buf) := mediaRange c
  let blocks := mediaBlocks c
  let total := roundUp len 64 + ceilDiv blocks.length 8
  if mediaRangeBad c then s.fail h St.badParam
  else
    match s.resolve c.tenant buf total 64 with
    | none => s.fail h St.badParam
    | some key =>
      let lost (b : Nat) : Bool := s.mediaLost (isSpace c.tenant b)
      let bm := blocks.foldr (fun b acc => 2 * acc + boolNat (!lost b)) 0
      let bad := (blocks.filter lost).length
      let z := blocks.foldl (fun s b => s.countLost (isSpace c.tenant b)) s
      let z := (z.wr key (s.spaceBytes c.tenant off len)).wr (key + roundUp len 64) (leBytes (ceilDiv blocks.length 8) bm)
      z.complete h (if bad > 0 then St.part else St.ok) (blocks.length - bad) 0 0

/-- MEDIA_TRIM: blocks go, their charges are released; a block that holds nothing is no error (13 R328). -/
def State.mediaTrim (s : State) (h : Nat) (c : Cmd) : State :=
  let (_, _, buf) := mediaRange c
  if mediaRangeBad c || buf ≠ 0 then s.fail h St.badParam
  else
    let blocks := mediaBlocks c
    (s.mediaFree (fun o => blocks.any (fun b => isSpace c.tenant b o))).complete h St.ok blocks.length 0 0

/-- Whether an older MEDIA_WRITE or MEDIA_TRIM of the tenant past intake touches the range of a command: writes and trims
apply in intake order (13 R353). -/
def State.mediaBlocked (s : State) (c : Cmd) : Bool :=
  let (off, len, _) := mediaRange c
  has (fun x => decide (x.handle < c.handle) && x.tenant == c.tenant && (x.opcode == 0x0801 || x.opcode == 0x0803)
    && (let (o, l, _) := mediaRange x; decide (off < o + l) && decide (o < off + len))) s.cmds

/-- MEDIA_WRITE (13 R328). -/
def execMediaWrite (cmd : Nat) (res : WriteResult) (s : State) : Res :=
  .next (match s.cmdAt cmd 0x0801 0 with
    | some c => if c.legacyOp.isSome || s.mediaBlocked c then s else s.mediaWrite cmd c res
    | none => s)

/-- MEDIA_READ (13 R328). -/
def execMediaRead (cmd : Nat) (s : State) : Res :=
  .next (match s.cmdAt cmd 0x0802 0 with
    | some c => if c.legacyOp.isSome then s else s.mediaRead cmd c
    | none => s)

/-- MEDIA_TRIM (13 R328). -/
def execMediaTrim (cmd : Nat) (s : State) : Res :=
  .next (match s.cmdAt cmd 0x0803 0 with
    | some c => if s.mediaBlocked c then s else s.mediaTrim cmd c
    | none => s)

/-- MEDIA_UNSEAL: clears SEALED and LIMITED when the reserve is above 2%; no effect while the media is not sealed
(13 R351). -/
def execMediaUnseal (cmd : Nat) (s : State) : Res :=
  .next (match s.cmdAt cmd 0x0804 0 with
    | none => s
    | some _ =>
      if !s.flash.sealed then s.complete cmd St.ok 0 0 0
      else if 50 * s.flash.reserve s.variant > s.variant.flashBlocks then
        (({ s with flash := { (s.flash.record 4 0 0) with sealed := false, limited := false, blks := s.flash.blks.map (fun b => { b with deferred := false }) } } : State).announceFls s).complete cmd St.ok 0 0 0
      else s.complete cmd St.sealed 0 0 0)

/-! ### Media events -/

/-- The journal buffer holds a full page for each channel and is programmed in one-bit mode; a failed program retires its
block and the program is retried (13 R331, R342). -/
def execJournalProgram (res : WriteResult) (s : State) : Res :=
  .next (
    let n := 512 * s.variant.flashChannels
    if s.flash.stopped || s.flash.journal.length < n then s
    else
      match res with
      | .failed =>
        match s.flash.journalBlk s.variant 0 with
        | some b => (s.retire b).announceFls s
        | none => s
      | .done =>
        let f := (List.range s.variant.flashChannels).foldl (Flash.journalPage s.variant) s.flash
        { s with flash := { f with durable := f.durable ++ f.journal.take n, journal := f.journal.drop n } })

/-- Map, block table and counters go to the slot not in use, which becomes current once a record names it; the journal before it is freed (13
R332). The size of the block table and the counters is the module's own. -/
def State.checkpoint (s : State) : State :=
  let slot := 1 - s.flash.ckptSlot
  let pages := ceilDiv (4 * s.variant.logicalPages + Config.tableBytes) 16384
  let f := s.flash.writePinned (pinnedRange s.variant.flashDies (ckptFrom slot) 4) pages
  let old := (pinnedRange s.variant.flashDies journalFrom 4).filter (fun n => (f.blk n).use = .pinned)
  let f := old.foldl Flash.erase f
  { s with flash := { f with
    ckptSlot := slot, ckptNamed := true, ckpt := s.ckptNow, durable := [], journal := [], trimmed := [], sinceCkpt := 0 } }

/-- MAP_CHECKPOINT: the journal has reached 1 GiB (13 R332). -/
def execMapCheckpoint (s : State) : Res := .next (if s.flash.sinceCkpt < 2 ^ 30 || s.flash.stopped then s else s.checkpoint)

/-- A page read completes: soft decode, stripe rebuild, or the page is marked LOST; the block is queued for relocation,
and every read counts toward its block; a page of a die being rebuilt is served from its stripe (13 R334, R336, R337, R346, R347). -/
def execNandReadDone (lpn : Nat) (res : ReadResult) (codewords : Nat) (s : State) : Res :=
  .next (match s.flash.map.find? (fun x => x.1 == lpn) with
    | none => s
    | some (_, .lost) => s.bump 0x000E0044
    | some (_, .at ppn) =>
      let down : Bool := (s.flash.die (ppn / 2 ^ 24)).1 ≠ .good
      let res : ReadResult := if down && res ≠ .lost then .rebuilt else res
      let codewords := if down then 0 else codewords
      let b := s.flash.blk (ppn / 4096)
      let pinned := s.flash.pinnedClass b
      let reads := b.reads + 1
      let queue := res ≠ .hard || (pinned && decide (reads ≥ 50000))
      let f := s.flash.putBlk { b with reads := reads, queued := b.queued || queue }
      let f := if !pinned && reads = 50000 then { f with patEarly := f.patEarly ++ [b.num] } else f
      let s := { s with flash := f.operation (b.num / 4096) }
      match res with
      | .hard => s
      | .soft => s.bumpBy 0x000E003C (min codewords 4)
      | .rebuilt => (s.bumpBy 0x000E003C (min codewords 4)).bump 0x000E0040
      | .lost => (({ s with flash := s.flash.lose lpn }).bumpBy 0x000E003C (min codewords 4)).bump 0x000E0044)

/-- A program or erase in a block completes, and the next background work runs; or it fails and its block retires
(13 R339, R341, R342, R346). -/
def execNandProgramDone (block : Nat) (res : WriteResult) (s : State) : Res :=
  .next (
    if !s.flash.eligible s.variant block || (s.flash.blk block).use = .retired then s
    else
      let old := s
      let s := { s with flash := s.flash.operation (block / 4096) }
      match res with
      | .done => s.background.announceFls old
      | .failed => (s.retire block).announceFls old)

/-- A flash die stops answering: REBUILDING (13 R336, R337). -/
def execDieFail (die : Nat) (s : State) : Res :=
  .next (
    if (s.flash.die die).1 ≠ .good then s
    else (s.failDie die).announceFls s)

/-- Every valid page of the die is rebuilt onto the others, and its state becomes FAILED; folding is served first, and media without a block are
sealed (13 R336, R343, R349). -/
def execDieRebuildDone (die : Nat) (s : State) : Res :=
  .next (
    if (s.flash.die die).1 ≠ .rebuilding || s.flash.stopped || s.flash.folding then s
    else
      let mine := s.flash.blks.filter (fun b => b.num / 4096 == die)
      let copy (o : Option Flash) (b : Blk) : Option Flash :=
        o.bind (fun f => f.copyTo s.variant (if b.use = .qlc then .qlc else .buffer) (f.valid b))
      match mine.foldl copy (some s.flash) with
      | none => ({ s with flash := s.flash.seal } : State).announceFls s
      | some f =>
        let f := mine.foldl (fun (f : Flash) b => f.putBlk { b with use := .retired, pages := [] }) f
        let f := { f with dies := f.dies.modify die (fun x => (.failed, x.2)) }
        ({ s with flash := (f.settleFold s.variant).settle s.variant } : State).announceFls s)

/-- A patrol step reads BLOCKS blocks, early ones first; a block with a codeword corrected beyond RELOC_BITS is queued; the
position is journalled every 4,096 blocks. Patrol is served last, after the other background work (13 R343, R345 to R347). `corrected` gives each
read block's worst codeword. -/
def execPatrolStep (corrected : List Nat) (s : State) : Res :=
  .next (
    if s.flash.stopped || s.flash.backWork then s
    else
      let f := s.flash
      let early := f.patEarly.take f.patBlocks
      let n := f.patBlocks - early.length
      let total := s.variant.flashBlocks
      let regular := (List.range n).map (fun i => (f.patNext + i) % total)
      let read := (early ++ regular).zip (List.range f.patBlocks)
      let f := read.foldl (fun f x =>
        let b := f.blk x.1
        if (f.valid b).isEmpty then f
        else f.putBlk { b with queued := b.queued || decide (corrected.getD x.2 0 > f.relocBits) }) f
      let next := f.patNext + n
      let f := if next / 4096 ≠ f.patNext / 4096 then f.record 5 (next % total) 0 else f
      { s with flash := { f with
        patEarly := f.patEarly.drop early.length
        patNext := next % total
        passes := if next ≥ total then min (f.passes + 1) 4095 else f.passes } })

/-- After a supply warning, once in-flight programs have finished, the journal buffer and open-stripe parity are
programmed in one-bit mode (13 R335, R352). -/
def State.holdup (s : State) : State :=
  let f := s.flash
  let pages := ceilDiv (32 * f.journal.length) 16384
  let f := (f.closeGroup .buffer).closeGroup .qlc
  { s with flash := { f with
    durable := f.durable ++ f.journal
    journal := []
    nandBytes := f.nandBytes + 16384 * pages
    holdupFlush := f.holdupFlush + 1 } }

/-- The hold-up flush runs while programs are stopped by the warning (13 R352). -/
def execHoldupFlush (s : State) : Res := .next (if s.flash.stopped then s.holdup else s)

end Sys2Proof.Machine
end

