-- ==== Sys2Proof/Machine/Embed.lean ====
section
/-!
DEFINITION. Embedding tables across the cell: rows, ownership, the row cache, lookups, the exchange, updates and
checkpoints (11).
-/
namespace Sys2Proof.Machine

/-! ### Descriptors (11 R275 to R277) -/

def embRows (d : List Byte) : Nat := fieldOf d 0 8
def embDim (d : List Byte) : Nat := fieldOf d 8 2
def embWb (d : List Byte) : Nat := if fieldOf d 0xA 1 = 1 then 2 else 4
def embOpt (d : List Byte) : Nat := fieldOf d 0xB 1
def embFrozen (d : List Byte) : Bool := bitAt (fieldOf d 0xD 1) 0
def embCreate (d : List Byte) : Bool := bitAt (fieldOf d 0xD 1) 1
def embMembers (d : List Byte) : List Nat := (List.range 64).filter (fun m => bitAt (fieldOf d 0x20 8) m)

/-- Optimiser state bytes per weight, and words per row (11 R276). -/
def embSb (d : List Byte) : Nat := 4 * embOpt d
def embState (d : List Byte) : Nat := embDim d * embOpt d

/-- STRIDE (11 R276) and OUT_STRIDE (11 R282). -/
def embStride (d : List Byte) : Nat := roundUp (16 + roundUp (embDim d * embWb d) 16 + embDim d * embSb d) 64
def embOut (d : List Byte) : Nat := roundUp (embDim d * embWb d) 64

/-- The low 64 bits of SHA-256 over the descriptor: its last 8 bytes, the most significant first (11 R275). -/
def embDigest (d : List Byte) : BitVec 64 := BitVec.ofNat 64 (leNat ((sha256 d).drop 24).reverse)

/-- Whether a descriptor passes MODEL_LOAD's checks for a cell of at most `n` members (11 R275, R277). -/
def embDescOk (n table : Nat) (d : List Byte) : Bool :=
  let beta (off : Nat) : Bool :=
    let v := ofF32 (BitVec.ofNat 32 (fieldOf d off 4))
    v.isFin && (FVal.num false 0 0).le v && v.lt (.num false 1 0)
  let eps := ofF32 (BitVec.ofNat 32 (fieldOf d 0x10 4))
  decide (1 ≤ embRows d) && decide (embRows d ≤ 2 ^ 40) && decide (1 ≤ embDim d) && decide (embDim d ≤ 1024)
    && decide (fieldOf d 0xA 1 ≤ 1) && decide (embOpt d ≤ 2) && fieldOf d 0xC 1 == table && decide (table ≤ 255)
    && decide (fieldOf d 0xD 1 ≤ 3) && decide (1 ≤ fieldOf d 0xE 2)
    && (embOpt d == 0 || (FVal.num false 0 0).lt eps)
    && (if embOpt d = 2 then beta 0x14 && beta 0x18 else zeroRange d 0x14 8)
    && zeroRange d 0x1C 4 && zeroRange d 0x30 16 && !(embMembers d).isEmpty && decide ((embMembers d).length ≤ 37)
    && (embMembers d).all (fun m => decide (m < n)) && decide (embStride d ≤ 4096)

/-! ### Ownership (11 R279, R280) -/

/-- The slot hash of a row. -/
def embHash (salt table row : Nat) : Nat :=
  let m := 2 ^ 64
  let z := (row ^^^ salt ^^^ (table * 0x9E3779B97F4A7C15 % m)) % m
  let z := (z ^^^ (z / 2 ^ 30)) * 0xBF58476D1CE4E5B9 % m
  let z := (z ^^^ (z / 2 ^ 27)) * 0x94D049BB133111EB % m
  z ^^^ (z / 2 ^ 31)

/-- The slot and the owner of a row of a table. -/
def EmbTable.slot (t : EmbTable) (row : Nat) : Nat := embHash (fieldOf t.desc 0x28 8) t.number row % max t.remap.length 1
def EmbTable.owner (t : EmbTable) (row : Nat) : Nat := t.remap.getD (t.slot row) 0

/-- Whether a member is in this module's set, as the last membership change left it; an isolated module reaches no other (16 R429, R431). -/
def State.inCell (s : State) (m : Nat) : Bool := m == s.me || (bitAt s.cell.members.toNat m && !s.cell.isolated)

/-- The owner of a slot that no member of MEMBERS is left for (11 R280). -/
def noOwner : Nat := 255

/-! ### Tables and their charges (11 R278) -/

/-- A table by number, and one the tenant owns. -/
def State.table? (s : State) (n : Nat) : Option EmbTable := s.embed.tables.find? (fun t => t.number == n)
def State.tableFor (s : State) (tenant n : Nat) : Option EmbTable := (s.table? n).filter (fun t => t.tenant == tenant)

/-- Change the table with a number, and the exchange with a batch number. -/
def State.updTable (s : State) (n : Nat) (f : EmbTable → EmbTable) : State :=
  s.updEmbed (fun z => { z with tables := updWhere (fun t => t.number == n) f z.tables })
def State.updExchange (s : State) (b : Nat) (f : Exchange → Exchange) : State :=
  s.updEmbed (fun z => { z with waiting := updWhere (fun x => x.batch == b) f z.waiting })

/-- T1 bytes of so many rows with their directory, in pages, and of the rows present with those that a LOAD has been accepted for (11 R278,
R295, 12 R318, notes/assumptions/23.md). -/
def embT1 (d : List Byte) (n : Nat) : Nat := roundUp (n * (embStride d + 16)) 65536
def EmbTable.t1Need (t : EmbTable) : Nat :=
  embT1 t.desc (dedup (t.rows.map (fun r => r.id) ++ t.steps.flatMap (fun o => o.rows.map (fun x => x.2.id)))).length

/-- Put a changed table back, with its T1 charge. -/
def State.putTable (s : State) (t : EmbTable) : State :=
  let need := t.t1Need
  let s := (s.chargeT1 t.tenant (need - t.t1Bytes)).releaseT1 t.tenant (t.t1Bytes - need)
  s.updTable t.number (fun _ => { t with t1Bytes := need })

/-! ### The row cache (11 R285) -/

/-- Rows of a cache set, least recently used first. -/
def State.cacheSet (s : State) (n : Nat) : List (Nat × Nat) := s.embed.cache.filter (fun x => Config.embSet x.1 x.2 == n)

/-- A row's estimate: the least of its four sketch counters. -/
def State.sketchOf (s : State) (t r : Nat) : Nat :=
  ((List.range 4).map (fun j => sparseGet 0 (16384 * j + Config.sketchIdx j t r % 16384) s.embed.sketch)).foldl min 15

/-- Halve every counter when 2^SKETCH_SHIFT accesses have been counted (11 R285). -/
def Embed.halve (z : Embed) : Embed :=
  if z.accesses < 2 ^ z.sketchShift then z
  else { z with
    accesses := z.accesses - 2 ^ z.sketchShift
    sketch := (z.sketch.map (fun x => (x.1, x.2 / 2))).filter (fun x => x.2 ≠ 0) }

/-- Count a lookup of a row in the sketch; a halving that is due comes first (11 R285). -/
def State.sketchAdd (s : State) (t r : Nat) : State :=
  s.updEmbed (fun z =>
    let z := z.halve
    { z with
      accesses := z.accesses + 1
      sketch := (List.range 4).foldl (fun l j =>
        let i := 16384 * j + Config.sketchIdx j t r % 16384
        sparsePut 0 i (min 15 (sparseGet 0 i l + 1)) l) z.sketch })

/-- A cached row whose parity fails is discarded, to be read again from T1 or from its owner; the Bool is the repair (11 R285). -/
def State.discardBad (s : State) (t r : Nat) : State × Bool :=
  if s.embed.cacheBad.contains (t, r) then
    ((s.bump 0x000C0054).updEmbed (fun z => { z with
      cacheBad := z.cacheBad.filter (fun x => x ≠ (t, r)), cache := z.cache.filter (fun x => x ≠ (t, r)) }), true)
  else (s, false)

/-- A row becomes the most recently used of its set. -/
def State.cachePut (s : State) (t r : Nat) : State :=
  s.updEmbed (fun z => { z with cache := z.cache.filter (fun x => x ≠ (t, r)) ++ [(t, r)] })

/-- A row that missed and was read meets the cache: an admission, or a refused one (11 R285). -/
def State.cacheAdmit (s : State) (t r : Nat) : State :=
  if s.embed.cache.contains (t, r) then s.cachePut t r
  else
    match s.cacheSet (Config.embSet t r) with
    | v :: rest =>
      if rest.length < 15 then s.cachePut t r
      else if s.sketchOf t r ≤ s.sketchOf v.1 v.2 then s.bump 0x000C0028
      else (s.updEmbed (fun z => { z with cache := z.cache.filter (fun x => x ≠ v) })).cachePut t r
    | [] => s.cachePut t r

/-- A row that is read through the cache: a hit, or a miss (11 R284, R285). -/
def State.cacheRow (s : State) (t r : Nat) : State :=
  if s.embed.cache.contains (t, r) then (s.cachePut t r).bump64 0x000C0020 1 else s.cacheAdmit t r

/-- SKETCH_HALVE: after 2^SKETCH_SHIFT accesses every counter is halved, before the next access counts (11 R285). -/
def execSketchHalve (s : State) : Res := .next (s.updEmbed Embed.halve)

/-- EMB_CTRL: SKETCH_SHIFT outside 12 to 24 is ignored and sets ERR (11 R300). -/
def execEmbCtrlWrite (v : Word) (s : State) : Res :=
  .next (if !s.up then s else s.updEmbed (fun z =>
    let n := bits v.toNat 4 0
    if n < 12 || n > 24 then { z with err := true } else { z with err := z.err && !bitAt v.toNat 31, sketchShift := n }))

/-! ### Messages (11 R287) -/

/-- The 64-byte header. -/
def embHeader (kind table src dst count digest step batch part flags accepted dropped : Nat) : List Byte :=
  leBytes 1 kind ++ leBytes 1 table ++ leBytes 1 src ++ leBytes 1 dst ++ leBytes 4 count ++ leBytes 8 digest ++ leBytes 8 step
    ++ leBytes 4 batch ++ leBytes 2 part ++ leBytes 1 flags ++ leBytes 1 0 ++ leBytes 4 accepted ++ leBytes 4 dropped
    ++ leBytes 8 0 ++ leBytes 8 0 ++ leBytes 8 0

/-- Whether a message is one of a kind that this module should take: its kind, its receiver, a sender of the cell. -/
def State.takes (s : State) (kind : Nat) (m : List Byte) : Bool :=
  s.up && decide (64 ≤ m.length) && fieldOf m 0 1 == kind && fieldOf m 3 1 == s.me && fieldOf m 2 1 != s.me && s.inCell (fieldOf m 2 1)

/-- A message that this module does not take: one of a module that left the set and was fenced carries an old generation, and is refused (15
R392). -/
def State.refuse (s : State) (kind : Nat) (m : List Byte) : State :=
  let src := fieldOf m 2 1
  let h := holderId 6 src
  if s.up && decide (64 ≤ m.length) && fieldOf m 0 1 == kind && fieldOf m 3 1 == s.me && src != s.me && decide (src ≤ 36)
      && !s.inCell src && decide (0 < s.generation h) then s.fltBump 0x000F0030 h 0 (s.generation h)
  else s

/-- The weights of a row as an output row: WFMT patterns padded to OUT_STRIDE (11 R282). -/
def embOutRow (d : List Byte) (w : List Word) : List Byte :=
  let b := w.flatMap (fun x => leBytes (embWb d) x.toNat)
  b ++ List.replicate (embOut d - b.length) 0

/-- A presence bitmap of `n` bytes. -/
def embBitmap (n : Nat) (l : List Bool) : List Byte :=
  (List.range n).map (fun j => BitVec.ofNat 8 (leNatBits ((List.range 8).map (fun b => l.getD (8 * j + b) false))))
where leNatBits (l : List Bool) : Nat := l.foldr (fun b n => boolNat b + 2 * n) 0

/-- Row ids of one request, so that its response fits in 1 MiB (notes/assumptions/23.md). -/
def embPartRows (d : List Byte) : Nat := min 131072 ((2 ^ 20 - 16384) / max (embOut d) 1)

/-! ### Lookups (11 R281 to R286) -/

/-- Cut the first pass off indices: at most 1,048,576 distinct values, in index order; the lists are the pass's distinct values and the
pass so far, the last first (11 R283). -/
def embPass : List Nat → List Nat → List Nat → List Nat × List Nat
  | _, acc, [] => (acc.reverse, [])
  | cur, acc, i :: is =>
    if cur.contains i then embPass cur (i :: acc) is
    else if cur.length < 1048576 then embPass (i :: cur) (i :: acc) is
    else (acc.reverse, i :: is)

/-- The row of a table as its owner reads it; none where it is missing (11 R281). -/
def EmbTable.present (t : EmbTable) (r : Nat) : Option (List Word) :=
  if t.emptySlots.contains (t.slot r) then none else (t.rows.find? (fun x => x.id == r)).map (fun x => x.w)

/-- What a generation is stored as: its remap table, padded, then its rows (11 R296, notes/assumptions/23.md). -/
def EmbGen.head (g : EmbGen) : Nat := roundUp g.remap.length 64
/-- The stored blocks that a row of a table's current generation lies in. -/
def EmbTable.rowBlocks (t : EmbTable) (r : Nat) (o : Owner) : Bool :=
  match indexWhere (fun x => x.id == r) t.ckpt.rows with
  | none => false
  | some i =>
    let at' := t.ckpt.head + i * embStride t.desc
    match o with
    | .table n g b => n == t.number && g == t.ckptGen && decide (at' / 65536 ≤ b) && decide (b ≤ (at' + embStride t.desc - 1) / 65536)
    | _ => false

/-- Read a row back from the current generation; a row in a LOST page is gone with its page (11 R297, 13 R329, R337). -/
def State.restoreRow (s : State) (n r : Nat) : State :=
  match s.table? n with
  | none => s
  | some t =>
    let rest := t.rows.filter (fun x => x.id ≠ r)
    let t' : EmbTable := { t with rows := rest, unbuilt := t.unbuilt.filter (fun i => i ≠ r) }
    if s.mediaLost (t.rowBlocks r) then (s.countLost (t.rowBlocks r)).putTable t'
    else (s.bump 0x000C004C).putTable { t' with rows := rest ++ (t.ckpt.rows.find? (fun x => x.id == r)).toList }

/-- Rows met before they were rebuilt after a reset are read back first; the Bool is whether one was (11 R297). The stall for it is time alone
(notes/assumptions/23.md). -/
def State.rebuildRows (s : State) (n : Nat) (ids : List Nat) : State × Bool :=
  let due := match s.table? n with | some t => t.unbuilt.filter ids.contains | none => []
  (due.foldl (fun s r => s.restoreRow n r) s, !due.isEmpty)

/-- A row whose T1 line failed: it is restored, and the work that waits for it marked (11 R297). -/
def State.revertRow (s : State) (n r : Nat) : State :=
  (s.embed.waiting.filter (fun x => x.table == n && (x.pass.contains r || x.rest.contains r))).foldl
    (fun s x => s.recoveredWaiter x.who) (s.restoreRow n r)

/-- Write the output and the presence bitmap of a lookup (11 R282). -/
def Exchange.output (x : Exchange) : List Byte :=
  x.rows.flatMap (fun w => embOutRow x.desc (w.getD [])) ++ embBitmap (ceilDiv x.indices.length 8) (x.rows.map Option.isSome)

/-- The rows of a pass whose requests are all answered, at every position that holds their index (11 R283). -/
def Exchange.endPass (x : Exchange) : Exchange :=
  { x with
    rows := x.rows ++ x.pass.map (fun i => (x.got.find? (fun g => g.1 == i)).map (fun g => g.2)), pass := [], got := [] }

/-- A lookup that has taken its last pass completes (11 R282, R286). -/
def State.endLookup (s : State) (x : Exchange) : State :=
  let s := s.updEmbed (fun z => { z with waiting := z.waiting.filter (fun y => y.batch ≠ x.batch) })
  let found := (x.rows.filter Option.isSome).length
  let invalid := (x.indices.filter (fun i => decide (embRows x.desc ≤ i))).length
  let s := (s.bumpBy 0x000C002C invalid).bumpBy 0x000C0030 (x.indices.length - found - invalid)
  let status := if found = x.indices.length then St.ok else St.part
  match x.who with
  | .issue k => (s.wrTva x.tenant x.stock x.data x.output).finishIssue k status found
  | .cmd h =>
    match s.resolve x.tenant x.data x.output.length 64 with
    | some key => (s.wr key x.output).complete h status found 0 0
    | none => s.reject h

/-- The next pass of a lookup: each distinct valid index counts as an access and is read once: own rows and the cached rows of a FROZEN table
through the cache, one request per owner and part for the rest (11 R283 to R285, R287). -/
def State.beginPass (s : State) (x : Exchange) : State :=
  let (pass, rest) := embPass [] [] x.rest
  let batch := s.embed.nextBatch
  let distinct := dedup pass
  let s := (s.bump64 0x000C0018 distinct.length).updEmbed (fun z => { z with nextBatch := (batch + 1) % 2 ^ 32 })
  let place (s : State) (asked : List (Nat × Nat × List Nat)) (got : List (Nat × List Word)) : State :=
    s.updExchange x.batch (fun y => { y with batch := batch, pass := pass, rest := rest, asked := asked, got := got })
  let (s, rebuilt) := s.rebuildRows x.table distinct
  match (s.table? x.table).filter (fun t => t.desc == x.desc) with
  | none => place s [] []
  | some t =>
    let d := t.desc
    let ids := sortBy (fun a b => decide (a < b)) (distinct.filter (fun i => decide (i < embRows d)))
    let s := ids.foldl (fun s r => s.sketchAdd t.number r) s
    let (s, mended) := ids.foldl (fun (a : State × Bool) r => let (s, b) := a.1.discardBad t.number r; (s, a.2 || b)) (s, rebuilt)
    let s := if mended then s.recoveredWaiter x.who else s
    let mine := ids.filter (fun r => t.owner r == s.me)
    let held (r : Nat) : Option (Nat × List Word) :=
      if s.embed.cache.contains (t.number, r) then t.remote.find? (fun g => g.1 == r) else none
    let cached := if embFrozen d then ids.filter (fun r => t.owner r ≠ s.me && (held r).isSome) else []
    let far := ids.filter (fun r => t.owner r ≠ s.me && !cached.contains r && s.inCell (t.owner r))
    let n := embPartRows d
    let asked := (dedup (far.map t.owner)).flatMap (fun o =>
      let l := far.filter (fun r => t.owner r == o)
      let ps := chunks n (l.length / max n 1 + 1) l
      (List.range ps.length).map (fun p => (o, p, ps.getD p [])))
    let got := mine.filterMap (fun r => (t.present r).map (fun w => (r, w))) ++ cached.filterMap held
    let s := (got.map (fun g => g.1)).foldl (fun s r => s.cacheRow t.number r) (place s asked got)
    asked.foldl (fun s a => s.send a.1 2 (embHeader 1 t.number s.me a.1 a.2.2.length t.digest.toNat 0 batch a.2.1 0 0 0
      ++ a.2.2.flatMap (leBytes 8))) s

/-- A lookup goes on from pass to pass as long as nothing is awaited; `fuel` bounds the passes (11 R283, R286). -/
def State.runPasses : Nat → State → Nat → State
  | 0, s, _ => s
  | fuel + 1, s, batch =>
    match s.embed.waiting.find? (fun x => x.batch == batch) with
    | none => s
    | some x =>
      if !x.asked.isEmpty then s
      else
        let y := x.endPass
        if y.rest.isEmpty then s.endLookup y
        else State.runPasses fuel ((s.updExchange batch (fun _ => y)).beginPass y) s.embed.nextBatch

/-- A pass whose requests are all answered is followed by the next, and the lookup completes with its last (11 R283, R286); an update
completes whose owners have all answered (11 R294). -/
def State.settleExchange (s : State) (batch : Nat) : State :=
  match s.embed.waiting.find? (fun x => x.batch == batch) with
  | none => s
  | some x =>
    if !x.asked.isEmpty || !x.owners.isEmpty then s
    else if x.update then
      (s.updEmbed (fun z => { z with waiting := z.waiting.filter (fun y => y.batch ≠ batch) })).completeWaiter x.who
        (if x.dropped then St.part else St.ok) x.accepted 0
    else State.runPasses (x.rest.length + 1) s batch

/-- A lookup starts with its first pass (11 R282, R283). -/
def State.startLookup (s : State) (who : Waiter) (tenant : Nat) (stock : Bool) (t : EmbTable) (indices : List Nat) (data : Nat) : State :=
  let batch := s.embed.nextBatch
  let x : Exchange :=
    { who := who, tenant := tenant, stock := stock, table := t.number, desc := t.desc, batch := batch, update := false
      indices := indices, data := data, pass := [], rest := indices, rows := [], asked := [], got := [], owners := [], accepted := 0
      dropped := false }
  let s := (s.bump64 0x000C0010 indices.length).updEmbed (fun z => { z with nextBatch := (batch + 1) % 2 ^ 32, waiting := z.waiting ++ [x] })
  s.settleExchange batch

/-- The checks LOOKUP shares: a table of the tenant, a count in range (11 R282). -/
def embCountOk (n : Nat) : Bool := decide (1 ≤ n) && decide (n ≤ 16777216)

/-- Bytes a lookup of `n` indices writes (11 R282). -/
def embOutBytes (d : List Byte) (n : Nat) : Nat := n * embOut d + ceilDiv n 8

/-- The 64-bit indices at a byte list. -/
def embIndices (n : Nat) (b : List Byte) : List Nat := (List.range n).map (fun i => fieldOf b (8 * i) 8)

/-- EMB_LOOKUP once past intake (11 R282, 18 R488). -/
def State.embLookup (s : State) (h : Nat) (c : Cmd) : State :=
  let n := c.field 0x14 4
  match s.tableFor c.tenant (c.field 0x10 1) with
  | none => s.fail h St.badParam
  | some t =>
    match s.resolve c.tenant (c.field 0x18 8) (8 * n) 8, s.resolve c.tenant (c.field 0x20 8) (embOutBytes t.desc n) 64 with
    | some k, some _ =>
      if !embCountOk n then s.fail h St.badParam
      else if s.poisoned k (8 * n) then s.fail h St.aborted
      else (s.updCmd h (fun c => { c with stage := 1 })).startLookup (.cmd h) c.tenant true t (embIndices n (s.rd k (8 * n))) (c.field 0x20 8)
    | _, _ => s.fail h St.badParam

/-- EMB_LOOKUP (11 R282). -/
def execEmbLookup (cmd : Nat) (s : State) : Res :=
  .next (match s.cmdAt cmd 0x0701 0 with
    | some c => if c.legacyOp.isSome then s else s.embLookup cmd c
    | none => s)

/-- GATHER LOOKUP: the same from a unit issue, its addresses in the tenant's space (04 R111, 11 R282). -/
def execGatherLookup (k : IssueKey) (s : State) : Res :=
  .next (match s.issueAt k 7 1 with
    | none => s
    | some u =>
      let b := u.body
      let n := fieldOf b 4 4
      match s.tableFor u.tenant (fieldOf b 0 2) with
      | none => s.finishIssue k St.badParam 0
      | some t =>
        if !embCountOk n || fieldOf b 2 2 ≠ 0 || fieldOf b 0x18 8 ≠ 0 || !bodyTailZero u 0x20 then s.finishIssue k St.badParam 0
        else
          s.onCheck k (worstCheck [s.unitCheck u .load (fieldOf b 8 8) (8 * n) 8,
              s.unitCheck u .store (fieldOf b 0x10 8) (embOutBytes t.desc n) 64])
            (fun s => (s.beginIssue k).startLookup (.issue k) u.tenant u.stock t
              (embIndices n (s.rdTva u.tenant u.stock (fieldOf b 8 8) (8 * n))) (fieldOf b 0x10 8)))

/-- A LOOKUP_REQ at the owner: present rows with their bitmap, or every entry dropped under a foreign digest (11 R284,
R287, R288). -/
def State.recvLookupReq (s : State) (m : List Byte) : State :=
  if !s.takes 1 m then s.refuse 1 m
  else
    let src := fieldOf m 2 1
    let n := fieldOf m 4 4
    let ids := embIndices n (m.drop 64)
    let known (t : EmbTable) : Bool := t.digest.toNat == fieldOf m 8 8
    let s := if has known (s.table? (fieldOf m 1 1)).toList then (s.rebuildRows (fieldOf m 1 1) ids).1 else s
    let t := (s.table? (fieldOf m 1 1)).filter known
    let rows : List (Option (List Word)) := match t with
      | some t => ids.map (fun r => if t.owner r = s.me then t.present r else none)
      | none => ids.map (fun _ => none)
    let s := if t.isNone then s.bump 0x000C0034 else s
    let found := (rows.filter Option.isSome).length
    let d := match t with | some t => t.desc | none => []
    s.send src 1 (embHeader 2 (fieldOf m 1 1) s.me src n (fieldOf m 8 8) 0 (fieldOf m 0x18 4) (fieldOf m 0x1C 2) 0 found
      (n - found) ++ embBitmap (ceilDiv n 64 * 8) (rows.map Option.isSome)
      ++ rows.flatMap (fun r => match r with | some w => embOutRow d w | none => []))

/-- LOOKUP_REQ arrives (11 R287). -/
def execLookupReq (msg : List Byte) (s : State) : Res := .next (s.recvLookupReq msg)

/-- Weights of an output row. -/
def embWeights (d b : List Byte) : List Word := (List.range (embDim d)).map (fun i => BitVec.ofNat 32 (fieldOf b (embWb d * i) (embWb d)))

/-- The rows a response brings for the ids asked: bitmap first, present rows after it (11 R287). -/
def embAnswers (d b : List Byte) (n : Nat) : List Nat → Nat → Nat → List (Nat × List Word)
  | [], _, _ => []
  | r :: rs, i, k =>
    if bitAt ((b.getD (i / 8) 0).toNat) (i % 8) then
      (r, embWeights d (b.drop (ceilDiv n 64 * 8 + k * embOut d))) :: embAnswers d b n rs (i + 1) (k + 1)
    else embAnswers d b n rs (i + 1) k

/-- Whether a response or an acknowledgement carries another digest than the table it was asked of (11 R288). -/
def State.foreign (s : State) (x : Option Exchange) (m : List Byte) : Bool :=
  match x with
  | some x => (embDigest x.desc).toNat != fieldOf m 8 8
  | none => match s.table? (fieldOf m 1 1) with
    | some t => t.digest.toNat != fieldOf m 8 8
    | none => false

/-- A LOOKUP_RSP: its rows answer their request, once; a foreign digest discards it (11 R287, R288, 16 R428). Rows of a FROZEN table may enter
the cache (11 R284). -/
def State.recvLookupRsp (s : State) (m : List Byte) : State :=
  if !s.takes 2 m then s.refuse 2 m
  else
    let src := fieldOf m 2 1
    let part := fieldOf m 0x1C 2
    let x := s.embed.waiting.find? (fun x => x.batch == fieldOf m 0x18 4 && !x.update)
    if s.foreign x m then s.bump 0x000C0034
    else
      match x with
      | none => s.bump 0x00100034
      | some x =>
        match x.asked.find? (fun a => a.1 == src && a.2.1 == part) with
        | none => s.bump 0x00100034
        | some a =>
          let rows := embAnswers x.desc (m.drop 64) a.2.2.length a.2.2 0 0
          let s := s.updExchange x.batch (fun y => { y with
            asked := y.asked.filter (fun b => !(b.1 == src && b.2.1 == part)), got := y.got ++ rows })
          let s := match (s.table? x.table).filter (fun t => embFrozen t.desc && t.desc == x.desc) with
            | none => s
            | some t =>
              let s := s.updTable t.number (fun (y : EmbTable) =>
                { y with remote := y.remote.filter (fun (g : Nat × List Word) => !rows.any (fun r => r.1 == g.1)) ++ rows })
              rows.foldl (fun (s : State) (r : Nat × List Word) => s.cacheAdmit x.table r.1) s
          s.settleExchange x.batch

/-- LOOKUP_RSP arrives (11 R287). -/
def execLookupRsp (msg : List Byte) (s : State) : Res := .next (s.recvLookupRsp msg)

/-! ### Steps at the owner (11 R291 to R296) -/

/-- Bytes an entry takes in a message and in the combine buffer: an UPDATE entry, or a whole row (11 R287). -/
def embEntry (d : List Byte) (load : Bool) : Nat := if load then embStride d else roundUp (8 + 4 * embDim d) 64

/-- Combine buffer bytes of an open step, and of all (11 R291). -/
def OpenStep.bytes (d : List Byte) (o : OpenStep) : Nat := o.sums.length * embEntry d false + o.rows.length * embEntry d true
/-- Rows staged for checkpoints: as the checkpoint needs them, where later steps have changed them (11 R296, notes/assumptions/23.md). -/
def EmbTable.staged (t : EmbTable) : List EmbRow :=
  (dedup ((t.ckptDue.toList ++ t.ckptNew.toList).flatMap (fun c => c.rows))).filter (fun r => !t.rows.contains r)
def State.combineUsed (s : State) : Nat :=
  sumNat (s.embed.tables.map (fun t => sumNat (t.steps.map (fun o => o.bytes t.desc)) + t.staged.length * embStride t.desc))

/-- One weight's patterns: WFMT to FP32 and back by round-to-nearest-even (11 R291). -/
def embVal (d : List Byte) (w : Word) : FVal := if embWb d = 2 then ofF32 (BitVec.ofNat 32 (w.toNat * 65536)) else ofF32 w
def embPat (d : List Byte) (v : FVal) : Word := if embWb d = 2 then BitVec.ofNat 32 (Fmt.bf16.encode v) else toF32 v

/-- One minus a value, and a power, in FP32 operations (notes/assumptions/23.md). -/
def oneMinus (v : FVal) : FVal := ((FVal.num false 1 0).add v.neg).r32
def powF32 (b : FVal) : Nat → FVal
  | 0 => .num false 1 0
  | n + 1 => ((powF32 b n).mul b).r32

/-- Update one row with the summed gradient: SGD, AdaGrad or Adam, each operation rounded to FP32 (11 R291). -/
def embApply (d : List Byte) (lr : FVal) (r : EmbRow) (g : List Word) : EmbRow :=
  let n := embDim d
  let eps := ofF32 (BitVec.ofNat 32 (fieldOf d 0x10 4))
  let gi (i : Nat) : FVal := ofF32 (g.getD i 0)
  let st (i : Nat) : FVal := ofF32 (r.st.getD i 0)
  let w (i : Nat) : FVal := embVal d (r.w.getD i 0)
  let step (i : Nat) (dv : FVal) : Word := embPat d (((w i).add dv.neg).r32)
  match embOpt d with
  | 0 => { r with w := (List.range n).map (fun i => step i (lr.mul (gi i)).r32) }
  | 1 =>
    let a (i : Nat) : FVal := ((st i).add (((gi i).mul (gi i)).r32)).r32
    { r with
      st := (List.range n).map (fun i => toF32 (a i))
      w := (List.range n).map (fun i => step i (((lr.mul (gi i)).r32).div (((a i).sqrt.r32.add eps).r32)).r32) }
  | _ =>
    let b1 := ofF32 (BitVec.ofNat 32 (fieldOf d 0x14 4))
    let b2 := ofF32 (BitVec.ofNat 32 (fieldOf d 0x18 4))
    let t := (r.t + 1) % 2 ^ 32
    let m (i : Nat) : FVal := (((b1.mul (st i)).r32).add (((oneMinus b1).mul (gi i)).r32)).r32
    let v (i : Nat) : FVal := (((b2.mul (st (n + i))).r32).add (((oneMinus b2).mul (((gi i).mul (gi i)).r32)).r32)).r32
    let c1 := oneMinus (powF32 b1 t)
    let c2 := oneMinus (powF32 b2 t)
    { r with
      t := t
      st := (List.range n).map (fun i => toF32 (m i)) ++ (List.range n).map (fun i => toF32 (v i))
      w := (List.range n).map (fun i =>
        step i (((lr.mul (((m i).div c1).r32)).r32).div (((((v i).div c2).r32).sqrt.r32.add eps).r32)).r32) }

/-- The zero row of an id (11 R291). -/
def embZero (d : List Byte) (id : Nat) : EmbRow :=
  { id := id, t := 0, w := List.replicate (embDim d) 0, st := List.replicate (embState d) 0 }

/-- Put a row in a table. -/
def EmbTable.putRow (t : EmbTable) (r : EmbRow) : EmbTable :=
  { t with rows := t.rows.filter (fun x => x.id ≠ r.id) ++ [r], unbuilt := t.unbuilt.filter (fun i => i ≠ r.id) }

/-- Apply an open step: whole rows of LOAD first, for which the quota was charged when they were accepted, then the summed gradients, one
read-modify-write per row; `fits` is whether the quota holds the table grown by a created row. The Nat counts gradients of missing rows (11 R291,
R295). -/
def EmbTable.applyStep (t : EmbTable) (me draw : Nat) (fits : EmbTable → Bool) (o : OpenStep) : EmbTable × Nat :=
  let d := t.desc
  let t := o.rows.foldl (fun (t : EmbTable) x =>
    { (t.putRow x.2) with emptySlots := t.emptySlots.filter (fun i => i ≠ t.slot x.2.id) }) t
  let ids := dedup (o.sums.map (fun x => x.2.1))
  let g (id i : Nat) : Word :=
    toF32 (sumFree draw (id * embDim d + i) ((o.sums.filter (fun x => x.2.1 == id)).map (fun x => ofF32 (x.2.2.getD i 0))))
  let gs (id : Nat) : List Word := (List.range (embDim d)).map (g id)
  ids.foldl (fun (a : EmbTable × Nat) id =>
    match a.1.rows.find? (fun r => r.id == id) with
    | some r => (a.1.putRow (embApply d (ofF32 o.lr) r (gs id)), a.2)
    | none =>
      if embCreate d && a.1.owner id == me && fits (a.1.putRow (embZero d id)) then
        (a.1.putRow (embApply d (ofF32 o.lr) (embZero d id) (gs id)), a.2)
      else (a.1, a.2 + 1)) (t, 0)

/-- The live rows and remap table as a generation of a step. -/
def EmbTable.gen (t : EmbTable) (step : Nat) : EmbGen := { step := step, remap := t.remap, emptySlots := t.emptySlots, rows := t.rows }

/-- Whether an owner is a generation of a table. -/
def isGen (table gen : Nat) : Owner → Bool
  | .table k g _ => k == table && g == gen
  | _ => false

/-- Drop the checkpoint of a table that is due or being written, as one that is skipped (11 R296, notes/assumptions/23.md). -/
def State.dropCkpt (s : State) (n : Nat) : State :=
  match s.table? n with
  | none => s
  | some t =>
    ((s.bumpBy 0x000C0050 (t.ckptDue.toList.length + t.ckptNew.toList.length)).mediaFree (fun o => match o with
      | .table k g _ => k == n && g != t.ckptGen
      | _ => false)).updTable n (fun x => { x with ckptDue := none, ckptNew := none })

/-- The lowest open step of a table, when it is to be applied: CLOSE from every participant still in the cell, or a later
step two on (11 R291). -/
def State.stepDue (s : State) (t : EmbTable) : Option OpenStep :=
  match sortBy (fun (a b : OpenStep) => decide (a.step < b.step)) t.steps with
  | [] => none
  | o :: _ =>
    let ps := (List.range 64).filter (fun m => bitAt o.participants.toNat m && s.inCell m)
    if ps.all o.closes.contains || t.steps.any (fun x => decide (o.step + 2 ≤ x.step)) then some o else none

/-- Apply the steps that are due, lowest first; a checkpoint falls due after every CKPT_STEPS of them, and one whose staged rows would not fit
in the combine buffer is skipped (11 R291, R296, R301, notes/assumptions/23.md). -/
def State.applySteps (s : State) (n : Nat) : Nat → State
  | 0 => s
  | k + 1 =>
    match s.table? n with
    | none => s
    | some t =>
      match s.stepDue t with
      | none => s
      | some o =>
        let cnt := t.sinceCkpt + 1
        let due := decide (fieldOf t.desc 0xE 2 ≤ cnt)
        let s := (s.rebuildRows n (if due then t.unbuilt else o.sums.map (fun x => x.2.1))).1
        let t := (s.table? n).getD t
        let q := (s.tenant t.tenant).t1
        let (t', missing) := t.applyStep s.me s.fresh (fun x => q.fits (x.t1Need - t.t1Bytes)) o
        let t' : EmbTable := { t' with
          applied := o.step
          steps := t'.steps.filter (fun x => x.step ≠ o.step)
          sinceCkpt := if due then 0 else cnt
          ckptDue := if due then some (t'.gen o.step) else t'.ckptDue }
        let s := (s.draw.bumpBy 0x000C0030 missing).putTable t'
        State.applySteps (if s.combineUsed ≤ 2 ^ 29 then s else s.dropCkpt n) n k

/-- What a batch part brings to its owner. -/
structure EmbBatch where
  table : Nat
  src : Nat
  step : Nat
  batch : Nat
  part : Nat
  close : Bool
  load : Bool
  /-- COUNT of the message, entries that this owner does not own included. -/
  count : Nat
  sums : List (Nat × List Word)
  rows : List EmbRow
  /-- LR and PARTICIPANTS when this module's own update brings them. -/
  known : Option (Word × BitVec 64)
  deriving DecidableEq, Repr

/-- What the owner made of it: entries accepted and dropped, and the flags SHED, LATE, DUP. -/
structure EmbTaken where
  accepted : Nat
  dropped : Nat
  shed : Bool
  late : Bool
  dup : Bool
  deriving DecidableEq, Repr

/-- Whether a tally is that of a message's batch. -/
def EmbTally.isOf (m : List Byte) (x : EmbTally) : Bool :=
  x.table == fieldOf m 1 1 && x.src == fieldOf m 2 1 && x.batch == fieldOf m 0x18 4

/-- A tally with one more part; what a sender that is shed had accepted counts no longer (11 R293, R294). -/
def EmbTally.add (x : EmbTally) (k : EmbTaken) : EmbTally :=
  { x with
    accepted := if k.shed then 0 else x.accepted + k.accepted, dropped := x.dropped + k.dropped
    shed := x.shed || k.shed, late := x.late || k.late, dup := x.dup || k.dup }

/-- Shed what a sender has in an open step: its entries go, its CLOSE counts as received; the Nat is the entries shed (11 R293). -/
def OpenStep.shedOf (o : OpenStep) (src : Nat) : OpenStep × Nat :=
  ({ o with
    sums := o.sums.filter (fun x => x.1 ≠ src), rows := o.rows.filter (fun x => x.1 ≠ src), shed := o.shed ++ [src]
    closes := if o.closes.contains src then o.closes else o.closes ++ [src] },
    (o.sums.filter (fun x => x.1 == src)).length + (o.rows.filter (fun x => x.1 == src)).length)

/-- A sender is fenced: its entries of open steps are shed (11 R293, 15 R393). -/
def State.shedSender (s : State) (src : Nat) : State :=
  let has' (o : OpenStep) : Bool := has (fun x => x.1 == src) o.sums || has (fun x => x.1 == src) o.rows
  let s := s.embed.tables.foldl (fun (s : State) t =>
    let out := t.steps.filter has'
    ((s.bumpBy 0x000C0038 out.length).bumpBy 0x000C003C (sumNat (out.map (fun o => (o.shedOf src).2)))).putTable
      { t with steps := t.steps.map (fun o => if has' o then (o.shedOf src).1 else o) }) s
  s.updEmbed (fun z => { z with tally := z.tally.filter (fun x => x.src ≠ src) })

/-- Rows of a LOAD the tenant's T1 quota can hold beside the rows present and those of the open LOADs, in order (11 R295). -/
def State.embFit (s : State) (t : EmbTable) : List Nat → List EmbRow → List EmbRow
  | _, [] => []
  | ids, r :: rs =>
    let ids' := if ids.contains r.id then ids else r.id :: ids
    let need := embT1 t.desc (dedup ids').length
    if need ≤ t.t1Bytes || (s.tenant t.tenant).t1.fits (need - t.t1Bytes) then r :: s.embFit t ids' rs else s.embFit t ids rs

/-- A batch part at the owner: late, duplicate, shed or accepted; then the steps that are due apply (11 R291 to R295). -/
def State.embTake (s : State) (b : EmbBatch) : State × EmbTaken :=
  let n := b.count
  let own := b.sums.length + b.rows.length
  match s.table? b.table with
  | none => (s.bump 0x000C0034, { accepted := 0, dropped := n, shed := false, late := false, dup := false })
  | some t =>
    let key := (b.src, b.step, b.part)
    if t.seen.contains key then (s.bump 0x000C0044, { accepted := 0, dropped := 0, shed := false, late := false, dup := true })
    else if b.step ≤ t.applied then
      ((s.bumpBy 0x000C0040 n).updTable b.table (fun x => { x with seen := x.seen ++ [key] }), { accepted := 0, dropped := n, shed := false, late := true, dup := false })
    else
      let o : OpenStep := (t.steps.find? (fun o => o.step == b.step)).getD
        { step := b.step, lr := BitVec.ofNat 32 (Config.free s.fresh 0), participants := BitVec.ofNat 64 (Config.free s.fresh 1)
          closes := [], sums := [], rows := [], shed := [] }
      let first := !has (fun o => o.step == b.step) t.steps
      let o : OpenStep := match b.known with
        | some k => { o with lr := if first then k.1 else o.lr, participants := k.2 }
        | none => o
      let closes := if b.close && !o.closes.contains b.src then o.closes ++ [b.src] else o.closes
      let put (s : State) (o : OpenStep) : State :=
        (s.putTable { t with
          steps := t.steps.filter (fun x => x.step ≠ b.step) ++ [o], seen := t.seen ++ [key] }).applySteps b.table (t.steps.length + 1)
      let used := s.combineUsed + b.sums.length * embEntry t.desc false + b.rows.length * embEntry t.desc true
      if o.shed.contains b.src then
        (put (s.draw.bumpBy 0x000C003C n) { o with closes := closes },
          { accepted := 0, dropped := n, shed := true, late := false, dup := false })
      else if used > 2 ^ 29 then
        let (o, mine) := o.shedOf b.src
        (put ((s.draw.bump 0x000C0038).bumpBy 0x000C003C (n + mine)) o,
          { accepted := 0, dropped := n + mine, shed := true, late := false, dup := false })
      else
        let fit := s.embFit t (t.rows.map (fun r => r.id) ++ t.steps.flatMap (fun o => o.rows.map (fun x => x.2.id))) b.rows
        let lost := b.rows.length - fit.length
        let o : OpenStep := { o with
          sums := o.sums ++ b.sums.map (fun x => (b.src, x.1, x.2)), rows := o.rows ++ fit.map (fun r => (b.src, r)), closes := closes }
        (put (s.draw.bumpBy 0x000C0048 lost) o,
          { accepted := own - lost, dropped := n - own + lost, shed := false, late := false, dup := false })

/-! ### UPDATE, LOAD and UPDATE_ACK (11 R287, R288, R294) -/

/-- A whole row at STRIDE (11 R276). -/
def embRowOf (d b : List Byte) : EmbRow :=
  let off := 16 + roundUp (embDim d * embWb d) 16
  { id := fieldOf b 0 8, t := fieldOf b 8 4, w := embWeights d (b.drop 16)
    st := (List.range (embState d)).map (fun i => BitVec.ofNat 32 (fieldOf b (off + 4 * i) 4)) }
def embRowBytes (d : List Byte) (r : EmbRow) : List Byte :=
  let w := r.w.flatMap (fun x => leBytes (embWb d) x.toNat)
  let b := leBytes 8 r.id ++ leBytes 4 r.t ++ leBytes 4 0 ++ w ++ List.replicate (roundUp w.length 16 - w.length) 0
    ++ r.st.flatMap (fun x => leBytes 4 x.toNat)
  b ++ List.replicate (embStride d - b.length) 0

/-- The batch part an UPDATE (kind 3) or a LOAD (kind 5) brings to an owner: the entries of its own slots (11 R276, R287). -/
def embBatchOf (t : EmbTable) (me kind : Nat) (m : List Byte) : EmbBatch :=
  let n := fieldOf m 4 4
  let e := embEntry t.desc (kind == 5)
  let mine (id : Nat) : Bool := t.owner id == me && decide (id < embRows t.desc)
  let es := (List.range n).map (fun i => (m.drop (64 + e * i)).take e)
  { table := fieldOf m 1 1, src := fieldOf m 2 1, step := fieldOf m 0x10 8, batch := fieldOf m 0x18 4, part := fieldOf m 0x1C 2
    close := bitAt (fieldOf m 0x1E 1) 0, load := kind == 5, count := n
    sums := if kind = 5 then [] else (es.filter (fun x => mine (fieldOf x 0 8))).map (fun x =>
      (fieldOf x 0 8, (List.range (embDim t.desc)).map (fun i => BitVec.ofNat 32 (fieldOf x (8 + 4 * i) 4))))
    rows := if kind = 5 then (es.map (embRowOf t.desc)).filter (fun r => mine r.id) else []
    known := none }

/-- What the parts of a message's batch have come to so far. -/
def State.tallyOf (s : State) (m : List Byte) : EmbTally :=
  (s.embed.tally.find? (EmbTally.isOf m)).getD
    { table := fieldOf m 1 1, src := fieldOf m 2 1, batch := fieldOf m 0x18 4, accepted := 0, dropped := 0, shed := false, late := false
      dup := false }

/-- The parts of a batch are added up, and its last part is answered with one UPDATE_ACK (11 R294). -/
def State.embAnswer (s : State) (m : List Byte) (k : EmbTaken) : State :=
  let new := (s.tallyOf m).add k
  let rest := s.embed.tally.filter (fun x => !EmbTally.isOf m x)
  if bitAt (fieldOf m 0x1E 1) 0 then
    (s.updEmbed (fun z => { z with tally := rest })).send (fieldOf m 2 1) 1 (embHeader 4 (fieldOf m 1 1) s.me (fieldOf m 2 1) 0 (fieldOf m 8 8)
      (fieldOf m 0x10 8) (fieldOf m 0x18 4) (fieldOf m 0x1C 2) (2 * boolNat new.shed + 4 * boolNat new.late + 8 * boolNat new.dup)
      new.accepted new.dropped)
  else s.updEmbed (fun z => { z with tally := rest ++ [new] })

/-- An UPDATE or LOAD message at the owner: taken and answered; entries for a table it does not hold, or of another digest, are dropped and
counted (11 R288, R294). -/
def State.recvUpdate (s : State) (kind : Nat) (m : List Byte) : State :=
  if !s.takes kind m then s.refuse kind m
  else
    match (s.table? (fieldOf m 1 1)).filter (fun t => t.digest.toNat == fieldOf m 8 8) with
    | none => (s.bump 0x000C0034).embAnswer m { accepted := 0, dropped := fieldOf m 4 4, shed := false, late := false, dup := false }
    | some t =>
      let (s, k) := s.embTake (embBatchOf t s.me kind m)
      s.embAnswer m k

/-- UPDATE arrives (11 R287). -/
def execUpdate (msg : List Byte) (s : State) : Res := .next (s.recvUpdate 3 msg)

/-- LOAD arrives (11 R287, R295). -/
def execLoad (msg : List Byte) (s : State) : Res := .next (s.recvUpdate 5 msg)

/-- An UPDATE_ACK: its owner has answered; a foreign digest discards it (11 R288, R294). -/
def State.recvUpdateAck (s : State) (m : List Byte) : State :=
  if !s.takes 4 m then s.refuse 4 m
  else
    let src := fieldOf m 2 1
    let x := s.embed.waiting.find? (fun x => x.update && x.batch == fieldOf m 0x18 4 && has (fun o => o.1 == src) x.owners)
    if s.foreign x m then s.bump 0x000C0034
    else
      match x with
      | none => s.bump 0x00100034
      | some x =>
        let s := s.updExchange x.batch (fun y => { y with
          owners := y.owners.filter (fun o => o.1 ≠ src)
          accepted := y.accepted + fieldOf m 0x20 4
          dropped := y.dropped || fieldOf m 0x24 4 ≠ 0 })
        s.settleExchange x.batch

/-- UPDATE_ACK arrives (11 R294). -/
def execUpdateAck (msg : List Byte) (s : State) : Res := .next (s.recvUpdateAck msg)

/-! ### EMB_UPDATE and GATHER UPDATE (11 R289, R290) -/

/-- An update as the issuer gave it. -/
structure EmbUpdate where
  n : Nat
  step : Nat
  block : List Byte
  indices : List Nat
  payload : List Byte
  deriving DecidableEq, Repr

/-- Bytes of DATA: the step block and the payload (11 R289). -/
def embDataBytes (d : List Byte) (n : Nat) (load : Bool) : Nat := 64 + n * (if load then embStride d else roundUp (4 * embDim d) 64)

/-- The gradients of entry `i`. -/
def EmbUpdate.gradient (u : EmbUpdate) (d : List Byte) (i : Nat) : List Word :=
  let e := roundUp (4 * embDim d) 64
  (List.range (embDim d)).map (fun j => BitVec.ofNat 32 (fieldOf u.payload (e * i + 4 * j) 4))

/-- Whether an update breaks 11 R290. -/
def State.embUpdateBad (s : State) (t : EmbTable) (u : EmbUpdate) : Bool :=
  let load := fieldOf u.block 4 1 == 1
  let lr := ofF32 (BitVec.ofNat 32 (fieldOf u.block 0 4))
  decide (fieldOf u.block 4 1 > 1) || !zeroRange u.block 5 3 || !zeroRange u.block 0x10 48
    || (!load && (lr.isNan || lr.lt (.num false 0 0))) || decide (u.step < t.nextStep)
    || !bitAt (fieldOf u.block 8 8) s.me || (!load && embFrozen t.desc)
    || (!load && (List.range u.n).any (fun i => (u.gradient t.desc i).any (fun w => !(ofF32 w).isFin)))
    || (load && (List.range u.n).any (fun i => fieldOf u.payload (embStride t.desc * i + 0xC) 4 ≠ 0))

/-- Start an update that passed its checks: repeated indices summed, one batch to every current owner (11 R290, R294). -/
def State.startUpdate (s : State) (who : Waiter) (tenant : Nat) (stock : Bool) (t : EmbTable) (u : EmbUpdate) : State :=
  let d := t.desc
  let load := fieldOf u.block 4 1 == 1
  let top := embRows d
  let rows := if load then (List.range u.n).map (fun i => embRowOf d (u.payload.drop (embStride d * i))) else []
  let valid := (rows.filter (fun r => decide (r.id < top)))
  let ids := if load then [] else dedup (u.indices.filter (fun i => decide (i < top)))
  let invalid := if load then rows.length - valid.length else (u.indices.filter (fun i => decide (top ≤ i))).length
  let places (id : Nat) : List Nat := (List.range u.n).filter (fun i => u.indices.getD i 0 == id)
  let sum (id j : Nat) : Word :=
    toF32 (sumFree s.fresh (id * embDim d + j) ((places id).map (fun i => ofF32 ((u.gradient d i).getD j 0))))
  let sums := ids.map (fun id => (id, match places id with
    | [i] => u.gradient d i
    | _ => (List.range (embDim d)).map (sum id)))
  let owners := dedup t.remap
  let gone := owners.filter (fun o => !s.inCell o)
  let live := owners.filter s.inCell
  let lostEntries := sums.any (fun x => gone.contains (t.owner x.1)) || valid.any (fun r => gone.contains (t.owner r.id))
  let batch := s.embed.nextBatch
  let far := live.filter (fun o => o ≠ s.me)
  let entries (o : Nat) : Nat := (valid.filter (fun r => t.owner r.id == o)).length + (sums.filter (fun x => t.owner x.1 == o)).length
  let x : Exchange :=
    { who := who, tenant := tenant, stock := stock, table := t.number, desc := d, batch := batch, update := true, indices := []
      data := 0, pass := [], rest := [], rows := [], asked := [], got := []
      owners := far.map (fun o => (o, entries o)), accepted := 0, dropped := lostEntries || invalid ≠ 0 }
  let s := (s.draw.bumpBy 0x000C002C invalid).updEmbed (fun z => { z with
    nextBatch := (batch + 1) % 2 ^ 32, waiting := z.waiting ++ [x] })
  let s := s.updTable t.number (fun y => { y with nextStep := u.step + 1 })
  let per := max 1 (2 ^ 20 / max (embEntry d load) 1)
  let send (s : State) (o : Nat) : State :=
    let es := if load then (valid.filter (fun r => t.owner r.id == o)).map (embRowBytes d)
      else (sums.filter (fun x => t.owner x.1 == o)).map (fun x =>
        let b := leBytes 8 x.1 ++ x.2.flatMap (fun w => leBytes 4 w.toNat)
        b ++ List.replicate (embEntry d false - b.length) 0)
    let ps := chunks per (es.length / per + 1) es
    let ps := if ps.isEmpty then [[]] else ps
    (List.range ps.length).foldl (fun s p =>
      let l := ps.getD p []
      s.send o 2 (embHeader (if load then 5 else 3) t.number s.me o l.length t.digest.toNat u.step batch p
        (boolNat (p + 1 = ps.length)) 0 0 ++ l.flatten)) s
  let s := far.foldl send s
  let s := if live.contains s.me then
      let b : EmbBatch :=
        { table := t.number, src := s.me, step := u.step, batch := batch, part := 0, close := true, load := load
          count := entries s.me
          sums := sums.filter (fun x => t.owner x.1 == s.me), rows := valid.filter (fun r => t.owner r.id == s.me)
          known := some (BitVec.ofNat 32 (fieldOf u.block 0 4), BitVec.ofNat 64 (fieldOf u.block 8 8)) }
      let (s, k) := s.embTake b
      s.updExchange batch (fun y => { y with
        accepted := y.accepted + k.accepted, dropped := y.dropped || k.dropped ≠ 0 })
    else s
  s.settleExchange batch

/-- EMB_UPDATE (11 R289, R290, 18 R488). -/
def execEmbUpdate (cmd : Nat) (s : State) : Res :=
  .next (match s.cmdAt cmd 0x0702 0 with
    | none => s
    | some c =>
      let n := c.field 0x14 4
      match s.tableFor c.tenant (c.field 0x10 1), s.resolve c.tenant (c.field 0x20 8) 64 64 with
      | some t, some dk =>
        let load := fieldOf (s.rd dk 64) 4 1 == 1
        let len := embDataBytes t.desc n load
        match s.resolve c.tenant (c.field 0x18 8) (8 * n) 8, s.resolve c.tenant (c.field 0x20 8) len 64 with
        | some ik, some _ =>
          if n > 16777216 then s.fail cmd St.badParam
          else if s.poisoned ik (8 * n) || s.poisoned dk len then s.fail cmd St.aborted
          else
            let u : EmbUpdate := { n := n, step := c.field 0x28 8, block := s.rd dk 64, indices := embIndices n (s.rd ik (8 * n))
                                   payload := s.rd (dk + 64) (len - 64) }
            if s.embUpdateBad t u then s.fail cmd St.badParam
            else (s.updCmd cmd (fun c => { c with stage := 1 })).startUpdate (.cmd cmd) c.tenant true t u
        | _, _ => s.fail cmd St.badParam
      | _, _ => s.fail cmd St.badParam)

/-- GATHER UPDATE: the same from a unit issue (04 R111, 11 R289). -/
def execGatherUpdate (k : IssueKey) (s : State) : Res :=
  .next (match s.issueAt k 7 2 with
    | none => s
    | some u =>
      let b := u.body
      let n := fieldOf b 4 4
      let at' := fieldOf b 0x10 8
      match s.tableFor u.tenant (fieldOf b 0 2) with
      | none => s.finishIssue k St.badParam 0
      | some t =>
        if n > 16777216 || fieldOf b 2 2 ≠ 0 || !bodyTailZero u 0x20 then s.finishIssue k St.badParam 0
        else
          s.onCheck k (s.unitCheck u .load at' 64 64) (fun s =>
            let block := s.rdTva u.tenant u.stock at' 64
            let len := embDataBytes t.desc n (fieldOf block 4 1 == 1)
            s.onCheck k (worstCheck [s.unitCheck u .load (fieldOf b 8 8) (8 * n) 8, s.unitCheck u .load at' len 64]) (fun s =>
              let up : EmbUpdate :=
                { n := n, step := fieldOf b 0x18 8, block := block
                  indices := embIndices n (s.rdTva u.tenant u.stock (fieldOf b 8 8) (8 * n))
                  payload := s.rdTva u.tenant u.stock (at' + 64) (len - 64) }
              if s.embUpdateBad t up then s.finishIssue k St.badParam 0
              else (s.beginIssue k).startUpdate (.issue k) u.tenant u.stock t up)))

/-! ### Checkpoints (11 R296) -/

/-- The bytes of a generation (11 R276, R296). -/
def EmbGen.bytes (d : List Byte) (g : EmbGen) : List Byte :=
  g.remap.map (BitVec.ofNat 8) ++ List.replicate (g.head - g.remap.length) 0 ++ g.rows.flatMap (embRowBytes d)

/-- The stored blocks of a generation of a table. -/
def EmbTable.genBlocks (t : EmbTable) (draw n : Nat) (g : EmbGen) : List (Owner × Stored) :=
  let l := tierBlocksOf draw 0 t.tenant (g.bytes t.desc)
  (List.range l.length).map (fun b => (.table t.number n b, l.getD b (farStored [])))

/-- A checkpoint that fell due starts, when the tenant's T2 quota holds a second generation and the media take it; otherwise it is skipped
(11 R296, 13 R349). -/
def execEmbCheckpoint (table : Nat) (s : State) : Res :=
  .next (match s.table? table with
    | none => s
    | some t =>
      match t.ckptDue, t.ckptNew with
      | some due, none =>
        let blocks := t.genBlocks s.fresh (t.ckptGen + 1) due
        let skip (s : State) : State := (s.bump 0x000C0050).updTable table (fun x => { x with ckptDue := none })
        if !(s.tenant t.tenant).t2.fits (sumNat (blocks.map (fun x => x.2.charge))) || s.flash.stopped then skip s.draw
        else if s.mediaRefuses then skip (s.draw.bump 0x000E0058)
        else
          let (z, n) := s.draw.mediaPuts t.tenant blocks
          if n < blocks.length then
            skip ((z.mediaFree (fun o => has (fun x => x.1 == o) blocks)).bump 0x000E0058)
          else z.updTable table (fun x => { x with ckptDue := none, ckptNew := some due })
      | _, _ => s)

/-- A checkpoint is complete: its generation is current, and the older one is freed (11 R296). -/
def execEmbCheckpointDone (table : Nat) (s : State) : Res :=
  .next (match s.table? table with
    | none => s
    | some t =>
      match t.ckptNew with
      | none => s
      | some c =>
        let s := s.mediaFree (isGen table t.ckptGen)
        s.updTable table (fun x => { x with ckptNew := none, ckpt := c, ckptGen := x.ckptGen + 1 }))

/-! ### Members that leave (11 R280, R291, R294) -/

/-- The slots of a member pass to the survivors of MEMBERS, or to none; a slot that comes to this module is EMPTY and none of its rows are
present, and rows of slots that are no longer its own are gone (11 R278, R280). -/
def EmbGen.pass (d : List Byte) (number me m : Nat) (survives : Nat → Bool) (g : EmbGen) : EmbGen :=
  let live := (embMembers d).filter (fun x => survives x && x ≠ m)
  let next (j : Nat) : Nat := if live.isEmpty then noOwner else live.getD (j % live.length) 0
  let remap := (List.range g.remap.length).map (fun j => if g.remap.getD j 0 = m then next j else g.remap.getD j 0)
  let came := (List.range remap.length).filter (fun j => g.remap.getD j 0 = m && remap.getD j 0 == me && m ≠ me)
  let slot (r : Nat) : Nat := embHash (fieldOf d 0x28 8) number r % max remap.length 1
  { g with
    remap := remap, emptySlots := g.emptySlots.filter (fun j => !came.contains j && remap.getD j 0 == me) ++ came
    rows := g.rows.filter (fun r => !came.contains (slot r.id) && remap.getD (slot r.id) 0 == me) }

/-- The remap change in a table and in each of its generations (11 R280, R296). -/
def EmbTable.passSlots (t : EmbTable) (me m : Nat) (survives : Nat → Bool) : EmbTable :=
  let pass := EmbGen.pass t.desc t.number me m survives
  let g := pass (t.gen t.applied)
  let mine (id : Nat) : Bool := g.remap.getD (t.slot id) 0 == me
  { t with
    remap := g.remap, emptySlots := g.emptySlots, rows := g.rows, unbuilt := t.unbuilt.filter mine
    steps := t.steps.map (fun o => { o with rows := o.rows.filter (fun x => mine x.2.id) })
    ckpt := pass t.ckpt, ckptDue := t.ckptDue.map pass, ckptNew := t.ckptNew.map pass }

/-- The slots of a member pass on in every table; cached rows that were this module's own go with their slots. -/
def State.passSlots (s : State) (m : Nat) (survives : Nat → Bool) : State :=
  s.embed.tables.foldl (fun s t =>
    let t' := t.passSlots s.me m survives
    (s.putTable t').updEmbed (fun z => { z with
      cache := z.cache.filter (fun x => x.1 ≠ t.number || t.owner x.2 = t'.owner x.2) })) s

/-- Members leave a set one after another, each passing its slots on to those that are left (11 R280). -/
def State.passInTurn (s : State) (set gone : List Nat) : State :=
  (gone.foldl (fun (a : State × List Nat) m =>
    let left := a.2.filter (fun x => x ≠ m)
    (a.1.passSlots m left.contains, left)) (s, set)).1

/-- Answers of members that are gone are no longer awaited, and steps that waited for their CLOSE may apply (11 R281, R291, R294). -/
def State.embAbandon (s : State) (gone : Nat → Bool) : State :=
  let s := s.updEmbed (fun z => { z with
    waiting := z.waiting.map (fun x => { x with
      asked := x.asked.filter (fun a => !gone a.1)
      dropped := x.dropped || x.owners.any (fun o => gone o.1 && o.2 ≠ 0)
      owners := x.owners.filter (fun o => !gone o.1) }) })
  let s := (s.embed.waiting.map (fun x => x.batch)).foldl State.settleExchange s
  (s.embed.tables.map (fun t => t.number)).foldl (fun s n => s.applySteps n 3) s

/-- A member has left the set: its slots pass on, its entries of open steps are shed, and nothing of it is awaited (11 R280, R281, R291, R293,
R294, 15 R393). -/
def State.embLost (s : State) (m : Nat) : State :=
  ((s.passSlots m s.cell.members.getLsbD).shedSender m).embAbandon (fun x => x == m)

/-- This module is out of its cell: the others that go on take its slots over, with those of members that do not go on either, in ascending
order, and what it awaits from them is missing (11 R280, R281, 16 R431, R432, notes/assumptions/23.md). A module alone in its cell keeps its
slots. -/
def State.embAlone (s : State) (goesOn : Nat → Bool) : State :=
  let set := (List.range 37).filter s.cell.members.getLsbD
  let others := set.filter (fun m => m ≠ s.me && goesOn m)
  if !has (fun m => m ≠ s.me) set then s
  else ((s.updCell (fun c => { c with former := BitVec.ofNat 64 (sumNat (others.map (fun m => 2 ^ m))) })).passInTurn set (sortBy (fun a b => decide (a < b)) (dedup (s.me :: set.filter (fun m => !goesOn m))))).embAbandon (fun x => x ≠ s.me)

/-- This module has joined the set again: those that went on without it and are not in the set have passed their slots on meanwhile (11 R280,
notes/assumptions/23.md). -/
def State.embJoined (s : State) : State :=
  let set := (List.range 37).filter s.cell.former.getLsbD
  (s.passInTurn set (set.filter (fun m => !s.cell.members.getLsbD m))).updCell (fun c => { c with former := 0 })

/-- A message of the exchange reaches its receiver (11 R287). -/
def State.embDeliver (s : State) (m : List Byte) : State :=
  match fieldOf m 0 1 with
  | 1 => s.recvLookupReq m
  | 2 => s.recvLookupRsp m
  | 3 => s.recvUpdate 3 m
  | 4 => s.recvUpdateAck m
  | 5 => s.recvUpdate 5 m
  | _ => s

end Sys2Proof.Machine
end

