-- ==== Sys2Proof/Machine/Meld.lean ====
section
/-!
DEFINITION. The meld unit's issues: TOPK, MERGE and TOPP in pieces and merge groups (06 R168 to R178).
-/
namespace Sys2Proof.Machine

/-- The selection of an issue. -/
def State.selection? (s : State) (k : IssueKey) : Option Selection := s.selections.find? (fun x => x.key == k)

/-- Change the selection of an issue. -/
def State.updSelection (s : State) (k : IssueKey) (f : Selection → Selection) : State :=
  { s with selections := updWhere (fun x => x.key == k) f s.selections }

/-- Bytes of a key (04 R111). -/
def keyBytes (fmt : Nat) : Nat := if fmt = 1 then 2 else 4

/-- The fields of a MELD body are in range, and those the operation does not use are 0 (06 R176, 04 R111); `merge` and `topp` name the operation. -/
def meldFieldsOk (u : UnitIssue) (merge topp : Bool) : Bool :=
  let b := u.body
  let count := fieldOf b 0x10 8
  let k := fieldOf b 0x18 2
  let fmt := fieldOf b 0x1A 1
  let fl := fieldOf b 0x1B 1
  let p := ofF32 (BitVec.ofNat 32 (fieldOf b 0x1C 4))
  decide (1 ≤ k) && decide (k ≤ 4096) && decide (1 ≤ count) && decide (count ≤ if merge then 65536 else 2 ^ 32)
    && decide (fmt ≤ 2) && decide (fl < 4) && bodyTailZero u 0x28
    && (if topp then fmt == 0 && bitAt fl 0 && (FVal.num false 0 0).lt p && p.le (.num false 1 0) else fieldOf b 0x1C 4 == 0)
    && (!merge || fieldOf b 8 8 == 0)

/-- The entries of a row: keys, and indices or positions; SOURCE is the piece (06 R166, R168). -/
def State.rowEntries (s : State) (u : UnitIssue) : List MEntry :=
  let b := u.body
  let fmt := fieldOf b 0x1A 1
  let count := fieldOf b 0x10 8
  let keys := s.rdTva u.tenant u.stock (fieldOf b 0 8) (count * keyBytes fmt)
  let idx := if fieldOf b 8 8 = 0 then [] else s.rdTva u.tenant u.stock (fieldOf b 8 8) (count * 8)
  (List.range count).map (fun i =>
    { key := BitVec.ofNat 32 (fieldOf keys (i * keyBytes fmt) (keyBytes fmt))
      index := BitVec.ofNat 64 (if fieldOf b 8 8 = 0 then i else fieldOf idx (8 * i) 8)
      source := i / 65536 })

/-- A selection as an issue begins it. -/
def selectionOf (u : UnitIssue) (op : Nat) (rest : List MEntry) (parts : List MPart) : Selection :=
  let b := u.body
  { key := u.key, tenant := u.tenant, op := op, keyfmt := fieldOf b 0x1A 1, largest := bitAt (fieldOf b 0x1B 1) 0,
    unique := bitAt (fieldOf b 0x1B 1) 1, k := fieldOf b 0x18 2, p := BitVec.ofNat 32 (fieldOf b 0x1C 4),
    result := BitVec.ofNat 64 (fieldOf b 0x20 8), rest := rest, levels := if parts.isEmpty then [] else [parts], invalid := 0,
    duplicates := 0, raw := !parts.isEmpty, lastMerge := 0 }

/-- Begin a selection over one row: every range is checked first (06 R176). -/
def State.beginRow (s : State) (u : UnitIssue) (op : Nat) (topp : Bool) : State :=
  let b := u.body
  let fmt := fieldOf b 0x1A 1
  let count := fieldOf b 0x10 8
  let k := fieldOf b 0x18 2
  if !s.fitted 6 then s.finishIssue u.key St.unitAbsent 0
  else if !meldFieldsOk u false topp then s.finishIssue u.key St.badParam 0
  else
    let c := worstCheck [s.unitCheck u .load (fieldOf b 0 8) (count * keyBytes fmt) 8,
      if fieldOf b 8 8 = 0 then .ok else s.unitCheck u .load (fieldOf b 8 8) (count * 8) 8,
      s.unitCheck u .store (fieldOf b 0x20 8) (32 + 16 * k) 8]
    s.onCheck u.key c (fun s =>
      let s := s.beginIssue u.key
      { s with selections := s.selections ++ [selectionOf u op (s.rowEntries u) []] })

/-- TOPK begins: the best K of a row (06 R171, R176). -/
def execMeldTopk (k : IssueKey) (s : State) : Res :=
  .next (match s.issueAt k 2 1 with
    | some u => s.beginRow u 1 false
    | none => s)

/-- TOPP begins (06 R175, R176). -/
def execMeldTopp (k : IssueKey) (s : State) : Res :=
  .next (match s.issueAt k 2 3 with
    | some u => s.beginRow u 3 true
    | none => s)

/-- The address of input list `i` of a MERGE (06 R174). -/
def State.mergeAddr (s : State) (u : UnitIssue) (i : Nat) : Nat := leNat (s.rdTva u.tenant u.stock (fieldOf u.body 0 8 + 8 * i) 8)

/-- One input list: its first COUNT entries, SOURCE its number (06 R174). Of a BF16 key whose upper half is not 0, which R168 does not allow, the
lower half is compared and the word returned as it is (DESIGN CHOICE, notes/assumptions/47.md). -/
def State.mergeInput (s : State) (u : UnitIssue) (i : Nat) : MPart :=
  let a := s.mergeAddr u i
  let h := s.rdTva u.tenant u.stock a 32
  let es := s.rdTva u.tenant u.stock (a + 32) (16 * fieldOf h 0 4)
  { entries := (List.range (fieldOf h 0 4)).map (fun j =>
      { key := BitVec.ofNat 32 (fieldOf es (16 * j + 8) 4), index := BitVec.ofNat 64 (fieldOf es (16 * j) 8), source := i })
    ties := fieldOf h 8 4 }

/-- MERGE begins: the table of lists, every list and the result are checked first; a list whose address or header cannot be read is checked no
further (06 R174, R176). -/
def execMeldMerge (k : IssueKey) (s : State) : Res :=
  .next (match s.issueAt k 2 2 with
    | none => s
    | some u =>
      let count := fieldOf u.body 0x10 8
      if !s.fitted 6 then s.finishIssue k St.unitAbsent 0
      else if !meldFieldsOk u true false then s.finishIssue k St.badParam 0
      else
        let table (i : Nat) : UCheck := s.unitCheck u .load (fieldOf u.body 0 8 + 8 * i) 8 8
        let head (i : Nat) : UCheck := s.unitCheck u .load (s.mergeAddr u i) 32 8
        let cnt (i : Nat) : Nat := leNat (s.rdTva u.tenant u.stock (s.mergeAddr u i) 4)
        let body (i : Nat) : UCheck := if cnt i > 4096 then .bad else s.unitCheck u .load (s.mergeAddr u i) (32 + 16 * cnt i) 8
        let list (i : Nat) : UCheck := match table i with
          | .ok => (match head i with | .ok => body i | c => c)
          | c => c
        s.onCheck k (worstCheck (s.unitCheck u .load (fieldOf u.body 0 8) (8 * count) 8
            :: s.unitCheck u .store (fieldOf u.body 0x20 8) (32 + 16 * fieldOf u.body 0x18 2) 8 :: (List.range count).map list)) (fun s =>
          let s := s.beginIssue k
          { s with selections := s.selections ++ [selectionOf u 2 [] ((List.range count).map (s.mergeInput u))] }))

/-- The sentinel key of a format (06 R169). -/
def sentinelKey (fmt : Nat) : Nat := if fmt = 1 then 0x7FC0 else 0x7FC00000

/-- The bytes of a MELD result (06 R168, R169). A sum of TIES_LEFT past 32 bits wraps, for which the manual gives no rule (DESIGN CHOICE,
notes/assumptions/47.md). -/
def meldBytes (x : Selection) (es : List MEntry) (flags ties : Nat) (mass : Word) : List Byte :=
  leBytes 4 es.length ++ leBytes 2 flags ++ leBytes 2 0 ++ leBytes 4 ties ++ leBytes 4 (min x.invalid 0xFFFFFFFF)
    ++ leBytes 4 x.duplicates ++ leBytes 4 mass.toNat ++ leBytes 8 0
    ++ es.flatMap (fun e => leBytes 8 e.index.toNat ++ leBytes 4 e.key.toNat ++ leBytes 4 e.source)
    ++ (List.range (x.k - es.length)).flatMap (fun _ =>
      leBytes 8 noIndex.toNat ++ leBytes 4 (sentinelKey x.keyfmt) ++ leBytes 4 0xFFFFFFFF)

/-- The merge level whose next group can start, all of its inputs complete (06 R171, R172): a level with 16 lists, or one that
gets no more and is not the result; `below` tells that pieces or lower levels are still to come, `i` the level. -/
def groupLevel (raw : Bool) : Nat → Bool → List (List MPart) → Option Nat
  | _, _, [] => none
  | i, below, l :: ls =>
    if l.length ≥ 16 || (!below && !l.isEmpty && (decide (2 ≤ l.length) || ls.any (fun y => !y.isEmpty) || (raw && i = 0))) then some i
    else groupLevel raw (i + 1) (below || !l.isEmpty) ls

/-- The level of a selection's next merge group. -/
def Selection.group? (x : Selection) : Option Nat := groupLevel x.raw 0 (!x.rest.isEmpty) x.levels

/-- The one list left, when nothing else is to come (06 R171). -/
def Selection.final? (x : Selection) : Option MPart :=
  if !x.rest.isEmpty || x.group?.isSome then none else x.levels.flatten.head?

/-- Add a complete list to a level. -/
def addLevel (i : Nat) (p : MPart) (ls : List (List MPart)) : List (List MPart) :=
  (ls ++ List.replicate (i + 1 - ls.length) []).modify i (fun l => l ++ [p])

/-- One list is left: write the result, then the record (06 R168 to R170, R175, R180, 04 R110). -/
def State.finishSelection (s : State) (x : Selection) (last : MPart) : State :=
  let topp := x.op = 3
  let (es, mass) := if topp then toppTake (ofF32 x.p) x.k (.num false 0 0) last.entries else (last.entries, .num false 0 0)
  let reached := topp && (ofF32 x.p).le mass
  let ties : Nat := match es.getLast? with
    | none => 0
    | some e =>
      if topp then
        ((last.entries.drop es.length).filter (fun y => keyEq 0 y.key e.key)).length
          + (match last.entries.getLast? with | some y => if keyEq 0 y.key e.key then last.ties else 0 | none => 0)
      else if es.length = x.k then last.ties else 0
  let part := es.length < x.k && !reached
  let flags := boolNat part + 2 * boolNat (ties > 0)
  let s := { s with selections := s.selections.filter (fun y => y.key ≠ x.key) }
  let s := if es.length < x.k then s.bump 0x00080020 else s
  let s := if ties > 0 then s.bump 0x00080024 else s
  match s.issue? x.key with
  | none => s
  | some u =>
    let s := s.wrTva u.tenant u.stock x.result.toNat (meldBytes x es flags ties (if topp then toF32 mass else 0))
    s.finishIssue x.key (if part then St.part else St.ok) es.length

/-- The selection ends when one list is left (06 R171). -/
def State.settleSelection (s : State) (k : IssueKey) : State :=
  match s.selection? k with
  | none => s
  | some x =>
    match x.final? with
    | none => s
    | some p => s.finishSelection x p

/-- A repeated or failed piece or merge group (06 R178): the repeat is counted and marks the issue; one that agrees goes on, one
that fails too ends the selection. -/
def State.meldShadow (s : State) (k : IssueKey) (sh : Shadow) (f : State → State) : State :=
  match sh with
  | .agree => f s
  | .repeated => f ((s.bump 0x00080028).recoveredIssue k)
  | .moved => s
  | .failed =>
    let s := (s.bump 0x00080028).recoveredIssue k
    let s := { (s.bump 0x0008002C) with selections := s.selections.filter (fun y => y.key ≠ k) }
    s.finishIssue k St.aborted 0

/-- The selection whose piece the piece pipeline takes next: the issues that wait take turns, each going behind the others after
its piece (06 R172). -/
def State.pieceTurn (s : State) : Option IssueKey := (s.selections.find? (fun x => !x.rest.isEmpty)).map (fun x => x.key)

/-- The piece pipeline selects the best K of the next piece of 65,536 elements (06 R171, R172). -/
def execMeldPiece (k : IssueKey) (shadow : Shadow) (s : State) : Res :=
  .next (match s.selection? k with
    | none => s
    | some x =>
      if x.rest.isEmpty || s.pieceTurn ≠ some k then s
      else
        s.meldShadow k shadow (fun s =>
          let r := selectBest x.keyfmt x.largest x.unique (x.op == 3) x.k (x.rest.take 65536)
          let y : Selection := { x with
            rest := x.rest.drop 65536
            levels := addLevel 0 { entries := r.entries, ties := r.ties } x.levels
            invalid := x.invalid + r.invalid
            duplicates := x.duplicates + r.duplicates }
          let s := { s with selections := s.selections.filter (fun (z : Selection) => z.key ≠ k) ++ [y] }
          ((s.bump64 0x00080008 1).countExcluded r.invalid r.duplicates).settleSelection k))

/-- Whether search runs on the seats: the 9706, or any part whose S-die is lost or has a unit out of service (05 R159, 15
R399, R403). -/
def State.seatSearch (s : State) : Bool := s.variant = .v9706 || s.flt.sLost || [4, 5, 6, 7].any s.unitOut

/-- Whether a query's lists wait for the meld unit: every pass and far segment of it is in (05 R146); merges of a search that runs on the seats
are not the unit's (05 R159). -/
def State.searchMergeDue (s : State) : Bool :=
  let scoring (k : QueryKey) : Bool :=
    s.search.engines.any (fun e => e.work.any (fun p => p.queries.contains k)) || s.search.farWork.any (fun j => j.queries.contains k)
  let waits (k : QueryKey) : Bool :=
    (match s.search.collecting with | some b => b.queries.contains k | none => false)
      || s.search.closed.any (fun b => b.queries.contains k) || s.search.stalled.contains k || s.search.exactWaiting.contains k
  !s.seatSearch && s.search.queries.any (fun q => q.stage == 2 && !scoring q.key && !waits q.key && !(q.exact && q.full))

/-- The selection whose group the merge pipeline takes next: none while a search merge waits, which takes precedence; else the issue served
longest ago; an issue not yet served stands ahead of those that were, which the manual leaves open (06 R172; DESIGN CHOICE,
notes/assumptions/47.md). -/
def State.mergeTurn (s : State) : Option IssueKey :=
  if s.searchMergeDue then none
  else ((sortBy (fun (a b : Selection) => decide (a.lastMerge < b.lastMerge)) (s.selections.filter (fun x => x.group?.isSome))).head?).map
    (fun x => x.key)

/-- The merge pipeline finishes one group of up to 16 inputs, all of them complete (06 R171, R172). -/
def execMeldMergeGroup (k : IssueKey) (shadow : Shadow) (s : State) : Res :=
  .next (match s.selection? k with
    | none => s
    | some x =>
      match x.group? with
      | none => s
      | some i =>
        if s.mergeTurn ≠ some k then s
        else
          s.meldShadow k shadow (fun s =>
            let (p, inv, dup) := mergeParts x.keyfmt x.largest x.unique (x.op == 3) x.k ((x.levels.getD i []).take 16)
            let turn := (s.selections.map (fun y => y.lastMerge)).foldl max 0 + 1
            let y : Selection := { x with
              levels := addLevel (i + 1) p (x.levels.modify i (fun l => l.drop 16))
              invalid := x.invalid + inv, duplicates := x.duplicates + dup, lastMerge := turn }
            let s := s.updSelection k (fun _ => y)
            (s.countExcluded inv dup).settleSelection k))

end Sys2Proof.Machine
end

