-- ==== Sys2Proof/Machine/ModelImage.lean ====
section
/-!
DEFINITION. Model images: headers, phase tables, draft headers and kernel headers (04 R124, 14 R374, 18 R484, R572).
-/
namespace Sys2Proof.Machine

/-! ### The header (18 R484) -/

/-- Fields of a model header. -/
def mdlDeck (b : List Byte) : Nat := fieldOf b 8 4
def mdlContext (b : List Byte) : Nat := fieldOf b 0xC 4
def mdlEnds (b : List Byte) : List Nat := (List.range (fieldOf b 0x1E 1)).map (fun i => fieldOf b (0x20 + 4 * i) 4)
def mdlDraftOff (b : List Byte) : Nat := fieldOf b 0x70 8
def mdlLead (b : List Byte) : Nat := fieldOf b 0x18 2
def mdlMiddle (b : List Byte) : Nat := fieldOf b 0x1A 2
def mdlTail (b : List Byte) : Nat := fieldOf b 0x1C 2

/-- Bytes of a draft model's header onward; empty without a draft (18 R572). -/
def mdlDraft (b : List Byte) : List Byte := if mdlDraftOff b = 0 then [] else b.drop (mdlDraftOff b)

/-- Tokens of a pair template: lead, middle and tail (07 R186). -/
def mdlOverhead (b : List Byte) : Nat := mdlLead b + mdlMiddle b + mdlTail b

/-- Tokens `i` to `i + n - 1` of the pair template, which lies at TEMPLATE_OFF: lead, middle, tail (07 R186). -/
def mdlTemplate (b : List Byte) (i n : Nat) : List Nat := (List.range n).map (fun j => fieldOf b (fieldOf b 0x68 8 + 4 * (i + j)) 4)

/-- Bytes a model's K and V blocks take in one frame (10 R243). -/
def kvBlockBytes (b : List Byte) : Nat :=
  if b.isEmpty then 0 else 128 * fieldOf b 0x14 2 * (1 + fieldOf b 0x13 1) * fieldOf b 0x10 2 * fieldOf b 0x12 1

/-- Bytes of one KV frame of a model with its draft (10 R243). -/
def frameBytes (b : List Byte) : Nat := kvBlockBytes b + kvBlockBytes (mdlDraft b)

/-! ### Phase tables (14 R374) -/

/-- A phase table entry. -/
structure PhaseEntry where
  phase : Nat
  split : Nat
  tp : Nat
  replicasMax : Nat
  potKib : Nat
  deriving DecidableEq, Repr

/-- The phase table of an image. -/
def phaseTable (b : List Byte) : List PhaseEntry :=
  (List.range (fieldOf b 7 1)).map (fun i =>
    let o := fieldOf b 0x40 8 + 16 * i
    { phase := fieldOf b o 1, split := fieldOf b (o + 1) 1, tp := fieldOf b (o + 2) 2, replicasMax := fieldOf b (o + 4) 2,
      potKib := fieldOf b (o + 8) 4 })

/-- The entry of a phase. -/
def phaseEntry (b : List Byte) (p : Nat) : Option PhaseEntry := (phaseTable b).find? (fun e => e.phase == p)

/-- Whether a phase table is sound: entries in range, reserved bytes 0, no phase twice (14 R374). -/
def phasesOk (b : List Byte) : Bool :=
  let o := fieldOf b 0x40 8
  let n := fieldOf b 7 1
  decide (n ≤ 5) && (n == 0 || (o % 64 == 0 && decide (o + 16 * n ≤ b.length)))
    && (phaseTable b).all (fun e => decide (e.phase ≤ 4) && decide (e.split ≤ 1) && decide (1 ≤ e.tp) && decide (e.tp ≤ 160))
    && (List.range n).all (fun i => zeroRange b (o + 16 * i + 6) 2 && zeroRange b (o + 16 * i + 12) 4)
    && decide ((dedup ((phaseTable b).map (fun e => e.phase))).length = n)

/-! ### Kernels (04 R124) -/

/-- A kernel header, with its offset in the image. -/
structure Kernel where
  off : Nat
  stock : Bool
  codeSize : Nat
  entry : Nat
  sbuf : Nat
  minSeats : Nat
  maxSeats : Nat
  sigLen : Nat
  deriving DecidableEq, Repr

/-- The kernel header at an offset. -/
def kernelAt (b : List Byte) (o : Nat) : Kernel :=
  { off := o, stock := bitAt (fieldOf b (o + 6) 2) 0, codeSize := fieldOf b (o + 8) 4, entry := fieldOf b (o + 0xC) 4
    sbuf := fieldOf b (o + 0x10) 4, minSeats := fieldOf b (o + 0x14) 2, maxSeats := fieldOf b (o + 0x16) 2
    sigLen := fieldOf b (o + 0x18) 4 }

/-- Bytes of a kernel with header, code and signature. -/
def Kernel.size (k : Kernel) : Nat := 32 + k.codeSize + k.sigLen

/-- Kernels back to back from an offset. -/
def kernelsFrom (b : List Byte) : Nat → Nat → List Kernel
  | 0, _ => []
  | n + 1, o => let k := kernelAt b o; k :: kernelsFrom b n (o + k.size)

/-- The kernels of an image (18 R484). -/
def kernels (b : List Byte) : List Kernel := kernelsFrom b (fieldOf b 0x50 4) (fieldOf b 0x48 8)

/-- Whether a kernel header keeps its limits and its kernel lies within the image (04 R124). -/
def kernelOk (b : List Byte) (k : Kernel) : Bool :=
  fieldOf b k.off 4 == 0x4E524B49 && fieldOf b (k.off + 4) 2 == 1 && decide (fieldOf b (k.off + 6) 2 ≤ 1)
    && k.codeSize % 4 == 0 && decide (k.entry < k.codeSize) && decide (k.sbuf ≤ 2097152) && decide (1 ≤ k.minSeats)
    && decide (k.maxSeats ≤ 160) && zeroRange b (k.off + 0x1C) 4
    && (k.stock || k.sigLen == 0) && decide (k.off + k.size ≤ b.length)

/-! ### Models in use -/

/-- A model a command may use: the tenant's, and not evicted before the command (14 R373, 18 R483). -/
def State.modelFor (s : State) (t h n : Nat) : Option Model :=
  s.models.find? (fun m => m.number == n && m.tenant == t && (match m.evicting with | none => true | some e => decide (h < e.cmd)))

/-- Whether a model was under eviction when a command came in: the command ends with MODEL_NOT_RESIDENT (14 R373). -/
def State.modelLeaving (s : State) (t h n : Nat) : Bool :=
  s.models.any (fun m => m.number == n && m.tenant == t && (match m.evicting with | none => false | some e => decide (e.cmd ≤ h)))

/-! ### Replicas and the running model of a hand (14 R371, R372, R375) -/

/-- The replicas of a phase on seats: whole replicas die by die, else one across the dies, cut to REPLICAS_MAX; without
an entry one replica of all the seats (14 R375). -/
def replicasOf (b : List Byte) (phase : Nat) (seats : List Nat) : List (List Nat) :=
  if seats.isEmpty then []
  else
    let seats := sortBy (fun a b => decide (a < b)) seats
    let e := phaseEntry b phase
    let tp := match e with | some x => x.tp | none => seats.length
    let onDie (d : Nat) : List (List Nat) :=
      let l := seats.filter (fun g => g / 88 == d)
      (chunks tp (l.length / tp) l).filter (fun r => r.length == tp)
    let rs := onDie 0 ++ onDie 1
    let rs := if rs.isEmpty then [seats.take tp] else rs
    match e with
    | some x => if x.replicasMax = 0 then rs else rs.take x.replicasMax
    | none => rs

/-- Whether a hand may run work of a model and phase now: it is dealt, holds seats, and runs that model and phase or has
run none (14 R371, R372). -/
def State.handTakes (s : State) (h m p : Nat) : Bool :=
  let x := s.hand h
  x.valid && x.dealing.isNone && !x.seats.isEmpty && (x.model.isNone || (x.model == some m && x.phase == p))

/-- Bytes of a phase's slices on a die: POT_KIB for each seat there that has a rank; none for a phase without an entry (14 R374, R375). -/
def sliceBytes (b : List Byte) (phase : Nat) (seats : List Nat) (d : Nat) : Nat :=
  match phaseEntry b phase with
  | none => 0
  | some e => 1024 * e.potKib * ((replicasOf b phase seats).flatten.filter (fun g => g / 88 == d)).length

/-- The first `n` bytes of some pot slots are overwritten by slices, in a layout that the manual does not give: free values. -/
def State.fillPot (s : State) : List Nat → Nat → State
  | [], _ => s
  | k :: ks, n =>
    let r := potSlot k
    let m := min n r.2
    if m = 0 then s
    else
      let t := s.draw.wr r.1 (freeBytes s.fresh m)
      ({ t with potBad := t.potBad.filter (fun w => !(decide (r.1 ≤ w) && decide (w < r.1 + m))) }).fillPot ks (n - m)

/-- A hand's pot share takes the slices of its model and phase under its seats' ranks, as far as they fit, and drops those it held (14 R370,
R371, R374 to R376; where they lie is notes/assumptions/45.md). -/
def State.loadSlices (s : State) (h : Nat) : State :=
  let x := s.hand h
  let b := ((x.model.bind (fun n => s.models.find? (fun m => m.number == n))).map (fun m => m.image)).getD []
  let now (d : Nat) : Nat := sliceBytes b x.phase x.seats d
  let old (d : Nat) : Nat := ((x.slices.find? (fun y => y.1 == d)).map (fun y => y.2)).getD 0
  let s := [0, 1].foldl (fun s d => s.fillPot (x.pot.filter (fun k => k / 80 == d)) (max (old d) (now d))) s
  s.updHand h (fun x => { x with slices := (([0, 1].map (fun d => (d, now d))).filter (fun y => decide (0 < y.2))) })

/-- A hand's first model starts, and its slices are loaded (14 R371). -/
def State.useHand (s : State) (h m p : Nat) : State :=
  if (s.hand h).model.isNone then (s.updHand h (fun x => { x with model := some m, phase := p })).loadSlices h else s

/-- Work of a model and phase is ready on a hand, behind the work that has been ready longer (14 R372). -/
def State.noteReady (s : State) (h m p : Nat) : State :=
  let r : Ready := { model := m, phase := p }
  s.updHand h (fun x => if x.ready.contains r then x else { x with ready := x.ready ++ [r] })

end Sys2Proof.Machine
end

