-- ==== Sys2Proof/Machine/T1.lean ====
section
/-!
DEFINITION. T1 of the dies: free frames, pages taken and freed, and what stands behind a page: the stored blocks of an object on media or in
host memory (04 R114 to R116, 12 R304 to R316, R573). Where pages are mapped is notes/assumptions/24.md and 45.md.
-/
namespace Sys2Proof.Machine

/-! ### Frames (00 R3, 12 R306, R307, R573) -/

/-- LPDDR5X channels of a die: M0, M1, S-die, H-die (12 R309). -/
def Variant.channels : Variant → Nat → Nat
  | .v9720, d => if d < 4 then 32 else 0
  | .v9714, d => match d with | 0 => 32 | 2 => 16 | 3 => 16 | _ => 0
  | .v9706, d => match d with | 0 => 32 | 3 => 32 | _ => 0

/-- 64 KiB pages of the data region of one channel: 14.5 GiB (12 R307). -/
def channelPages : Nat := 237568

/-- Pages of the fixed reserve homed on a die (12 R306). -/
def Variant.reservePages : Variant → Nat → Nat
  | .v9720, d => match d with | 0 => 4096 | 1 => 4096 | 2 => 25600 | 3 => 293888 | _ => 0
  | .v9714, d => match d with | 0 => 4096 | 2 => 25600 | 3 => 166912 | _ => 0
  | .v9706, d => match d with | 0 => 4096 | 3 => 143360 | _ => 0

/-- Whether a die is out of use (15 R402, R403). -/
def State.dieLost (s : State) (d : Nat) : Bool :=
  match d with | 0 => s.flt.m0Lost | 1 => s.flt.m1Lost | 2 => s.flt.sLost | _ => false

/-- The die that homes what the list units read: the S-die, or the H-die of the 9706 (05 R130, R133). -/
def Variant.listDie (v : Variant) : Nat := if v = .v9706 then 3 else 2

/-- Bytes of embedding rows and of resident vectors, which no page maps: rows are interleaved over every die's channels (11 R278), vectors lie
beside the lists (DESIGN CHOICE, notes/assumptions/24.md). -/
def State.unmapped (s : State) (d : Nat) : Nat :=
  let all := sumNat ((List.range 4).map s.variant.channels)
  ceilDiv (sumNat (s.embed.tables.map (fun t => t.t1Bytes)) * s.variant.channels d) all
    + (if d = s.variant.listDie then sumNat (s.colls.map (fun x => if x.desc.vecT1 then x.items.length * x.desc.dim else 0)) else 0)

/-- TIERED blocks with a home on a die that are not resident: they take no T1 (12 R310, R573). -/
def State.awayBlocks (s : State) (d : Nat) : Nat :=
  (s.tier.blocks.filter (fun x => !x.present && bits (s.ptEntry x.tenant 0 (65536 * x.block)).toNat 10 9 == d)).length

/-- Free pages in the data regions of a die (12 R573). -/
def State.dieFree (s : State) (d : Nat) : Nat :=
  if s.dieLost d then 0
  else
    (s.variant.channels d - (s.tier.dies.getD d { lost := [], homing := [], beyond := 0 }).beyond) * channelPages - s.variant.reservePages d
      - (if d = 3 then 16384 * s.cxl.activeGib else 0) - (s.tier.homed.getD d 0 / 65536 - s.awayBlocks d) - ceilDiv (s.unmapped d) 65536

/-- The dies an object's pages go to, in order: a model's M-dies by free space, then H and S; a deck or an automaton the
H-die; a collection the S-die, or the H-die of the 9706 (12 R573, 05 R130, 08 R196, 09 R219). -/
def State.homeOrder (s : State) (kind : Nat) : List Nat :=
  if kind ≤ 4 then (if s.dieFree 0 < s.dieFree 1 then [1, 0, 3, 2] else [0, 1, 3, 2])
  else if kind = 5 && s.variant ≠ .v9706 then [2, 3, 0, 1]
  else [3, 2, 0, 1]

/-- Take a frame on the first of some dies that has one free; what fits nowhere stays on the H-die. -/
def State.takeFrame (s : State) (order : List Nat) : State × Nat × Nat :=
  let d := (order.find? (fun d => s.dieFree d ≠ 0)).getD 3
  (s.updTier (fun z => { z with nextFrame := z.nextFrame.modify d (· + 1), homed := z.homed.modify d (· + 65536) }), d, s.tier.nextFrame.getD d 0)

/-! ### Pages (04 R114 to R116) -/

/-- Replace the bytes of a page: those given by offset within it, zeros elsewhere; its lines are poisoned no longer (12 R308). -/
def State.wrPage (s : State) (key : Nat) (l : List (Nat × List Byte)) : State :=
  { s with
    mem := l.foldl (fun m p => memPut m (key + p.1) (p.2.take (65536 - p.1))) (s.mem.filter (fun c => !(decide (key ≤ c.1) && decide (c.1 < key + 65536))))
    tier := { s.tier with poison := s.tier.poison.filter (fun x => !(decide (key ≤ 128 * x) && decide (128 * x < key + 65536))) } }

/-- Map a page of a tenant to a frame taken on the first of some dies that has one, for stock kernels to read, or to write too; with the bytes
that lie there, or absent. -/
def State.addPage (s : State) (t va : Nat) (wr : Bool) (order : List Nat) (bytes : Option (List Byte)) : State :=
  let (s, d, frame) := s.takeFrame order
  let s := s.mapPage t va (ptLeaf true wr false false bytes.isSome 0 d (65536 * frame))
  match bytes with
  | some b => s.wrPage ((Space.t1 d).key (65536 * frame)) [(0, b.take 65536)]
  | none => s

/-- Map an object's pages read-only; absent where `present` is false. -/
def State.placePages (s : State) (t va : Nat) (bytes : List Byte) (present : Bool) (order : List Nat) (n : Nat) : State :=
  (List.range n).foldl (fun s i => s.addPage t (va + 65536 * i) false order (if present then some (bytes.drop (65536 * i)) else none)) s

/-- Free the pages of a range: unmapped with their aliases in the lower half, their frames free, their lines poisoned no longer (04 R124, 12
R308). -/
def State.freePages (s : State) (t va n : Nat) : State :=
  let entries := (List.range n).filterMap (fun i =>
    let e := (s.ptEntry t 0 (va + 65536 * i)).toNat
    if entryT1 e then some e else none)
  let keys := entries.map (fun e => entryKey e / 65536)
  ((s.unmapPages t va n).unmapPages t (va - 2 ^ 47) n).updTier (fun z => { z with
    homed := (List.range 4).map (fun d => z.homed.getD d 0 - 65536 * (entries.filter (fun e => bits e 10 9 == d)).length)
    poison := z.poison.filter (fun l => !keys.contains (l / 512)) })

/-- Where the pages of lists, tombstone blocks and KV frames begin in a tenant's space (DESIGN CHOICE, notes/assumptions/45.md). -/
def areaBase : Nat := 2 ^ 47 + 2 ^ 46

/-- The lowest address of the area at which `n` pages of a tenant are free. -/
def State.areaFree (s : State) (t n : Nat) : Nat :=
  let used := (s.pt.filter (fun e => e.1.tenant == t && e.1.level == 0 && decide (areaBase / 65536 ≤ e.1.path))).map (fun e => e.1.path)
  let starts := sortBy (fun a b => decide (a < b)) (areaBase / 65536 :: used.map (· + 1))
  65536 * (starts.find? (fun c => !has (fun p => decide (c ≤ p) && decide (p < c + n)) used)).getD (areaBase / 65536)

/-- A T1 address as firmware's structures bear it, of a page of a tenant: bit 63, the die in bits 53 and 52, the byte below them; 0 where nothing
is mapped (DESIGN CHOICE, notes/assumptions/18.md). -/
def State.t1Address (s : State) (t va : Nat) : Nat :=
  let e := (s.ptEntry t 0 va).toNat
  if entryT1 e then 2 ^ 63 + 2 ^ 52 * bits e 10 9 + 65536 * bits e 51 16 else 0

/-- The key of a page's frame, from its entry. -/
def State.frameKey (s : State) (t b : Nat) : Nat := entryKey (s.ptEntry t 0 (65536 * b)).toNat

/-- The pages that share a page's frame: kernel code shows twice (04 R124). -/
def State.sharers (s : State) (t b : Nat) : List Nat :=
  let w := (s.ptEntry t 0 (65536 * b)).toNat
  if entryT1 w then (s.pt.filter (fun e => e.1.tenant == t && e.1.level == 0 && entryT1 e.2.toNat && entryKey e.2.toNat == entryKey w)).map (fun e => e.1.path)
  else []

/-- The page of the upper half that a page stands for: kernel code in the lower half shows a page of its object (04 R124). -/
def State.canon (s : State) (t b : Nat) : Nat := if (s.sharers t b).contains (b + 2 ^ 31) then b + 2 ^ 31 else b

/-- Set or clear PRESENT in the entries of a page's frame (04 R116). -/
def State.setPresent (s : State) (t b : Nat) (on : Bool) : State :=
  let l := s.sharers t b
  { s with pt := s.pt.map (fun e =>
      if e.1.tenant = t && e.1.level = 0 && l.contains e.1.path then
        (e.1, if on then e.2 ||| BitVec.ofNat 64 256 else e.2 &&& BitVec.ofNat 64 (2 ^ 64 - 257))
      else e) }

/-- Whether a page of a tenant is mapped to T1 and absent. -/
def State.absentAt (s : State) (t b : Nat) : Bool :=
  let w := (s.ptEntry t 0 (65536 * b)).toNat
  entryT1 w && !bitAt w 8

/-- Poison the lines of a page (12 R308). -/
def State.poisonPage (s : State) (key : Nat) : State :=
  let s := s.bumpBy 0x000D0024 512
  let s := s.updTier (fun z => { z with poison := dedup (z.poison ++ (List.range 512).map (fun i => key / 128 + i)) })
  s.updFlt (fun f => { f with sticky := f.sticky ||| 0x80 })

/-! ### TIERED blocks (12 R310) -/

/-- Change the TIERED block of an address. -/
def State.updBlock (s : State) (t b : Nat) (f : TBlock → TBlock) : State :=
  s.updTier (fun z => { z with blocks := updWhere (fun x => x.tenant == t && x.block == b) f z.blocks })

/-- The TIERED block of an address. -/
def State.block? (s : State) (t b : Nat) : Option TBlock := s.tier.blocks.find? (fun x => x.tenant == t && x.block == b)

/-! ### Homes (12 R304, R310, R314 to R316) -/

/-- Charge T3 bytes to a tenant, and release them. -/
def State.chargeT3 (s : State) (t n : Nat) : State := s.updTenant t (fun x => { x with t3 := { x.t3 with used := x.t3.used + n } })
def State.releaseT3 (s : State) (t n : Nat) : State := s.updTenant t (fun x => { x with t3 := { x.t3 with used := x.t3.used - n } })

/-- The lowest place in a tenant's T3 regions that takes a stored block (12 R304, R319; DESIGN CHOICE, notes/assumptions/25.md). -/
def State.hostPlace (s : State) (t n : Nat) : Option Nat :=
  let used := s.tier.hostBlocks.map (fun b => (b.addr, b.stored.charge))
  let clear (a : Nat) : Bool := !has (fun u => decide (a < u.1 + u.2) && decide (u.1 < a + n)) used
  let fits (a : Nat) : Bool := has (fun r => decide (r.1 ≤ a) && decide (a + n ≤ r.1 + r.2)) (s.tenant t).regions && clear a
  (sortBy (fun a b => decide (a < b)) ((s.tenant t).regions.map (fun r => r.1) ++ used.map (fun u => u.1 + u.2))).find? fits

/-- Store a block in a tenant's T3 regions, charged; false where no place takes it (12 R304, R310, R315). -/
def State.hostPut (s : State) (o : Owner) (t : Nat) (x : Stored) : State × Bool :=
  match s.hostPlace t x.charge with
  | none => (s, false)
  | some a =>
    let s := (s.wr (Space.hostPhys.key a) x.bytes).updTier (fun z => { z with
      hostBlocks := z.hostBlocks ++ [{ owner := o, tenant := t, addr := a, stored := x }] })
    ((if x.raw then s.bump 0x000D002C else s).chargeT3 t x.charge, true)

/-- Free stored blocks in host memory, their charges released. -/
def State.hostFree (s : State) (p : Owner → Bool) : State :=
  (s.tier.hostBlocks.filter (fun b => p b.owner)).foldl (fun s b => s.releaseT3 b.tenant b.stored.charge)
    (s.updTier (fun z => { z with hostBlocks := z.hostBlocks.filter (fun b => !p b.owner) }))

/-- Whether a stored block reads back from host memory as it was stored, so that it passes its checks; the host must not write there (12 R314,
notes/assumptions/25.md). -/
def State.hostSound (s : State) (b : HostBlock) : Bool := s.rd (Space.hostPhys.key b.addr) b.stored.bytes.length == b.stored.bytes

/-- The bytes a stored block of an object stands for in T1: its expanded bytes, or, in an object that keeps its weights encoded, the block itself,
padded to 64 (12 R316). -/
def Stored.t1 (x : Stored) (len : Nat) : List Byte :=
  if fieldOf x.header 2 1 = 2 || 65536 < len then (pad64 x.bytes).take len else x.data.take len

/-- The stored blocks that an object's T1 bytes from an offset come from: their offset and length in it, and the block. -/
def State.homeBlocks (s : State) (kind number off len : Nat) : List (Nat × Nat × Stored) :=
  let at' (o : Owner) (x : Stored) : Option (Nat × Nat × Stored) :=
    if isObject kind number off len o then (match o with | .object _ _ a n => some (a, n, x) | _ => none) else none
  sortBy (fun a b => decide (a.1 < b.1))
    (s.flash.extents.filterMap (fun e => at' e.owner e.stored) ++ s.tier.hostBlocks.filterMap (fun b => at' b.owner b.stored))

/-- An object's T1 bytes from an offset, as its home gives them. -/
def State.homeBytes (s : State) (kind number off len : Nat) : List Byte :=
  let l := s.homeBlocks kind number off len
  ((l.flatMap (fun x => x.2.2.t1 x.2.1)).drop (off - (l.head?.map (fun x => x.1)).getD off)).take len

/-- Whether a block of an object in host memory fails its checks (12 R314). -/
def State.hostBad (s : State) (kind number off len : Nat) : Bool :=
  s.tier.hostBlocks.any (fun b => isObject kind number off len b.owner && !s.hostSound b)

/-- A loaded object with its tenant, kind, number, address and T1 length. -/
structure Loaded where
  tenant : Nat
  kind : Nat
  number : Nat
  va : Nat
  len : Nat
  deriving DecidableEq, Repr

/-- The loaded objects of kinds 1 to 7. -/
def State.loadedObjects (s : State) : List Loaded :=
  s.models.map (fun m => { tenant := m.tenant, kind := m.kind, number := m.number, va := m.va.toNat, len := m.bytes.length })
    ++ s.decks.map (fun d => { tenant := d.tenant, kind := 6, number := d.number, va := d.va.toNat, len := d.image.length })
    ++ s.automata.map (fun a => { tenant := a.tenant, kind := 7, number := a.number, va := a.va.toNat, len := a.image.length })
    ++ s.colls.map (fun x => { tenant := x.tenant, kind := 5, number := x.number, va := x.va.toNat, len := x.image.length })

/-- The object that a page of a tenant's space shows. -/
def State.objectOn (s : State) (t b : Nat) : Option Loaded :=
  s.loadedObjects.find? (fun o => o.tenant == t && decide (o.va ≤ 65536 * b) && decide (65536 * b < o.va + o.len))

/-- Pages of a model that a die homes, as its entries stand (12 R573, 14 R369 key 2). -/
def State.modelHomes (s : State) (m : Model) (d : Nat) : Nat :=
  ((List.range (ceilDiv m.bytes.length 65536)).filter (fun i => bits (s.ptEntry m.tenant 0 (m.va.toNat + 65536 * i)).toNat 10 9 == d)).length

end Sys2Proof.Machine
end

