-- ==== Sys2Proof/Machine/Token.lean ====
section
/-!
DEFINITION. The deck, the tokenizer and the detokenizer (08 R196 to R218).
-/
namespace Sys2Proof.Machine

/-! ### The deck (08 R197 to R200) -/

/-- VOCAB, NODES, POOL_BYTES and the offsets of the header. -/
def deckVocab (d : List Byte) : Nat := fieldOf d 8 4
def deckNodes (d : List Byte) : Nat := fieldOf d 0xC 4
def deckPoolBytes (d : List Byte) : Nat := fieldOf d 0x10 4
def deckNodesOff (d : List Byte) : Nat := fieldOf d 0x28 8
def deckTableOff (d : List Byte) : Nat := fieldOf d 0x30 8
def deckPoolOff (d : List Byte) : Nat := fieldOf d 0x38 8

/-- A trie node (08 R198). -/
structure TrieNode where
  token : Option Nat
  first : Nat
  nchild : Nat
  label : Nat
  dense : Bool
  lo : Nat
  hi : Nat
  deriving DecidableEq, Repr

/-- Node `n` of a deck (08 R198). -/
def deckNode (d : List Byte) (n : Nat) : TrieNode :=
  let b := (d.drop (deckNodesOff d + 16 * n)).take 16
  let t := fieldOf b 0 4
  { token := if bitAt t 31 then some (t % 2 ^ 20) else none, first := fieldOf b 4 4, nchild := fieldOf b 8 2,
    label := fieldOf b 0xA 1, dense := bitAt (fieldOf b 0xB 1) 0, lo := fieldOf b 0xC 1, hi := fieldOf b 0xD 1 }

/-- The child of a node with a label (08 R198, R201). -/
def deckChild (d : List Byte) (n : TrieNode) (b : Nat) : Option Nat :=
  if n.nchild = 0 then none
  else if n.dense then (if n.lo ≤ b ∧ b ≤ n.hi then some (n.first + b - n.lo) else none)
  else ((List.range n.nchild).map (fun i => n.first + i)).find? (fun c => (deckNode d c).label == b)

/-- Whether token `i` is SPECIAL, and its bytes (08 R199). -/
def tokenSpecial (d : List Byte) (i : Nat) : Bool := bitAt (fieldOf d (deckTableOff d + 8 * i + 5) 1) 0
def tokenBytes (d : List Byte) (i : Nat) : List Byte :=
  (d.drop (deckPoolOff d + fieldOf d (deckTableOff d + 8 * i) 4)).take (fieldOf d (deckTableOff d + 8 * i + 4) 1)

/-- Paths of the nodes in node order: parents precede children, so each path extends an earlier one (08 R200). -/
def deckPaths (d : List Byte) : List (List Byte) :=
  let nodes := (List.range (deckNodes d)).map (deckNode d)
  (List.range (deckNodes d)).foldl (fun paths n =>
    if n = 0 then [[]]
    else
      match (nodes.zip paths).find? (fun x => decide (x.1.first ≤ n) && decide (n < x.1.first + x.1.nchild)) with
      | some (_, p) => paths ++ [p ++ [BitVec.ofNat 8 (nodes.getD n (deckNode d 0)).label]]
      | none => paths ++ [[]]) []

/-- Whether a child list has strictly rising labels with LO and HI its ends, dense where it says so (08 R200). -/
def childrenOk (n : TrieNode) (labels : List Nat) : Bool :=
  if n.nchild = 0 then n.first == 0 && n.lo == 0 && n.hi == 0 && !n.dense
  else
    (labels.zip labels.tail).all (fun x => decide (x.1 < x.2)) && labels.head? == some n.lo && labels.getLast? == some n.hi
      && (!n.dense || n.hi - n.lo + 1 == n.nchild)

/-- The header checks of 08 R197 and R200. -/
def deckHeaderOk (d : List Byte) : Bool :=
  decide (64 ≤ d.length) && fieldOf d 0 4 == 0x4B434544 && fieldOf d 4 2 == 1 && fieldOf d 6 2 == 0
    && decide (256 ≤ deckVocab d) && decide (deckVocab d ≤ 1048576) && decide (257 ≤ deckNodes d)
    && decide (deckNodes d ≤ 33554432) && decide (deckPoolBytes d ≤ 134217728) && zeroRange d 0x14 20
    && deckNodesOff d % 64 == 0 && deckTableOff d % 64 == 0 && deckPoolOff d % 64 == 0
    && decide (deckNodesOff d + 16 * deckNodes d ≤ d.length) && decide (deckTableOff d + 8 * deckVocab d ≤ d.length)
    && decide (deckPoolOff d + deckPoolBytes d ≤ d.length)

/-- The reserved fields of the nodes and the token table are 0, and each token's bytes lie in the pool (08 R198, R199). -/
def deckEntriesOk (d : List Byte) : Bool :=
  (List.range (deckNodes d)).all (fun n =>
      let o := deckNodesOff d + 16 * n
      bits (fieldOf d o 4) 30 20 == 0 && decide (fieldOf d (o + 8) 2 ≤ 256) && decide (fieldOf d (o + 0xB) 1 < 2)
        && fieldOf d (o + 0xE) 2 == 0)
    && (List.range (deckVocab d)).all (fun i =>
      let o := deckTableOff d + 8 * i
      decide (fieldOf d (o + 4) 1 ≤ 128) && decide (fieldOf d (o + 5) 1 < 2) && fieldOf d (o + 6) 2 == 0
        && decide (fieldOf d o 4 + fieldOf d (o + 4) 1 ≤ deckPoolBytes d))

/-- The shape checks of 08 R200: root, byte children, one parent each, child order, leaves, depth. -/
def deckTrieOk (d : List Byte) : Bool :=
  let nodes := (List.range (deckNodes d)).map (deckNode d)
  let root := deckNode d 0
  let kids (n : TrieNode) : List Nat := ((nodes.drop n.first).take n.nchild).map (fun k => k.label)
  let parents (n : Nat) : Nat := (nodes.filter (fun x => decide (x.first ≤ n) && decide (n < x.first + x.nchild))).length
  root.nchild == 256 && root.dense && root.lo == 0 && root.hi == 255 && root.first == 1 && root.token.isNone
    && root.label == 0
    && ((List.range 256).all (fun i => (deckNode d (i + 1)).label == i && (deckNode d (i + 1)).token.isSome))
    && (nodes.zip (List.range (deckNodes d))).all (fun x =>
      let (n, i) := x
      (i == 0 || n.nchild == 0 || decide (i < n.first)) && decide (n.first + n.nchild ≤ deckNodes d)
        && (i == 0 || parents i == 1) && childrenOk n (kids n) && (n.nchild != 0 || n.token.isSome))
    && (deckPaths d).all (fun p => decide (p.length ≤ 128))

/-- The token checks of 08 R200: one node a token, a node's token spelled by its path, every other token SPECIAL. -/
def deckTokensOk (d : List Byte) : Bool :=
  let owned := ((List.range (deckNodes d)).zip (deckPaths d)).filterMap (fun x => (deckNode d x.1).token.map (fun t => (t, x.2)))
  decide ((dedup (owned.map (fun x => x.1))).length = owned.length)
    && owned.all (fun x => decide (x.1 < deckVocab d) && !tokenSpecial d x.1 && tokenBytes d x.1 == x.2)
    && (List.range (deckVocab d)).all (fun i => has (fun x => x.1 == i) owned || tokenSpecial d i)

/-- Every check MODEL_LOAD makes of a deck (08 R200). -/
def deckOk (d : List Byte) : Bool := deckHeaderOk d && deckEntriesOk d && deckTrieOk d && deckTokensOk d

/-! ### Greedy longest match (08 R201) -/

/-- A token cut from bytes: its id, the bytes it covers, and whether a cut point may follow it (07 R182). -/
structure Cut where
  token : Nat
  bytes : Nat
  cutAfter : Bool
  deriving DecidableEq, Repr

/-- Where a walk stopped: node, depth, longest token met, and whether it stopped at the end of the bytes. -/
structure Walk where
  node : Nat
  depth : Nat
  best : Option (Nat × Nat)
  atEnd : Bool
  deriving DecidableEq, Repr

/-- Walk the trie along bytes. -/
def walkDeck (d : List Byte) : List Byte → Walk → Walk
  | [], w => { w with atEnd := true }
  | b :: bs, w =>
    match deckChild d (deckNode d w.node) b.toNat with
    | none => w
    | some c =>
      let best := match (deckNode d c).token with
        | some t => some (t, w.depth + 1)
        | none => w.best
      walkDeck d bs { node := c, depth := w.depth + 1, best := best, atEnd := false }

/-- A walk from the root. -/
def walkFrom (d bs : List Byte) : Walk := walkDeck d bs { node := 0, depth := 0, best := none, atEnd := false }

/-- Cut bytes until they are used up or a match stays open; answers the tokens and the open bytes. -/
def cutBytes (d : List Byte) (closed : Bool) : Nat → List Byte → List Cut × List Byte
  | 0, bs => ([], bs)
  | _, [] => ([], [])
  | n + 1, bs =>
    let w := walkFrom d bs
    if w.atEnd && (deckNode d w.node).nchild ≠ 0 && !closed then ([], bs)
    else
      match w.best with
      | none => ([], bs)
      | some (t, len) =>
        let (ts, r) := cutBytes d closed n (bs.drop len)
        ({ token := t, bytes := len, cutAfter := true } :: ts, r)

/-! ### Validation (08 R203, R204) -/

/-- Continuation bytes a lead byte calls for; none for a byte that begins no character. -/
def utf8Need (b : Nat) : Option Nat :=
  if b < 0x80 then some 0 else if 0xC2 ≤ b ∧ b ≤ 0xDF then some 1 else if 0xE0 ≤ b ∧ b ≤ 0xEF then some 2
  else if 0xF0 ≤ b ∧ b ≤ 0xF4 then some 3 else none

/-- Whether a byte continues pending bytes. -/
def utf8Continues (pend : List Byte) (b : Nat) : Bool :=
  let lo := match pend with | [l] => if l = 0xE0 then 0xA0 else if l = 0xF0 then 0x90 else 0x80 | _ => 0x80
  let hi := match pend with | [l] => if l = 0xED then 0x9F else if l = 0xF4 then 0x8F else 0xBF | _ => 0xBF
  lo ≤ b && b ≤ hi

/-- Continuation bytes pending bytes still need. -/
def pendNeed (pend : List Byte) : Nat :=
  match pend with
  | [] => 0
  | l :: r => (utf8Need l.toNat).getD 0 - r.length

/-- A piece of validated input: released bytes, or an invalid sequence; with the input bytes taken up to its end. -/
structure Piece where
  bad : Bool
  bytes : List Byte
  upto : Nat
  deriving DecidableEq, Repr

/-- Validate bytes after pending ones: pieces, and the bytes left pending; `at'` counts input bytes taken. -/
def validate (final : Bool) : List Byte → Nat → List Byte → List Piece × List Byte
  | pend, at', [] => if final && !pend.isEmpty then ([{ bad := true, bytes := pend, upto := at' }], []) else ([], pend)
  | pend, at', b :: bs =>
    let fresh (first : List Piece) : List Piece × List Byte :=
      match utf8Need b.toNat with
      | none =>
        let (ps, r) := validate final [] (at' + 1) bs
        (first ++ { bad := true, bytes := [b], upto := at' + 1 } :: ps, r)
      | some 0 =>
        let (ps, r) := validate final [] (at' + 1) bs
        (first ++ { bad := false, bytes := [b], upto := at' + 1 } :: ps, r)
      | some _ =>
        let (ps, r) := validate final [b] (at' + 1) bs
        (first ++ ps, r)
    if pend.isEmpty then fresh []
    else if utf8Continues pend b.toNat then
      if pendNeed pend = 1 then
        let (ps, r) := validate final [] (at' + 1) bs
        ({ bad := false, bytes := pend ++ [b], upto := at' + 1 } :: ps, r)
      else validate final (pend ++ [b]) (at' + 1) bs
    else fresh [{ bad := true, bytes := pend, upto := at' }]

/-- What cutting input came to. -/
structure Tokenized where
  cuts : List Cut
  openBytes : List Byte
  pend : List Byte
  invalid : Nat
  rejected : Bool
  /-- Input bytes taken. -/
  taken : Nat
  /-- Deck nodes the walks met, in order (08 R214). -/
  nodes : List Nat := []
  deriving DecidableEq, Repr

/-- Nodes a walk along bytes meets. -/
def walkNodes (d : List Byte) : List Byte → Nat → List Nat
  | [], n => [n]
  | b :: bs, n => n :: (match deckChild d (deckNode d n) b.toNat with
    | none => []
    | some c => walkNodes d bs c)

/-- Nodes that cutting bytes meets: a closed match walks again the bytes that followed its token (08 R213, R214). -/
def cutNodes (d : List Byte) (closed : Bool) : Nat → List Byte → List Nat
  | 0, _ => []
  | _, [] => []
  | n + 1, bs =>
    let w := walkFrom d bs
    walkNodes d bs 0 ++
      (if w.atEnd && (deckNode d w.node).nchild ≠ 0 && !closed then []
      else
        match w.best with
        | none => []
        | some (_, len) => cutNodes d closed n (bs.drop len))

/-- The replacement tokens of an invalid sequence (08 R204, 07 R182). -/
def replacementCuts (fffd : List Nat) (n : Nat) : List Cut :=
  (List.range fffd.length).map (fun i =>
    let last := i + 1 = fffd.length
    { token := fffd.getD i 0, bytes := if last then n else 0, cutAfter := last })

/-- Cut validated pieces under a policy, released bytes gathering in `buf` (08 R201, R204). -/
def cutPieces (d : List Byte) (fffd : List Nat) (policy : Nat) (final : Bool) (len : Nat) (pend : List Byte) :
    List Piece → List Byte → Tokenized → Tokenized
  | [], buf, t =>
    let (cs, o) := cutBytes d final (buf.length + 1) buf
    { t with cuts := t.cuts ++ cs, openBytes := o, pend := pend, taken := len, nodes := t.nodes ++ cutNodes d final (buf.length + 1) buf }
  | p :: ps, buf, t =>
    if !p.bad then cutPieces d fffd policy final len pend ps (buf ++ p.bytes) t
    else
      let (cs, _) := cutBytes d true (buf.length + 1) buf
      let t := { t with cuts := t.cuts ++ cs, invalid := t.invalid + 1, nodes := t.nodes ++ cutNodes d true (buf.length + 1) buf }
      match policy with
      | 0 => cutPieces d fffd policy final len pend ps [] { t with cuts := t.cuts ++ replacementCuts fffd p.bytes.length }
      | 1 => cutPieces d fffd policy final len pend ps [] { t with cuts := t.cuts ++ p.bytes.map (fun b =>
          { token := ((deckNode d (b.toNat + 1)).token).getD 0, bytes := 1, cutAfter := true }) }
      | _ => { t with openBytes := [], pend := [], rejected := true, taken := p.upto }

/-- Cut input that follows open and pending bytes (08 R201 to R207). -/
def tokenizeBytes (d : List Byte) (fffd : List Nat) (policy : Nat) (final : Bool) (openBytes pend input : List Byte) : Tokenized :=
  let (ps, r) := validate final pend 0 input
  cutPieces d fffd policy final input.length r ps openBytes
    { cuts := [], openBytes := [], pend := [], invalid := 0, rejected := false, taken := 0 }

/-- The tokens of a whole text. -/
def tokenizeAll (d : Deck) (policy : Nat) (text : List Byte) : Tokenized := tokenizeBytes d.image d.fffd policy true [] [] text

/-- F and the replacement of a deck: U+FFFD cut alone (08 R200). -/
def deckFffd (image : List Byte) : List Nat :=
  (tokenizeBytes image [] 1 true [] [] [0xEF, 0xBF, 0xBD]).cuts.map (fun c => c.token)

/-! ### The deck cache (08 R214) -/

/-- Lines of the deck cache: 8 MiB of 64 bytes. -/
def deckCacheLines : Nat := 131072

/-- Whether a line of a deck is pinned: nodes 0 to 256, 65 lines (08 R214). -/
def deckPinned (d : Deck) (line : Nat) : Bool :=
  let n := deckNodesOff d.image / 64
  decide (n ≤ line) && decide (line < n + 65)

/-- Whether a lane finds a line in the cache. -/
def State.deckHit (s : State) (d : Deck) (line : Nat) : Bool := deckPinned d line || s.deckCache.contains (d.number, line)

/-- A lane reads a line: it becomes the most recently used; a miss is counted, and the least recently used unpinned line goes (08 R214). -/
def State.readDeckLine (s : State) (d : Deck) (line : Nat) : State :=
  if deckPinned d line then s
  else if s.deckCache.contains (d.number, line) then
    { s with deckCache := s.deckCache.filter (fun x => x ≠ (d.number, line)) ++ [(d.number, line)] }
  else
    let kept := s.deckCache.drop (s.deckCache.length + 1 - (deckCacheLines - 65 * s.decks.length))
    { (s.bump64 0x00090018 1) with deckCache := kept ++ [(d.number, line)] }

/-- A deck is loaded: its 65 pinned lines take the place of the least recently used ones (08 R214). -/
def State.pinDeck (s : State) : State :=
  { s with deckCache := s.deckCache.drop (s.deckCache.length - (deckCacheLines - 65 * s.decks.length)) }

/-- Keep one of equal neighbours. -/
def squeeze : List Nat → List Nat
  | [] => []
  | x :: xs =>
    match squeeze xs with
    | [] => [x]
    | y :: ys => if x = y then y :: ys else x :: y :: ys

/-- Lines of nodes, and of the table entries and pool bytes of tokens; which lines the search among the children of a node reads beyond
the child it takes is not stated, and none are counted (DESIGN CHOICE, notes/assumptions/46.md). -/
def nodeLines (d : List Byte) (nodes : List Nat) : List Nat := squeeze (nodes.map (fun n => (deckNodesOff d + 16 * n) / 64))
def tokenLines (d : List Byte) (ids : List Nat) : List Nat :=
  squeeze ((ids.filter (fun i => i < deckVocab d)).flatMap (fun i =>
    let o := deckTableOff d + 8 * i
    let p := deckPoolOff d + fieldOf d o 4
    let n := fieldOf d (o + 4) 1
    o / 64 :: (if n = 0 then [] else (List.range ((p + n - 1) / 64 - p / 64 + 1)).map (fun j => p / 64 + j))))

/-- A lane reads lines of a deck, in order. -/
def State.readDeck (s : State) (d : Deck) (lines : List Nat) : State := lines.foldl (fun s l => s.readDeckLine d l) s

/-- The key of a line of an object in T1. -/
def State.lineKey (s : State) (t : Nat) (va : Addr) (line : Nat) : Nat := s.keyOf t true .load (va.toNat + 64 * line)

/-- Whether a line a lane misses cannot be read: no copy restores it (08 R214, R215, 12 R308). -/
def State.deckFault (s : State) (d : Deck) (lines : List Nat) : Bool :=
  lines.any (fun l => !s.deckHit d l && s.poisoned (s.lineKey d.tenant d.va l) 64)

/-- Whether a line a lane misses lies in a channel under re-homing, which stalls the lane (09 R235). -/
def State.deckHoming (s : State) (d : Deck) (lines : List Nat) : Bool :=
  lines.any (fun l => !s.deckHit d l && s.underHoming (s.lineKey d.tenant d.va l))

/-- What stands against lines of a deck: lines in the cache are at hand, the others come from T1 (01 R22, 08 R214, R215, 09 R235). -/
def State.deckCheck (s : State) (w : Waiter) (d : Deck) (lines : List Nat) : UCheck :=
  if lines.all (s.deckHit d) then .ok
  else if s.objectWaits d.tenant d.va.toNat d.image.length then (s.fetchFate w d.tenant d.va.toNat d.image.length).elim .wait .failed
  else if s.deckHoming d lines then .wait
  else if s.deckFault d lines then .poison else .ok

/-- Count what a tokenization took and wrote, and read the lines it walks (08 R204, R214, R217). -/
def State.countTokenized (s : State) (d : Deck) (t : Tokenized) : State :=
  (((s.bump64 0x00090000 t.taken).bump64 0x00090008 t.cuts.length).bumpBy 0x00090020 t.invalid).readDeck d (nodeLines d.image t.nodes)

/-- A deck a command may use: loaded by the tenant, and not evicted before the command (08 R196, R216). -/
def State.deckFor (s : State) (t h d : Nat) : Option Deck :=
  s.decks.find? (fun x => x.number == d && x.tenant == t && (match x.evicting with | none => true | some e => decide (h < e.cmd)))

/-- A deck a unit issue may use (08 R196, R216). -/
def State.deckOf (s : State) (u : UnitIssue) (d : Nat) : Option Deck :=
  s.decks.find? (fun x => x.number == d && x.tenant == u.tenant
    && (match x.evicting with | none => true | some e => e.issues.contains u.key))

/-! ### TOKENIZE (08 R205 to R208, R215) -/

/-- The open bytes and pending bytes of a carry (08 R205). -/
def carryMatch (c : List Byte) : List Byte := (c.drop 0x40).take (fieldOf c 3 1)
def carryPend (c : List Byte) : List Byte := (c.drop 0x11).take (fieldOf c 1 1)

/-- Whether a carry may be used with a deck: its fields are in range, it is not CLOSED, and an OPEN one names the deck
(08 R205, R206, R215). -/
def carryOk (d : List Byte) (deck : Nat) (c : List Byte) : Bool :=
  decide (fieldOf c 0 1 < 2) && decide (fieldOf c 1 1 ≤ 3) && decide (fieldOf c 2 1 ≤ 3) && decide (fieldOf c 3 1 ≤ 127)
    && (fieldOf c 0 1 == 0 || fieldOf c 4 4 == deck) && decide (fieldOf c 8 4 < deckNodes d)
    && bits (fieldOf c 0xC 4) 30 20 == 0 && decide (fieldOf c 0x10 1 ≤ 127) && zeroRange c 0x28 24 && zeroRange c 0xC0 64

/-- Whether bytes form a character that is well-formed so far and incomplete, or are none (08 R203). -/
def pendingOk : List Byte → List Byte → Bool
  | [], [] => true
  | pend, [] => decide (0 < pendNeed pend)
  | [], b :: bs => (match utf8Need b.toNat with | some (_ + 1) => true | _ => false) && pendingOk [b] bs
  | pend, b :: bs => decide (1 < pendNeed pend) && utf8Continues pend b.toNat && pendingOk (pend ++ [b]) bs

/-- Whether bytes end with a character: at most three continuation bytes of one cut before them, then whole characters, as released bytes do (08
R203). -/
def endsWhole (m : List Byte) : Bool :=
  let r := m.dropWhile (fun b => decide (0x80 ≤ b.toNat) && decide (b.toNat ≤ 0xBF))
  let (ps, p) := validate true [] 0 r
  decide (m.length ≤ r.length + 3) && p.isEmpty && !has (fun x => x.bad) ps

/-- Whether a carry's fields agree with one another, as the unit writes them; where software broke that, the tokens are
undefined (08 R206). -/
def carrySound (d c : List Byte) : Bool :=
  if fieldOf c 0 1 = 0 then zeroRange c 0 0x40 && zeroRange c 0x40 128
  else
    let w := walkFrom d (carryMatch c)
    fieldOf c 8 4 == (if fieldOf c 3 1 = 0 then 0 else w.node)
      && fieldOf c 0xC 4 == (match w.best with | some (t, _) => 2 ^ 31 + t | none => 0)
      && fieldOf c 0x10 1 == (match w.best with | some (_, n) => n | none => 0)
      && fieldOf c 2 1 == pendNeed (carryPend c) && w.depth == fieldOf c 3 1
      && (fieldOf c 3 1 == 0 || (deckNode d w.node).nchild != 0) && endsWhole (carryMatch c) && pendingOk [] (carryPend c)

/-- The carry the unit writes back (08 R205, R206). -/
def carryBytes (d : List Byte) (deck : Nat) (old : List Byte) (closed : Bool) (t : Tokenized) : List Byte :=
  let w := walkFrom d t.openBytes
  leBytes 1 (if closed then 2 else 1) ++ leBytes 1 t.pend.length ++ leBytes 1 (pendNeed t.pend)
    ++ leBytes 1 t.openBytes.length ++ leBytes 4 deck ++ leBytes 4 (if t.openBytes.isEmpty then 0 else w.node)
    ++ leBytes 4 (match w.best with | some (k, _) => 2 ^ 31 + k | none => 0)
    ++ leBytes 1 (match w.best with | some (_, n) => n | none => 0) ++ (t.pend ++ List.replicate (3 - t.pend.length) 0)
    ++ leBytes 4 (fieldOf old 0x14 4 + t.invalid) ++ leBytes 8 (fieldOf old 0x18 8 + t.taken)
    ++ leBytes 8 (fieldOf old 0x20 8 + t.cuts.length) ++ leBytes 24 0
    ++ (t.openBytes ++ List.replicate (128 - t.openBytes.length) 0) ++ leBytes 64 0

/-- Undefined tokens: at most what fits the output (08 R206, notes/assumptions/6.md). -/
def freeCuts (n cap : Nat) : List Cut :=
  (List.range (Config.free n 0 % (cap + 1))).map (fun i => { token := Config.free n (i + 1), bytes := 0, cutAfter := true })

/-- What an issue cuts from its input; after a carry that software changed the tokens are undefined (08 R206). -/
def issueCuts (d : Deck) (policy : Nat) (final : Bool) (carry input : List Byte) (draw cap : Nat) : Tokenized :=
  if carrySound d.image carry then tokenizeBytes d.image d.fffd policy final (carryMatch carry) (carryPend carry) input
  else { tokenizeBytes d.image d.fffd policy final [] [] input with cuts := freeCuts draw cap }

/-- Write the tokens, the carry and the record of a TOKENIZE issue (08 R204 to R208). -/
def State.putTokens (s : State) (u : UnitIssue) (d : Deck) (final : Bool) (carry : List Byte) (t : Tokenized) : State :=
  let ca := fieldOf u.body 0x20 8
  let s := s.draw.countTokenized d t
  let s := if t.rejected then s.bump 0x00090024 else s
  let s := s.wrTva u.tenant u.stock (fieldOf u.body 0x18 8) (t.cuts.flatMap (fun c => leBytes 4 c.token))
  let s := if ca = 0 then s else s.wrTva u.tenant u.stock ca (carryBytes d.image d.number carry (final || t.rejected) t)
  s.finishIssue u.key (if t.rejected then St.inputInvalid else St.ok) t.cuts.length

/-- TOKENIZE, when a lane has taken it: every check of R215 in its order; then the input is cut, the tokens and the carry are written, and
the record (08 R201 to R208, R213 to R217). An issue without FINAL and with IN_LEN 0 changes nothing. -/
def execTokenize (k : IssueKey) (s : State) : Res :=
  .next (match s.laneIssue k 3 1 with
    | none => s
    | some u =>
      let b := u.body
      let policy := fieldOf b 4 1
      let final := bitAt (fieldOf b 5 1) 0
      let len := fieldOf b 0x10 4
      let cap := fieldOf b 0x14 4
      let ca := fieldOf b 0x20 8
      match s.deckOf u (fieldOf b 0 4) with
      | none => s.finishIssue k St.badParam 0
      | some d =>
        let f := if policy = 0 then d.fffd.length else 1
        let input := s.unitCheck u .load (fieldOf b 8 8) len 1
        let output := s.unitCheck u .store (fieldOf b 0x18 8) (4 * cap) 4
        let both := if ca = 0 then .ok else worstCheck [s.unitCheck u .load ca 256 64, s.unitCheck u .store ca 256 64]
        if policy > 2 || fieldOf b 5 1 > 1 || fieldOf b 6 2 ≠ 0 || len > 16777216 || cap < f * (len + 130)
            || (ca = 0 && !final) || !bodyTailZero u 0x28 || worstCheck [input, output, both] = .bad then s.finishIssue k St.badParam 0
        else
          s.onCheck k both (fun s =>
            let carry := if ca = 0 then List.replicate 256 0 else s.rdTva u.tenant u.stock ca 256
            let cut (final : Bool) (n : Nat) : Tokenized :=
              issueCuts d policy final carry (s.rdTva u.tenant u.stock (fieldOf b 8 8) n) s.fresh cap
            let early := cut false (s.readable u.tenant u.stock (fieldOf b 8 8) len)
            if !carryOk d.image d.number carry then s.finishIssue k St.badParam 0
            else if len = 0 && !final then s.finishIssue k St.ok 0
            else
              s.onCheck k (if early.rejected then output else worstCheck [input, output]) (fun s =>
                let t := if early.rejected then early else cut final len
                s.onCheck k (s.deckCheck (.issue k) d (nodeLines d.image t.nodes)) (fun s => s.putTokens u d final carry t))))

/-! ### DETOKENIZE (08 R209 to R212) -/

/-- Pass bytes through the hold-back stage: the bytes out, the bytes held, and the ill-formed releases (08 R209). -/
def holdBack : List Byte → List Byte → List Byte × List Byte × Nat
  | held, [] => ([], held, 0)
  | held, b :: bs =>
    let fresh (out : List Byte) (n : Nat) : List Byte × List Byte × Nat :=
      match utf8Need b.toNat with
      | some (_ + 1) => let (o, h, m) := holdBack [b] bs; (out ++ o, h, n + m)
      | _ => let (o, h, m) := holdBack [] bs; (out ++ b :: o, h, n + m)
    if held.isEmpty then fresh [] 0
    else if utf8Continues held b.toNat then
      if pendNeed held = 1 then let (o, h, m) := holdBack [] bs; (held ++ b :: o, h, m)
      else holdBack (held ++ [b]) bs
    else fresh held 1

/-- Detokenize ids: the bytes out, the bytes held, ill-formed releases and dropped ids (08 R209, R210). -/
def detokenizeIds (d : List Byte) (final : Bool) (held : List Byte) (ids : List Nat) : List Byte × List Byte × Nat × Nat :=
  let good := ids.filter (fun i => i < deckVocab d)
  let (o, h, n) := holdBack held (good.flatMap (tokenBytes d))
  let bad := ids.length - good.length
  if final && !h.isEmpty then (o ++ h, [], n + 1, bad) else (o, h, n, bad)

/-- Count a detokenization, and read the lines of its tokens (08 R209, R210, R214, R217). -/
def State.countDetok (s : State) (d : Deck) (ids : List Nat) (ill bad : Nat) : State :=
  (((s.bump64 0x00090010 ids.length).bumpBy 0x0009002C ill).bumpBy 0x00090028 bad).readDeck d (tokenLines d.image ids)

/-- Whether a DETOKENIZE carry may be used (08 R211, R215). -/
def detokCarryOk (deck : Nat) (c : List Byte) : Bool :=
  decide (fieldOf c 0 1 < 2) && decide (fieldOf c 1 1 ≤ 3) && decide (fieldOf c 2 1 ≤ 3)
    && (fieldOf c 0 1 == 0 || fieldOf c 4 4 == deck) && fieldOf c 3 1 == 0 && zeroRange c 0xB 5

/-- Whether the held bytes of a carry agree with its NEED (08 R206, R211). -/
def detokCarrySound (c : List Byte) : Bool :=
  let held := (c.drop 8).take (fieldOf c 1 1)
  if fieldOf c 0 1 = 0 then zeroRange c 0 32 else fieldOf c 2 1 == pendNeed held && pendingOk [] held

/-- The carry DETOKENIZE writes back (08 R211). -/
def detokCarryBytes (deck : Nat) (old : List Byte) (final : Bool) (held : List Byte) (tokens out : Nat) : List Byte :=
  leBytes 1 (if final then 2 else 1) ++ leBytes 1 held.length ++ leBytes 1 (pendNeed held) ++ leBytes 1 0 ++ leBytes 4 deck
    ++ (held ++ List.replicate (3 - held.length) 0) ++ leBytes 5 0 ++ leBytes 8 (fieldOf old 0x10 8 + tokens)
    ++ leBytes 8 (fieldOf old 0x18 8 + out)

/-- DETOKENIZE, when a lane has taken it: every check of R215 in its order; then each token's bytes pass the hold-back stage. After a
carry that software changed the bytes are undefined (08 R206, R209 to R211, R213 to R215). -/
def execDetokenize (k : IssueKey) (s : State) : Res :=
  .next (match s.laneIssue k 4 1 with
    | none => s
    | some u =>
      let b := u.body
      let final := bitAt (fieldOf b 5 1) 0
      let len := fieldOf b 0x10 4
      let cap := fieldOf b 0x14 4
      let ca := fieldOf b 0x20 8
      match s.deckOf u (fieldOf b 0 4) with
      | none => s.finishIssue k St.badParam 0
      | some d =>
        let ranges := worstCheck [s.unitCheck u .load (fieldOf b 8 8) (4 * len) 4, s.unitCheck u .store (fieldOf b 0x18 8) cap 1]
        let both := if ca = 0 then .ok else worstCheck [s.unitCheck u .load ca 32 32, s.unitCheck u .store ca 32 32]
        if fieldOf b 4 1 ≠ 0 || fieldOf b 5 1 > 1 || fieldOf b 6 2 ≠ 0 || len > 131072 || cap < 128 * len + 3
            || (ca = 0 && !final) || !bodyTailZero u 0x28 || worstCheck [ranges, both] = .bad then s.finishIssue k St.badParam 0
        else
          s.onCheck k both (fun s =>
            let carry := if ca = 0 then List.replicate 32 0 else s.rdTva u.tenant u.stock ca 32
            if !detokCarryOk d.number carry then s.finishIssue k St.badParam 0
            else if len = 0 && !final then s.finishIssue k St.ok 0
            else
              s.onCheck k ranges (fun s =>
                let raw := s.rdTva u.tenant u.stock (fieldOf b 8 8) (4 * len)
                let ids := (List.range len).map (fun i => fieldOf raw (4 * i) 4)
                let lines := tokenLines d.image ids
                let sound := detokCarrySound carry
                let held := if sound then (carry.drop 8).take (fieldOf carry 1 1) else []
                let (o, h, ill, bad) := detokenizeIds d.image final held ids
                let o := if sound then o
                  else (List.range (Config.free s.fresh 0 % (cap + 1))).map (fun i => BitVec.ofNat 8 (Config.free s.fresh (i + 1)))
                s.onCheck k (s.deckCheck (.issue k) d lines) (fun s =>
                  let s := s.draw.countDetok d ids ill bad
                  let s := s.wrTva u.tenant u.stock (fieldOf b 0x18 8) o
                  let s := if ca = 0 then s
                    else s.wrTva u.tenant u.stock ca (detokCarryBytes d.number carry final h len o.length)
                  s.finishIssue k (if bad > 0 then St.part else St.ok) o.length))))

/-! ### Lines that arrive (08 R214) -/

/-- Who a lane that reads a line of a deck may serve: an issue of the tokenizer or the detokenizer that names the deck, a GRAMMAR issue of
an automaton of it, a query being tokenized, an insert, or a generation request. -/
def State.deckServed (s : State) (d : Deck) : List Waiter :=
  let auts := (s.automata.filter (fun a => a.tenant == d.tenant && fieldOf a.image 0x10 4 == d.number)).map (fun a => a.va.toNat)
  (s.issues.filter (fun u => u.tenant == d.tenant && s.inLane u
      && (((u.unit == 3 || u.unit == 4) && fieldOf u.body 0 4 == d.number) || (u.unit == 5 && auts.contains (fieldOf u.body 0 8))))).map
        (fun u => Waiter.issue u.key)
    ++ (s.cmds.filter (fun c => c.tenant == d.tenant && (c.opcode == 0x0402 || c.opcode == 0x0501 || c.opcode == 0x0601))).map
        (fun c => Waiter.cmd c.handle)

/-- A line a lane missed arrives from T1 and the lane goes on. A line whose parity failed is read again, the event is counted, and the
issue or command that the lane serves is marked; which lane read it is a free value (08 R214, notes/assumptions/6.md). -/
def execDeckCacheFill (deck line : Nat) (parityBad : Bool) (s : State) : Res :=
  .next (match s.decks.find? (fun d => d.number == deck) with
    | none => s
    | some d =>
      if parityBad then
        let l := s.deckServed d
        let s' := (s.bump 0x00090030).draw
        match l[Config.free s.fresh 0 % l.length]? with
        | some w => s'.recoveredWaiter w
        | none => s'
      else if s.deckHit d line then s
      else s.readDeckLine d line)

end Sys2Proof.Machine
end

