-- ==== Sys2Proof/Machine/Lists.lean ====
section
/-!
DEFINITION. Collections and their lists: coarse search, the directory and segments, snapshots and filters, copies of lists,
epochs, rollback and compaction (05 R127 to R137, R143, R149, R152 to R157). The arithmetic choices are
notes/assumptions/18.md.
-/
namespace Sys2Proof.Machine

/-! ### Collections (05 R128 to R132) -/

/-- The descriptor of a COLLECTION object. -/
def collDescOf (b : List Byte) : CollDesc :=
  { dim := fieldOf b 0 2, metric := fieldOf b 2 1, subbits := fieldOf b 3 1, codeBytes := fieldOf b 4 1,
    spill := bitAt (fieldOf b 5 1) 0, vecT1 := bitAt (fieldOf b 5 1) 1, projDim := fieldOf b 6 2, l1Count := fieldOf b 8 4,
    l2PerCell := fieldOf b 0xC 4, nprobeMax := fieldOf b 0x10 2, nprobeDef := fieldOf b 0x12 2, l1Probe := fieldOf b 0x14 2,
    kRefine := fieldOf b 0x16 2, farLimit := fieldOf b 0x18 2, maxWait := fieldOf b 0x1A 2, embedModel := fieldOf b 0x1C 4,
    t1ListBytes := fieldOf b 0x20 8 }

/-- Sub-quantisers m, projected dimension P, number of lists (05 R128, R132). -/
def CollDesc.m (d : CollDesc) : Nat := d.codeBytes * 8 / max d.subbits 1
def CollDesc.p (d : CollDesc) : Nat := if d.projDim = 0 then d.dim else d.projDim
def CollDesc.lists (d : CollDesc) : Nat := d.l1Count * d.l2PerCell

/-- Offsets of the sections of 05 R130, and the object's least length. -/
def CollDesc.l2Off (d : CollDesc) : Nat := 64 + roundUp (d.l1Count * d.p) 64
def CollDesc.pqOff (d : CollDesc) : Nat := d.l2Off + roundUp (d.lists * d.p) 64
def CollDesc.projOff (d : CollDesc) : Nat := d.pqOff + roundUp (2 * 2 ^ d.subbits * d.dim) 64
def CollDesc.bytes (d : CollDesc) : Nat :=
  if d.projDim = 0 then d.pqOff + 2 * 2 ^ d.subbits * d.dim else d.projOff + d.p * d.dim

/-- The checks of 05 R129 on the descriptor. -/
def collDescOk (b : List Byte) : Bool :=
  let d := collDescOf b
  decide (64 ≤ b.length) && decide (64 ≤ d.dim) && decide (d.dim ≤ 4096) && d.dim % 32 == 0 && decide (d.metric ≤ 2)
    && (d.subbits == 4 || d.subbits == 8) && decide (8 ≤ d.codeBytes) && decide (d.codeBytes ≤ 128) && d.codeBytes % 8 == 0
    && decide (fieldOf b 5 1 < 4)
    && (d.projDim == 0 || (decide (32 ≤ d.projDim) && decide (d.projDim + 32 ≤ d.dim) && d.projDim % 32 == 0))
    && decide (1 ≤ d.l1Count) && decide (d.l1Count ≤ 65536) && decide (1 ≤ d.l2PerCell) && decide (1 ≤ d.nprobeMax)
    && decide (d.nprobeMax ≤ 4096) && decide (1 ≤ d.nprobeDef) && decide (d.nprobeDef ≤ d.nprobeMax) && decide (1 ≤ d.l1Probe)
    && decide (d.l1Probe ≤ 256) && decide (d.kRefine ≤ 4096) && decide (d.farLimit ≤ 60000) && decide (d.maxWait ≤ 2000)
    && d.dim % d.m == 0 && decide (d.lists ≤ 2 ^ 24) && decide (d.l1Probe ≤ d.l1Count)
    && decide (d.nprobeMax ≤ d.l1Probe * d.l2PerCell) && zeroRange b 0x28 24 && decide (d.bytes ≤ b.length)

/-- Values of `n` FP8 E4M3 elements. -/
def e4m3Row (b : List Byte) (off n : Nat) : List FVal := ((b.drop off).take n).map (fun x => Fmt.e4m3.decode x.toNat)

/-- Codeword `c` of sub-quantiser `i` (05 R130). -/
def Collection.codeword (x : Collection) (i c : Nat) : List FVal :=
  let w := x.desc.dim / x.desc.m
  let off := x.desc.pqOff + 2 * (i * 2 ^ x.desc.subbits + c) * w
  (List.range w).map (fun j => Fmt.bf16.decode (fieldOf x.image (off + 2 * j) 2))

/-- Smaller scores rank first for squared Euclidean only (05 R131). -/
def CollDesc.largest (d : CollDesc) : Bool := d.metric ≠ 2

/-- The score of two vectors under a metric (05 R131, R138, R146). -/
def score (metric draw base : Nat) (a b : List FVal) : FVal :=
  sumFree draw base ((a.zip b).map (fun x =>
    if metric = 2 then (let e := x.1.add x.2.neg; e.mul e) else x.1.mul x.2))

/-- A vector over its length; none of zero length (05 R131). -/
def normalised (draw : Nat) (v : List FVal) : Option (List FVal) :=
  let n := ((score 0 draw 0 v v).sqrt).r32
  if n.isZero then none else some (v.map (fun x => (x.div n).r32))

/-- A query or item vector prepared: none with a NaN or infinite element, or of zero length under cosine (05 R131,
R150). -/
def CollDesc.prepare (d : CollDesc) (draw : Nat) (v : List FVal) : Option (List FVal) :=
  if v.all FVal.isFin then (if d.metric = 1 then normalised draw v else some v) else none

/-- The projected vector (05 R131). -/
def Collection.project (x : Collection) (draw : Nat) (v : List FVal) : List FVal :=
  if x.desc.projDim = 0 then v
  else (List.range x.desc.p).map (fun r => score 0 draw ((r + 1) * 2 ^ 20) (e4m3Row x.image (x.desc.projOff + r * x.desc.dim) x.desc.dim) v)

/-- Rank numbered vectors by score, best `k`, invalid scores left out (05 R131, 06 R165, R167). -/
def rankRows (d : CollDesc) (draw base k : Nat) (q : List FVal) (rows : List (Nat × List FVal)) : List Nat :=
  let es : List MEntry := rows.map (fun r =>
    { key := toF32 (score d.metric draw (base + (r.1 + 1) * 2 ^ 20) q r.2), index := BitVec.ofNat 64 r.1, source := 0 })
  (selectBest 0 d.largest false false k es).entries.map (fun e => e.index.toNat)

/-- The coarse ranking: level-1 cells, then the level-2 centroids of the best cells, to `n` ranks (05 R131). -/
def Collection.coarse (x : Collection) (draw n : Nat) (v : List FVal) : List Nat :=
  let d := x.desc
  let q := x.project draw v
  let cells := rankRows d draw (2 ^ 60) d.l1Probe q ((List.range d.l1Count).map (fun c => (c, e4m3Row x.image (64 + c * d.p) d.p)))
  rankRows d draw (2 ^ 61) n q (cells.flatMap (fun c => (List.range d.l2PerCell).map (fun j =>
    let l := c * d.l2PerCell + j
    (l, e4m3Row x.image (d.l2Off + l * d.p) d.p))))

/-- A collection by number. -/
def State.coll? (s : State) (n : Nat) : Option Collection := s.colls.find? (fun c => c.number == n)

/-- Change a collection. -/
def State.updColl (s : State) (n : Nat) (f : Collection → Collection) : State :=
  { s with colls := updWhere (fun c => c.number == n) f s.colls }

/-- The collection a command names, if its tenant holds it and no earlier MODEL_EVICT removed it (05 R127, R157). -/
def State.collFor (s : State) (t h n : Nat) : Option Collection :=
  s.colls.find? (fun c => c.number == n && c.tenant == t && (match c.evicting with | none => true | some e => decide (h < e.cmd)))

/-- A per-collection counter's offset (05 R163). -/
def collReg (c off : Nat) : Nat := 0x00071000 + c * 0x40 + off

/-- The list with a number; an empty one where nothing was inserted. -/
def Collection.llist (x : Collection) (l : Nat) : LList :=
  (x.lists.find? (fun y => y.number == l)).getD
    { number := l, place := .empty, visits := 0, segs := [], tombs := [], tombCap := 0, openTail := false, rewriting := none }

/-- Store a list. -/
def Collection.putList (x : Collection) (y : LList) : Collection :=
  { x with lists := insertBy (fun a b => decide (a.number < b.number)) y (x.lists.filter (fun z => z.number ≠ y.number)) }

/-- Entries of a segment (05 R134). -/
def CollDesc.segCap (d : CollDesc) : Nat := 65472 / (d.codeBytes + 16)

/-- COUNT of a list (05 R133). -/
def LList.count (y : LList) : Nat := sumNat (y.segs.map (fun g => g.entries.length))

/-! ### Snapshots and filters (05 R143, R153 to R155) -/

/-- The insert epoch of entry `i` of a segment: the epoch of the last mark at or before it (05 R153). -/
def Segment.epochOf (g : Segment) (i : Nat) : Nat :=
  match (g.marks.filter (fun m => m.2 ≤ i)).getLast? with
  | some m => m.1
  | none => 0

/-- Whether a snapshot sees an entry (05 R155). -/
def sees (snap epoch pos : Nat) (tombs : List Tomb) : Bool :=
  decide (epoch ≤ snap) && !has (fun t => t.pos == pos && decide (t.epoch ≤ snap)) tombs

/-- One filter term on an attribute word (05 R143). -/
def termHolds (t : List Byte) (attr : Nat) : Bool :=
  let f := attr / 2 ^ fieldOf t 0 1 % 2 ^ fieldOf t 1 1
  let a := fieldOf t 8 8
  let b := fieldOf t 0x10 8
  let r := match fieldOf t 2 1 with
    | 0 => f == a
    | 1 => decide (f < a)
    | 2 => decide (f ≤ a)
    | 3 => decide (a ≤ f) && decide (f ≤ b)
    | 4 => Nat.land f a != 0
    | _ => Nat.land f a == a
  r != bitAt (fieldOf t 3 1) 2

/-- The terms of a filter block. -/
def filterTerms (b : List Byte) : List (List Byte) := (List.range (fieldOf b 0 1)).map (fun i => (b.drop (8 + 24 * i)).take 24)

/-- Whether a filter passes an attribute word: all terms of some group that has terms (05 R143). -/
def filterPasses (b : List Byte) (attr : Nat) : Bool :=
  let ts := filterTerms b
  ts.isEmpty || (List.range 4).any (fun g =>
    let mine := ts.filter (fun t => bits (fieldOf t 3 1) 1 0 == g)
    !mine.isEmpty && mine.all (fun t => termHolds t attr))

/-- The checks of a filter block (05 R143). -/
def filterOk (b : List Byte) : Bool :=
  decide (fieldOf b 0 1 ≤ 8) && zeroRange b 1 7 && (filterTerms b).all (fun t =>
    decide (fieldOf t 0 1 ≤ 63) && decide (1 ≤ fieldOf t 1 1) && decide (fieldOf t 0 1 + fieldOf t 1 1 ≤ 64)
      && decide (fieldOf t 2 1 ≤ 5) && decide (fieldOf t 3 1 < 8) && zeroRange t 4 4
      && (fieldOf t 2 1 == 3 || fieldOf t 0x10 8 == 0))

/-! ### The directory and the segments as laid out (05 R133, R134) -/

/-- The code of a PLACE (05 R133). -/
def Place.code : Place → Nat
  | .empty => 0 | .t1 => 1 | .cached => 2 | .far => 3

/-- The first base at which a range of `n` directory entries meets no collection's range (05 R133). -/
def dirFit (ranges : List (Nat × Nat)) (n : Nat) : Option Nat :=
  (sortBy (fun a b => decide (a < b)) (0 :: ranges.map (fun r => r.1 + r.2))).find? (fun b =>
    decide (b + n ≤ 2 ^ 24) && !has (fun r => decide (b < r.1 + r.2) && decide (r.1 < b + n)) ranges)

/-- Give a new collection of `n` lists its contiguous range: the lowest that is free; where the free entries lie apart, the
ranges are moved together in order first (05 R133, notes/assumptions/18.md). -/
def State.dirPlace (s : State) (n : Nat) : State × Nat :=
  match dirFit (s.colls.map (fun x => (x.dirBase, x.desc.lists))) n with
  | some b => (s, b)
  | none =>
    let (cs, b) := s.colls.foldl (fun (acc : List Collection × Nat) x => (acc.1 ++ [{ x with dirBase := acc.2 }], acc.2 + x.desc.lists)) ([], 0)
    ({ s with colls := cs }, b)

/-- The handle of a media segment: it names collection, list and segment, and stays when its pages move (05 R133; DESIGN CHOICE,
notes/assumptions/18.md). -/
def segHandle (c l g : Nat) : Nat := 2 ^ 56 * c + 2 ^ 24 * l + g + 1

/-- Where segment `g` of a list is found from its directory entry or the segment before it: its T1 address, or for a far list its media handle
(05 R133 to R135). -/
def State.segAt (s : State) (x : Collection) (y : LList) (g : Nat) : Nat :=
  if y.segs.length ≤ g then 0
  else if y.place = .far then segHandle x.number y.number g
  else s.t1Address x.tenant (y.pages.getD g 0)

/-- The 32-byte directory entry of a list (05 R133). -/
def State.dirEntry (s : State) (x : Collection) (l : Nat) : List Byte :=
  let y := x.llist l
  let n := y.segs.length
  leBytes 8 (s.segAt x y 0) ++ leBytes 8 (if n = 0 then 0 else s.t1Address x.tenant (y.pages.getD (n - 1) 0))
    ++ leBytes 8 (if y.tombCap = 0 then 0 else s.t1Address x.tenant (y.tombPages.headD 0)) ++ leBytes 4 y.count
    ++ leBytes 1 x.number ++ leBytes 1 y.place.code ++ leBytes 2 y.visits

/-- The code of an entry as stored: two 4-bit sub-codes to a byte, the even one low (05 R134). -/
def packCode (subbits : Nat) : List Nat → List Byte
  | [] => []
  | [a] => [BitVec.ofNat 8 a]
  | a :: b :: r => if subbits = 8 then BitVec.ofNat 8 a :: packCode subbits (b :: r) else BitVec.ofNat 8 (a % 16 + 16 * (b % 16)) :: packCode subbits r

/-- The first 64 bytes of segment `g` of a list (05 R134). -/
def State.segHeader (s : State) (x : Collection) (y : LList) (g : Nat) : List Byte :=
  let z := y.segs.getD g { entries := [], marks := [] }
  let mark (i : Nat) : Option (Nat × Nat) := z.marks[i]?
  leBytes 8 (s.segAt x y (g + 1)) ++ leBytes 2 z.entries.length ++ leBytes 2 x.desc.segCap
    ++ leBytes 4 y.number ++ (List.range 4).flatMap (fun i => leBytes 8 (((mark i).map (fun m => m.1)).getD 0))
    ++ (List.range 4).flatMap (fun i => leBytes 2 (((mark i).map (fun m => m.2)).getD 0xFFFF)) ++ leBytes 8 0

/-- What segment `g` of a list holds, by offset: header, codes, ids, attribute words (05 R134). -/
def State.segParts (s : State) (x : Collection) (y : LList) (g : Nat) : List (Nat × List Byte) :=
  let es := (y.segs.getD g { entries := [], marks := [] }).entries
  let n := x.desc.segCap
  [(0, s.segHeader x y g), (0x40, es.flatMap (fun e => packCode x.desc.subbits e.code)),
    (0x40 + n * x.desc.codeBytes, es.flatMap (fun e => leBytes 8 e.id.toNat)),
    (0x40 + n * (x.desc.codeBytes + 8), es.flatMap (fun e => leBytes 8 e.attr.toNat))]

/-- Bytes by rising offset as one run, zeros between them. -/
def joinParts (l : List (Nat × List Byte)) : List Byte :=
  l.foldl (fun acc p => acc ++ List.replicate (p.1 - acc.length) 0 ++ p.2) []

/-- The 64 KiB of segment `g` of a list (05 R134). -/
def State.segBytes (s : State) (x : Collection) (y : LList) (g : Nat) : List Byte := block64 (joinParts (s.segParts x y g))

/-- The records of a tombstone block (05 R154). -/
def LList.tombBlock (y : LList) : List Byte := y.tombs.flatMap (fun t => leBytes 4 t.pos ++ leBytes 4 0 ++ leBytes 8 t.epoch)

/-- T1 bytes of a tombstone block: its records in whole pages (05 R154, 12 R318). -/
def tombBytes (cap : Nat) : Nat := roundUp (16 * cap) 65536

/-- Entries of a query's table. -/
def CollDesc.tableSize (d : CollDesc) : Nat := d.m * 2 ^ d.subbits

/-! ### Copies of lists (05 R135 to R137) -/

/-- Whether a page of a list or of its tombstone block is not in T1: after a reset lists refill T1 lazily (01 R22, 05 R157). -/
def State.listAbsent (s : State) (x : Collection) (y : LList) : Bool :=
  (y.pages ++ y.tombPages).any (fun p => p ≠ 0 && s.absentAt x.tenant (p / 65536))

/-- T1 bytes of a list under a place (05 R135). -/
def LList.t1 (y : LList) : Nat := if y.place = .far then min 65536 (65536 * y.segs.length) else 65536 * y.segs.length

/-- Whether a list's segment lies in T1: every segment, or of a far list the tail (05 R135). -/
def LList.inT1 (y : LList) (g : Nat) : Bool := decide (g < y.segs.length) && (y.place ≠ .far || g + 1 == y.segs.length)

/-- Give the segments and the tombstone block of a list the T1 pages they need, beside the lists' die first; free those they need no longer (04
R115, 05 R130, R135, R154). -/
def State.pageList (s : State) (x : Collection) (y : LList) : State :=
  let t := x.tenant
  let order := s.homeOrder 5
  let (s, pages) := (List.range (max y.segs.length y.pages.length)).foldl (fun (acc : State × List Nat) g =>
    let p := y.pages.getD g 0
    let (s, ps) := acc
    if y.inT1 g then
      if p = 0 then
        let va := s.areaFree t 1
        (s.addPage t va false order (some []), ps ++ [va])
      else (s, ps ++ [p])
    else (if p = 0 then s else s.freePages t p 1, if g < y.segs.length then ps ++ [0] else ps)) (s, [])
  let n := tombBytes y.tombCap / 65536
  let (s, tombs) :=
    if n = y.tombPages.length then (s, y.tombPages)
    else
      let s := y.tombPages.foldl (fun s p => s.freePages t p 1) s
      let va := s.areaFree t n
      ((List.range n).foldl (fun s i => s.addPage t (va + 65536 * i) false order (some [])) s, (List.range n).map (fun i => va + 65536 * i))
  let z := { y with pages := pages, tombPages := tombs }
  if z = y then s else s.updColl x.number (fun x => x.putList z)

/-- Write what changed of a list's segments and tombstone block in T1; an absent page takes its content when it is fetched (05 R134, R154). -/
def State.layList (s old : State) (x : Collection) (y : LList) : State :=
  let t := x.tenant
  let x0 := (old.coll? x.number).getD x
  let y0 := x0.llist y.number
  let put (s : State) (p : Nat) (l : List (Nat × List Byte)) : State :=
    if p = 0 || s.absentAt t (p / 65536) then s else s.wrPage (s.frameKey t (p / 65536)) l
  let s := (List.range y.segs.length).foldl (fun s g =>
    if y0.segs[g]? = y.segs[g]? && y0.pages[g]? = y.pages[g]? && old.segAt x0 y0 (g + 1) = s.segAt x y (g + 1) then s
    else put s (y.pages.getD g 0) (s.segParts x y g)) s
  if y0.tombs = y.tombs && y0.tombPages = y.tombPages then s
  else
    (y.tombPages.zip (List.range y.tombPages.length)).foldl (fun s p => put s p.1 [(0, (y.tombBlock.drop (65536 * p.2)).take 65536)]) s

/-- The lists of a collection have changed since a state: their T1 pages follow (04 R115, 05 R133 to R135). -/
def State.layLists (s old : State) (c : Nat) : State :=
  let s : State := match s.coll? c with
    | some x => x.lists.foldl (fun (s : State) y => s.pageList x y) s
    | none => s
  match s.coll? c with
  | some x => x.lists.foldl (fun (s : State) y => s.layList old x y) s
  | none => s

/-- Store segments of a list in place of their old copies: coded, or for a far list as they are, each on a channel that neither neighbour is on
(05 R135, 12 R315). Where one is refused, none is replaced. -/
def State.storeSegs (s : State) (c l : Nat) (segs : List Nat) : State × Bool :=
  match s.coll? c with
  | none => (s, true)
  | some x =>
    let y := x.llist l
    let owned (e : Extent) : Bool := segs.any (fun g => e.owner == .seg c l g)
    let old := s.flash.extents.filter owned
    let (z, ok) := segs.foldl (fun (acc : State × Bool) g =>
      let (z, ok) := acc
      if !ok then acc
      else
        let o : Owner := .seg c l g
        let b := z.segBytes x y g
        z.draw.mediaPut (if y.place = .far then z.flash.beside o else []) o x.tenant
          (if y.place = .far then farStored b else tierStored z.fresh 0 (y.pages.getD g 0) x.tenant b)) (s, true)
    if ok then (z.mediaFreeExt old.contains, true) else (z.mediaFreeExt (fun e => owned e && !old.contains e), false)

/-- What storing segments of a list will be charged, from a draw on. -/
def segCharges (y : LList) (draw n : Nat) : Nat := if y.place = .far then 65536 * n else sumNat ((List.range n).map (fun i => tierCharge (draw + i) 0))

/-- Whether a scoring batch has passes or far segments left (05 R141, R142). -/
def State.batchLive (s : State) (b : Nat) : Bool :=
  s.search.engines.any (fun e => e.work.any (fun p => p.batch == b)) || s.search.farWork.any (fun j => j.batch == b)

/-- The scoring batches that read a list. -/
def State.listBatches (s : State) (c l : Nat) : List Nat :=
  dedup ((s.search.engines.flatMap (fun e => e.work.filter (fun p => p.coll == c && p.list == l))).map (fun p => p.batch)
    ++ (s.search.farWork.filter (fun j => j.coll == c && j.list == l)).map (fun j => j.batch))

/-- A list is replaced by a new copy: the old one, its T1 bytes, its pages and its media copy, is freed at once, or after the last batch that used
it ends (05 R137, R156). -/
def State.retireCopy (s : State) (t c l t1 : Nat) (pages : List Nat) : State :=
  let mine (o : Owner) : Bool := match o with | .seg a b _ => a == c && b == l | _ => false
  let bs := s.listBatches c l
  if bs.isEmpty then ((pages.foldl (fun s p => s.freePages t p 1) s).releaseT1 t t1).mediaFree mine
  else
    let id := (s.search.oldCopies.map (fun o => o.id)).foldl max 0 + 1
    (s.updFlash (fun f => { f with extents := f.extents.map (fun e => if mine e.owner then { e with owner := .oldCopy id } else e) })).updSearch
      (fun z => { z with oldCopies := z.oldCopies ++ [{ id := id, tenant := t, coll := c, list := l, t1 := t1, pages := pages, batches := bs }] })

/-- Free old copies of lists. -/
def State.freeCopies (s : State) (p : OldCopy → Bool) : State :=
  (s.search.oldCopies.filter p).foldl (fun s o =>
      ((o.pages.foldl (fun s v => s.freePages o.tenant v 1) s).releaseT1 o.tenant o.t1).mediaFree (fun w => w == .oldCopy o.id))
    (s.updSearch (fun z => { z with oldCopies := z.oldCopies.filter (fun o => !p o) }))

/-- Free the old copies all of whose batches have ended (05 R137). -/
def State.settleCopies (s : State) : State := s.freeCopies (fun o => !o.batches.any s.batchLive)

/-- The queries of scoring batches. -/
def State.scoring (s : State) : List QueryKey :=
  dedup (s.search.engines.flatMap (fun e => e.work.flatMap (fun w => w.queries)) ++ s.search.farWork.flatMap (fun j => j.queries))

/-- Bytes of the hot-list cache that copies of CACHED lists may take beside the tables of scoring batches, one for each query (05 R136, R137,
R139). -/
def State.cacheRoom (s : State) : Nat :=
  let tables := sumNat (s.scoring.filterMap (fun k => (s.search.queries.find? (fun q => q.key == k)).bind (fun q =>
    (s.coll? q.coll).map (fun x => 2 * x.desc.tableSize))))
  48 * 2 ^ 20 - min tables (16 * 2 ^ 20)

/-- Of ranked lists, those whose copies fit in a room together, the first ones first; a cached list has at most 16 segments (05
R136). -/
def cachePick (room : Nat) (ls : List (Nat × LList)) : List (Nat × Nat) :=
  (ls.foldl (fun (acc : List (Nat × Nat) × Nat) y =>
    if y.2.segs.length ≤ 16 && !y.2.segs.isEmpty && decide (acc.2 + 65536 * y.2.segs.length ≤ room) then
      (acc.1 ++ [(y.1, y.2.number)], acc.2 + 65536 * y.2.segs.length)
    else acc) ([], 0)).1

/-- The lists of all collections in one of some places, by VISITS. -/
def State.ranked (s : State) (p : Place → Bool) : List (Nat × LList) :=
  sortBy (fun (a b : Nat × LList) => decide (a.2.visits > b.2.visits))
    (s.colls.flatMap (fun x => (x.lists.filter (fun y => p y.place)).map (fun y => (x.number, y))))

/-- Set CACHED on the lists picked and T1 on the other lists that were CACHED or T1 (05 R137). -/
def State.setCached (s : State) (picked : List (Nat × Nat)) : State :=
  { s with colls := s.colls.map (fun (x : Collection) => { x with lists := x.lists.map (fun y =>
      if y.place = .t1 || y.place = .cached then { y with place := if picked.contains (x.number, y.number) then .cached else .t1 } else y) }) }

/-- CACHED lists that have outgrown 16 segments or the cache lose their copies; the most visited keep theirs (05 R136). -/
def State.trimCached (s : State) : State := s.setCached (cachePick (48 * 2 ^ 20) (s.ranked (fun p => p == .cached)))

/-! ### Epochs (05 R149, R152 to R154) -/

/-- The oldest snapshot a live or future query of a collection may hold (05 R153, R156). -/
def State.oldestSnapshot (s : State) (x : Collection) : Nat :=
  let cs := s.cmds.filter (fun c => (c.opcode == 0x0401 || c.opcode == 0x0501) && c.tenant == x.tenant && c.field 0x10 2 == x.number)
  let qs := s.search.queries.filter (fun q => q.coll == x.number)
  (cs.map (fun c => c.snapshot) ++ qs.map (fun q => q.snapshot)).foldl min x.published

/-- Take the collection's next epoch for a command (05 R149). -/
def State.takeEpoch (s : State) (c h : Nat) : State :=
  s.updColl c (fun x => { x with
    nextEpoch := x.nextEpoch + 1
    epochs := x.epochs ++ [{ number := x.nextEpoch, cmd := h, written := false, count := 0, status := St.ok }] })

/-- Change the epoch a command took. -/
def State.updEpoch (s : State) (c h : Nat) (f : Epoch → Epoch) : State :=
  s.updColl c (fun x => { x with epochs := updWhere (fun e => e.cmd == h) f x.epochs })

/-- T1 bytes of a collection's lists and resident vectors (05 R128, R135). -/
def Collection.t1Lists (x : Collection) : Nat :=
  sumNat (x.lists.map (fun y => y.t1)) + (if x.desc.vecT1 then roundUp (x.items.length * x.desc.dim) 65536 else 0)

/-- Segments that differ between two states of a collection, in entries, marks or NEXT. -/
def changedSegs (a b : Collection) : List (Nat × Nat) :=
  b.lists.flatMap (fun y =>
    let old := (a.llist y.number).segs
    (List.range y.segs.length).filterMap (fun i =>
      if old[i]? = y.segs[i]? && decide (i + 1 < old.length) == decide (i + 1 < y.segs.length) then none else some (y.number, i)))

/-- An insert or delete ends; a failed insert has its epoch published empty (05 R152). -/
def State.endEpoch (s : State) (c h count status : Nat) : State :=
  s.updEpoch c h (fun e => { e with count := count, status := status, written := true })

/-- The media parts of an item: vector, id map record, passage, tokens, marks (05 R150, 07 R181; their order is DESIGN CHOICE,
notes/assumptions/18.md). -/
def Item.media (it : Item) : List Byte :=
  it.vec ++ leBytes 8 it.id.toNat ++ leBytes 8 it.epoch ++ leBytes 8 it.fingerprint.toNat ++ leBytes 4 it.text.length ++ leBytes 4 it.deck ++ it.text
    ++ it.tokens.flatMap (leBytes 4) ++ it.marks.flatMap (leBytes 4)

/-- The 64 KiB blocks of an insert's media parts that an item lies in. -/
def Item.blocks (it : Item) : List Nat :=
  (List.range ((it.off % 65536 + it.media.length + 65535) / 65536)).map (fun i => it.off / 65536 + i)

/-- Whether stored bytes belong to an item: to its vector, or to the rest of it. -/
def Item.owns (it : Item) (c : Nat) (vec : Bool) (o : Owner) : Bool :=
  let a := if vec then it.off else it.off + it.vec.length
  let n := if vec then it.vec.length else it.media.length - it.vec.length
  match o with
  | .items k e b => k == c && e == it.epoch && decide (a < 65536 * (b + 1)) && decide (65536 * b < a + n)
  | _ => false

/-- Mark epochs whose appends are all placed as written (05 R149). -/
def State.settleEpochs (s : State) (c : Nat) : State :=
  s.updColl c (fun x => { x with epochs := x.epochs.map (fun e =>
    if e.count = 0 && e.status = St.ok && !e.written then e
    else { e with written := e.written || !has (fun a => a.epoch == e.number) x.appends }) })

/-- The positions of a list's entries of an insert epoch. -/
def LList.ofEpoch (y : LList) (e : Nat) : List Nat :=
  ((y.segs.flatMap (fun g => (List.range g.entries.length).map g.epochOf)).zip (List.range y.count)).filterMap (fun x =>
    if x.1 = e then some x.2 else none)

/-- A list without its last entries of an epoch. -/
def LList.chop (y : LList) (e : Nat) : LList :=
  let segs := (y.segs.map (fun g =>
    let n := ((List.range g.entries.length).filter (fun i => g.epochOf i ≠ e)).length
    ({ entries := g.entries.take n, marks := g.marks.filter (fun m => decide (m.2 < n)) } : Segment))).filter (fun g => !g.entries.isEmpty)
  let z := { y with segs := segs, place := if segs.isEmpty then .empty else y.place, openTail := y.openTail && !segs.isEmpty }
  { z with tombs := z.tombs.filter (fun t => decide (t.pos < z.count)) }

/-- A list without the entries of an insert that ends under 05 R152: at the tail they go; where later epochs follow them they stay in
place, for entries never move within a segment, under a tombstone of their own epoch, which hides them from every snapshot until
compaction (05 R134, R155). -/
def LList.without (y : LList) (e : Nat) : LList :=
  let ps := y.ofEpoch e
  if ps.isEmpty then y
  else if ps.contains (y.count - 1) then y.chop e
  else
    let new := ps.filter (fun p => !has (fun t => t.pos == p && t.epoch == e) y.tombs)
    let tombs := y.tombs ++ new.map (fun p => ({ pos := p, epoch := e } : Tomb))
    { y with tombs := tombs, tombCap := if tombs.length ≤ y.tombCap then y.tombCap else max (2 * y.tombCap) (max 64 tombs.length) }

/-- T1 bytes of a collection's tombstone blocks. -/
def Collection.t1Tombs (x : Collection) : Nat := sumNat (x.lists.map (fun y => if y.tombCap = 0 then 0 else tombBytes y.tombCap))

/-- Epochs of a collection leave nothing: their entries, items, tombstones and media are freed (05 R152, R157). -/
def State.dropEpochs (s : State) (c : Nat) (gone : List Nat) : State :=
  match s.coll? c with
  | none => s
  | some x =>
    let cut (l : LList) : LList := gone.foldl LList.without { l with tombs := l.tombs.filter (fun t => !gone.contains t.epoch) }
    let y : Collection := { x with
      lists := x.lists.map cut
      items := x.items.filter (fun i => !gone.contains i.epoch), appends := x.appends.filter (fun a => !gone.contains a.epoch) }
    let z := ((s.updColl c (fun _ => y)).releaseT1 x.tenant (x.t1Lists - y.t1Lists)).chargeT1 x.tenant (y.t1Tombs - x.t1Tombs)
    let z := z.mediaFree (fun o => match o with
      | .items a n _ => a == c && gone.contains n
      | .seg a l g => a == c && decide (g ≥ (y.llist l).segs.length)
      | _ => false)
    z.layLists s c

/-- An insert or delete whose epoch is not published leaves nothing, and its epoch is published empty (05 R152, R157). -/
def State.rollback (s : State) (c h st : Nat) : State :=
  match (s.coll? c).bind (fun x => x.epochs.find? (fun e => e.cmd == h)) with
  | some e => (s.dropEpochs c [e.number]).endEpoch c h 0 st
  | none => s

/-! ### Compaction (05 R156) -/

/-- Surviving entries with their epochs, in list order (05 R156). -/
def LList.survivors (y : LList) (oldest : Nat) : List (Nat × Entry × Nat) :=
  let all := (y.segs.foldl (fun (acc : List (Nat × Entry × Nat) × Nat) g =>
    (acc.1 ++ (g.entries.zip (List.range g.entries.length)).map (fun e => (acc.2 + e.2, e.1, g.epochOf e.2)),
      acc.2 + g.entries.length)) ([], 0)).1
  all.filter (fun e => !has (fun t => t.pos == e.1 && decide (t.epoch ≤ oldest)) y.tombs)

/-- Write survivors into fresh segments: one mark for the runs at or below the oldest snapshot, later runs their own; a
fifth mark closes the segment (05 R156). -/
def rewriteSegs (cap : Nat) (es : List (Entry × Nat)) : List Segment :=
  es.foldl (fun segs e =>
    let fresh : Segment := { entries := [e.1], marks := [(e.2, 0)] }
    match segs.getLast? with
    | none => [fresh]
    | some g =>
      if g.entries.length ≥ cap then segs ++ [fresh]
      else if (g.marks.getLast?).map (fun m => m.1) = some e.2 then
        segs.dropLast ++ [{ g with entries := g.entries ++ [e.1] }]
      else if g.marks.length < 4 then
        segs.dropLast ++ [{ entries := g.entries ++ [e.1], marks := g.marks ++ [(e.2, g.entries.length)] }]
      else segs ++ [fresh]) []

/-- A list rewritten without what no query can see (05 R156). -/
def LList.compacted (y : LList) (cap oldest : Nat) : LList :=
  let es := y.survivors oldest
  let low := ((es.map (fun e => e.2.2)).filter (fun e => e ≤ oldest)).foldl max 0
  let segs := rewriteSegs cap (es.map (fun e => (e.2.1, if e.2.2 ≤ oldest then low else e.2.2)))
  let pos := es.map (fun e => e.1)
  let tombs := (y.tombs.filter (fun t => t.epoch > oldest)).filterMap (fun t =>
    (indexWhere (fun p => p == t.pos) pos).map (fun i => ({ t with pos := i } : Tomb)))
  { y with
    segs := segs, tombs := tombs, place := if segs.isEmpty then .empty else y.place, openTail := !segs.isEmpty
    pages := [], rewriting := none }

/-- Whether a list holds entries that compaction can remove (05 R156). -/
def LList.removable (y : LList) (oldest : Nat) : Bool := has (fun t => decide (t.epoch ≤ oldest)) y.tombs

/-- Compaction of a list starts: the copy is charged; or the list is skipped, which is counted (05 R156). -/
def State.startCompact (s : State) (c l : Nat) : State :=
  match s.coll? c with
  | none => s
  | some x =>
    let y := x.llist l
    if y.rewriting.isSome then s
    else
      let z := y.compacted x.desc.segCap (s.oldestSnapshot x)
      let t2 := segCharges z s.fresh z.segs.length
      let r : Rewrite := { t1 := z.t1, t2 := t2, draw := s.fresh }
      let q := s.tenant x.tenant
      let s := s.drawN (z.segs.length)
      if !q.t1.fits z.t1 || !q.t2.fits t2 then s.bump (collReg c 0x34)
      else ((s.chargeT1 x.tenant z.t1).chargeT2 x.tenant t2).updColl c (fun x => x.putList { y with rewriting := some r })

/-- Items none of whose entries is left in any list go, and the stored blocks of an insert that no item of it lies in any longer are freed (05
R155). -/
def State.freeItems (s : State) (c : Nat) : State :=
  match s.coll? c with
  | none => s
  | some x =>
    let held := x.lists.flatMap (fun y => y.segs.flatMap (fun g => g.entries.map (fun e => e.item))) ++ x.appends.map (fun a => a.entry.item)
    let kept := x.items.filter (fun i => held.contains i.serial)
    let y := { x with items := kept }
    let s := (s.updColl c (fun _ => y)).releaseT1 x.tenant (x.t1Lists - y.t1Lists)
    s.mediaFree (fun o => match o with
      | .items a e b => a == c && !has (fun i => i.epoch == e && i.blocks.contains b) kept
      | _ => false)

/-- A list's rewritten copy takes its place at a batch boundary. A copy that no longer fits a limit, or that the media refuse, leaves the list as it
is, which is counted (05 R156, 12 R318, 13 R349); answers whether it took its place. -/
def State.finishCompact (s : State) (c l : Nat) : State × Bool :=
  match s.coll? c with
  | none => (s, true)
  | some x =>
    let y := x.llist l
    let z := y.compacted x.desc.segCap (s.oldestSnapshot x)
    let r := y.rewriting.getD { t1 := 0, t2 := 0, draw := 0 }
    let back := ((s.releaseT1 x.tenant r.t1).releaseT2 x.tenant r.t2).updColl c (fun x => x.putList { y with rewriting := none })
    let skip (s : State) : State × Bool := (s.bump (collReg c 0x34), false)
    let q := back.tenant x.tenant
    if !q.t1.fits z.t1 || !q.t2.fits (segCharges z back.fresh z.segs.length) then skip back
    else
      let new := ((back.chargeT1 x.tenant z.t1).retireCopy x.tenant c l y.t1 (y.pages.filter (· ≠ 0))).updColl c (fun x => x.putList z)
      let new := new.layLists back c
      let (new, ok) := new.storeSegs c l (List.range z.segs.length)
      if ok then (new.freeItems c, true) else skip { back with flash := { back.flash with sealed := new.flash.sealed } }

/-- A list's rewriting ends; when it was the last of a SRCH_COMPACT, every SRCH_COMPACT of the collection completes (05 R156). -/
def State.endCompact (s : State) (c l : Nat) : State :=
  let (s, took) := s.finishCompact c l
  match s.coll? c with
  | none => s
  | some x =>
    let left := x.compacting.filter (fun m => m ≠ l)
    let skipped := x.compactSkipped || !took
    if !x.compacting.contains l then s
    else if !left.isEmpty then s.updColl c (fun x => { x with compacting := left, compactSkipped := skipped })
    else
      let s := s.updColl c (fun x => { x with compacting := [], compactCmds := [], compactSkipped := false })
      x.compactCmds.foldl (fun s h => s.fail h (if skipped then St.quota else St.ok)) s

/-- Start compaction of lists whose tombstones reach COUNT / 8 (05 R156). -/
def State.backgroundCompact (s : State) (c : Nat) : State :=
  match s.coll? c with
  | none => s
  | some x =>
    (x.lists.filter (fun y => !y.tombs.isEmpty && decide (8 * y.tombs.length ≥ y.count) && y.removable (s.oldestSnapshot x))).foldl
      (fun s y => s.startCompact c y.number) s

/-- Queries have ended: where the oldest live snapshot of a collection rose, lists whose tombstones have reached COUNT / 8 may
be compacted now (05 R156). -/
def State.snapshotsGone (old s : State) : State :=
  (s.colls.filter (fun x => match old.coll? x.number with
    | some y => decide (old.oldestSnapshot y < s.oldestSnapshot x)
    | none => false)).foldl (fun s x => s.backgroundCompact x.number) s

end Sys2Proof.Machine
end

