-- ==== Sys2Proof/Machine/Search.lean ====
section
/-!
DEFINITION. Vector search: codes, batches, passes, far segments, merge, widening, refinement and results (05 R131 to R164).
The arithmetic choices are notes/assumptions/18.md.
-/
namespace Sys2Proof.Machine

/-! ### Codes and tables (05 R134, R138, R150) -/

/-- Sub-vector `i` of a vector. -/
def CollDesc.sub (d : CollDesc) (v : List FVal) (i : Nat) : List FVal := (v.drop (i * (d.dim / d.m))).take (d.dim / d.m)

/-- The PQ code of a vector: the nearest codeword of each sub-quantiser, ties to the lower (05 R150). -/
def Collection.pqCode (x : Collection) (draw base : Nat) (v : List FVal) : List Nat :=
  (List.range x.desc.m).map (fun i =>
    ((rankRows { x.desc with metric := 2 } draw (base + i * 2 ^ 40) 1 (x.desc.sub v i)
      ((List.range (2 ^ x.desc.subbits)).map (fun c => (c, x.codeword i c)))).head?).getD 0)

/-- A lookup-table entry: the exact value rounded to FP16, saturated to ±65,504; with whether it saturated (05 R138). -/
def Collection.lutEntry (x : Collection) (v : List FVal) (i c : Nat) : FVal × Bool :=
  let e := sumExact (((x.desc.sub v i).zip (x.codeword i c)).map (fun y =>
    if x.desc.metric = 2 then (let z := y.1.add y.2.neg; z.mul z) else y.1.mul y.2))
  let w := Fmt.fp16.decode (Fmt.fp16.encode e)
  match w with
  | .inf n => (.num n 65504 0, true)
  | .nan => (.nan, false)
  | .num n m k => (.num n m k, false)

/-- Saturated entries of a query's table (05 R138). -/
def Collection.lutSat (x : Collection) (v : List FVal) : Nat :=
  sumNat ((List.range x.desc.m).map (fun i => ((List.range (2 ^ x.desc.subbits)).filter (fun c => (x.lutEntry v i c).2)).length))

/-- The score of a code: the FP32 sum of its table entries in an unspecified order (05 R138). -/
def Collection.codeScore (x : Collection) (draw base : Nat) (v : List FVal) (code : List Nat) : Word :=
  toF32 (sumPicks draw base code.length ((code.zip (List.range code.length)).map (fun y => (x.lutEntry v y.2 y.1).1)))

/-! ### Queries -/

/-- A query by key. -/
def State.query? (s : State) (k : QueryKey) : Option Query := s.search.queries.find? (fun q => q.key == k)

/-- Change a query. -/
def State.updQuery (s : State) (k : QueryKey) (f : Query → Query) : State :=
  (s.updSearch (fun z => { z with queries := updWhere (fun q => q.key == k) f s.search.queries }))

/-- Change the queries of a list of keys. -/
def State.updQueries (s : State) (ks : List QueryKey) (f : Query → Query) : State :=
  (s.updSearch (fun z => { z with queries := updWhere (fun q => ks.contains q.key) f s.search.queries }))

/-- Entries a merge keeps: K_REFINE when the query refines, else k (05 R140, R146). -/
def Query.keep (q : Query) (d : CollDesc) : Nat := if q.refine then d.kRefine else q.k

/-- The query vector as values. -/
def Query.values (q : Query) : List FVal := q.vec.map ofF32

/-- What scoring a run of entries for one query gave. -/
structure Scoring where
  entries : List MEntry
  filtered : Nat
  deriving DecidableEq, Repr

/-- Score the entries of segments for a query: the snapshot first, then the filter (05 R140). `base` is the list position
of the first entry; `draw` its free values. -/
def Collection.scoreSegs (x : Collection) (q : Query) (list base draw : Nat) (tombs : List Tomb) (segs : List Segment) : Scoring :=
  let starts := segs.foldl (fun (acc : List Nat × Nat) g => (acc.1 ++ [acc.2], acc.2 + g.entries.length)) ([], base)
  let all := (segs.zip starts.1).flatMap (fun sg =>
    (sg.1.entries.zip (List.range sg.1.entries.length)).map (fun e => (e.1, sg.1.epochOf e.2, sg.2 + e.2)))
  let seen := all.filter (fun e => sees q.snapshot e.2.1 e.2.2 tombs)
  let pass := seen.filter (fun e => q.filter.isEmpty || filterPasses q.filter e.1.attr.toNat)
  { entries := pass.map (fun e =>
      { key := x.codeScore draw ((list * 2 ^ 32 + e.2.2) * 2 ^ 20) q.values e.1.code, index := e.1.id, source := list
        item := e.1.item })
    filtered := seen.length - pass.length }

/-- Add scored entries to a query's running partial list (05 R140, 06 R173). -/
def Query.addPartial (q : Query) (d : CollDesc) (slot : Nat) (es : List MEntry) : Query :=
  let old := (q.partials.find? (fun p => p.1 == slot)).map (fun p => p.2)
  let (p, inv, dup) := mergeParts 0 d.largest true false (q.keep d)
    [old.getD { entries := [], ties := 0 }, { entries := es, ties := 0 }]
  { q with
    partials := insertBy (fun a b => decide (a.1 < b.1)) (slot, p) (q.partials.filter (fun y => y.1 ≠ slot))
    unsent := if inv = 0 then q.unsent else q.unsent ++ [(slot, inv)]
    duplicates := q.duplicates + dup }

/-- Partial lists reach the meld unit: what was excluded from them counts (05 R140, 06 R167). -/
def State.sendPartials (s : State) (q : Query) (p : Nat → Bool) : State :=
  let n := sumNat ((q.unsent.filter (fun x => p x.1)).map (fun x => x.2))
  let s := s.updQuery q.key (fun q => { q with unsent := q.unsent.filter (fun x => !p x.1) })
  if s.seatSearch then s else s.countExcluded n 0

/-- An engine has no list of a batch left for a query: it sends its partial list (05 R140). -/
def State.engineDone (s : State) (n : Nat) : State :=
  let left (q : Query) : Bool := (s.search.engines[n]?).any (fun e => e.work.any (fun w => w.queries.contains q.key))
  (s.search.queries.filter (fun q => q.unsent.any (fun x => x.1 == n) && !left q)).foldl (fun s q => s.sendPartials q (fun x => x == n)) s

/-- Score segments of a list for the queries named, into a slot of their partial lists; SRCH_DISTANCES counts engines and
scanners, not seat kernels (05 R139, R140, R144, R162). -/
def State.scoreFor (s : State) (c list base slot : Nat) (tombs : List Tomb) (segs : List Segment) (ks : List QueryKey) : State :=
  match s.coll? c with
  | none => s
  | some x =>
    let live := s.search.queries.filter (fun q => ks.contains q.key && q.stage == 2)
    live.foldl (fun s q =>
      let r := x.scoreSegs q list base s.fresh tombs segs
      let q' := q.addPartial x.desc slot r.entries
      let s := s.draw.updQuery q.key (fun _ => q')
      let s := if s.seatSearch || slot = 64 then s else s.countExcluded 0 (q'.duplicates - q.duplicates)
      if s.variant = .v9706 then s
      else
        let s := s.bump64 (collReg c 0x18) r.filtered
        if slot = 64 then s else s.bump64 0x00070020 r.entries.length) s

/-- Whether a query still waits for a pass or a far segment. -/
def State.scoringLeft (s : State) (k : QueryKey) : Bool :=
  s.search.engines.any (fun e => e.work.any (fun p => p.queries.contains k)) || s.search.farWork.any (fun j => j.queries.contains k)

/-- Whether a query waits in a batch that has not started. -/
def State.inBatch (s : State) (k : QueryKey) : Bool :=
  (match s.search.collecting with | some b => b.queries.contains k | none => false)
    || s.search.closed.any (fun b => b.queries.contains k) || s.search.stalled.contains k || s.search.exactWaiting.contains k

/-! ### Results (05 R147, 18 R485) -/

/-- The result header and entries of a query, `k` slots (05 R147). -/
def Query.resultBytes (q : Query) (k : Nat) (refined : Bool) : List Byte :=
  let failed := q.status ≠ St.ok
  let es := if failed then [] else q.merged
  let flags := boolNat (!failed && es.length < k) + 2 * boolNat (!failed && q.tiesLeft > 0) + 4 * boolNat (q.round > 0)
    + 8 * boolNat q.late + 16 * boolNat (refined && !failed) + 32 * boolNat failed
  leBytes 4 es.length ++ leBytes 2 flags ++ leBytes 2 q.probed ++ leBytes 4 (if failed then 0 else q.tiesLeft)
    ++ leBytes 2 q.farLate ++ leBytes 2 0 ++ leBytes 8 q.snapshot ++ leBytes 4 q.duplicates ++ leBytes 4 0
    ++ es.flatMap (fun e => leBytes 8 e.index.toNat ++ leBytes 4 e.key.toNat ++ leBytes 4 e.source)
    ++ (List.range (k - es.length)).flatMap (fun _ => leBytes 8 noIndex.toNat ++ leBytes 4 0x7FC00000 ++ leBytes 4 0xFFFFFFFF)

/-- Bytes of a result, padded (18 R485). -/
def resultSize (k : Nat) : Nat := roundUp (32 + 16 * k) 64

/-- A PIPE_QUERY ends with an error status: later stages do not run, and a repair of its search marks it (01 R24, R25). -/
def State.failPipe (s : State) (h status : Nat) : State :=
  let mine (q : Query) : Bool := q.key.cmd == h && q.issue.isNone
  let s' := if s.search.queries.any (fun q => mine q && q.recovered) then s.recovered h else s
  s.snapshotsGone (((s'.updSearch (fun z => { z with queries := z.queries.filter (fun q => !mine q) })).dropPipe h).fail h status)

/-- Write the results of a SRCH_QUERY whose queries are all final, and complete it; the passages of a PIPE_QUERY whose search is final are
due (18 R485, 07 R183, 12 R312). -/
def State.finishSearch (s : State) (h : Nat) : State :=
  match s.cmd? h with
  | none => s
  | some c =>
    let qs := s.search.queries.filter (fun q => q.key.cmd == h && q.issue.isNone)
    if c.opcode = 0x0501 then
      match qs.find? (fun q => q.stage == 5 && q.status != St.ok) with
      | some q => s.failPipe h q.status
      | none => s.updTier (fun z => { z with passages := z.passages.filter (fun p => p ≠ h) ++ [h] })
    else if c.opcode ≠ 0x0401 || !qs.all (fun q => q.stage == 5) then s
    else
      let k := c.field 0x14 2
      let old := s
      let s := (s.updSearch (fun z => { z with queries := s.search.queries.filter (fun q => !(q.key.cmd == h && q.issue.isNone)) }))
      let s := if qs.any (fun q => q.recovered) then s.recovered h else s
      let good := (qs.filter (fun q => q.status == St.ok)).length
      match s.resolve c.tenant (c.field 0x38 8) (resultSize k * qs.length) 8 with
      | none => s.reject h
      | some key =>
        let s := qs.foldl (fun s q => s.wr (key + q.key.idx * resultSize k) (q.resultBytes k q.refine)) s
        let status := match qs.find? (fun q => q.status != St.ok) with
          | some q => q.status
          | none => if qs.any (fun q => decide (q.merged.length < q.k)) then St.part else St.ok
        old.snapshotsGone (s.complete h status good 0 0)

/-- The item of an entry (05 R150). -/
def Collection.item? (x : Collection) (n : Nat) : Option Item := x.items.find? (fun i => i.serial == n)

/-- A query is final: counts, then its issue's record or its command's results (05 R147, R148). In a refining PROBE's result header and entries
are padded to 64 bytes before the vectors, and the vector of a sentinel slot is zeros (DESIGN CHOICE, notes/assumptions/18.md). -/
def State.finishQuery (s : State) (k : QueryKey) (status : Nat) : State :=
  match s.query? k with
  | none => s
  | some q =>
    let s := (s.sendPartials q (fun _ => true)).updQuery k (fun q => { q with stage := 5, status := status })
    let slots := match q.issue, s.coll? q.coll with | some _, some x => q.keep x.desc | _, _ => q.k
    let s := if status = St.ok && q.merged.length < slots then s.bump (collReg q.coll 0x20) else s
    match q.issue with
    | none => s.finishSearch k.cmd
    | some ik =>
      let s' := s.snapshotsGone (s.updSearch (fun z => { z with queries := s.search.queries.filter (fun x => x.key ≠ k) }))
      match s.issue? ik, s.coll? q.coll with
      | some u, some x =>
        let s' := if q.recovered then s'.recoveredIssue ik else s'
        if status ≠ St.ok then s'.finishIssue ik status 0
        else
          let slots := q.keep x.desc
          let vecs := if q.refine then (List.range slots).flatMap (fun i =>
              match q.merged[i]? with
              | some e => let v := ((x.item? e.item).map (fun it => it.vec)).getD []
                v ++ List.replicate (roundUp x.desc.dim 64 - v.length) 0
              | none => List.replicate (roundUp x.desc.dim 64) 0) else []
          let pad := if q.refine then List.replicate (roundUp (32 + 16 * slots) 64 - (32 + 16 * slots)) (0 : Byte) else []
          let s' := s'.wrTva u.tenant u.stock (fieldOf u.body 0x20 8) (q.resultBytes slots false ++ pad ++ vecs)
          s'.finishIssue ik (if q.merged.length < slots then St.part else St.ok) q.merged.length
      | _, _ => s'

/-- Drop queries wherever they wait (05 R157, 01 R27). -/
def State.dropQueries (s : State) (p : Query → Bool) : State :=
  let ks := (s.search.queries.filter p).map (fun q => q.key)
  let keep (l : List QueryKey) : List QueryKey := l.filter (fun k => !ks.contains k)
  let batch (b : Batch) : Batch := { b with queries := keep b.queries }
  (s.updSearch (fun z => { z with
    queries := s.search.queries.filter (fun q => !p q)
    collecting := (s.search.collecting.map batch).filter (fun b => !b.queries.isEmpty)
    closed := (s.search.closed.map batch).filter (fun b => !b.queries.isEmpty)
    stalled := keep s.search.stalled
    exactWaiting := keep s.search.exactWaiting
    uncached := keep s.search.uncached
    farWork := s.search.farWork.map (fun j => { j with queries := keep j.queries })
    engines := s.search.engines.map (fun e => { e with
      tables := keep e.tables
      work := (e.work.map (fun w => { w with queries := keep w.queries })).filter (fun w => !w.queries.isEmpty) }) })).settleCopies

/-- Whether the hand whose seats a query uses, if it names one, holds a seat (01 R20, 05 R159). -/
def State.queryHand (s : State) (q : Query) : Bool := match q.hand with | none => true | some h => s.handSeated h

/-- What stands against a query's work on a collection's centroids and codebooks (01 R22, 12 R308, R311). -/
def State.collCheck (s : State) (q : Query) (x : Collection) : UCheck :=
  s.objectCheck (match q.issue with | some k => .issue k | none => .cmd q.key.cmd) x.tenant x.va.toNat x.image.length

/-- The status with which a query that waits for a list ends, when a page of it could not be fetched (12 R311, 13 R337). -/
def State.listFate (s : State) (q : Query) (x : Collection) (y : LList) : Option Nat :=
  ((y.pages ++ y.tombPages).filterMap (fun p => s.fetchFate (match q.issue with | some k => .issue k | none => .cmd q.key.cmd) x.tenant p 1)).head?

/-- Queries end with a status wherever they wait. -/
def State.endQueries (s : State) (ks : List QueryKey) (status : Nat) : State :=
  let keep (l : List QueryKey) : List QueryKey := l.filter (fun k => !ks.contains k)
  let s := (s.updSearch (fun z => { z with
    farWork := s.search.farWork.map (fun j => { j with queries := keep j.queries })
    engines := s.search.engines.map (fun e => { e with
      work := (e.work.map (fun w => { w with queries := keep w.queries })).filter (fun w => !w.queries.isEmpty) }) }))
  ks.foldl (fun s k => s.finishQuery k status) s

/-! ### Coarse search and batches (05 R131, R141, R142) -/

/-- The coarse search of a query ends on the seats of its hand: it has its probe set, or ends INPUT_INVALID; it waits while the
hand holds no seat or the centroids are not in T1 (01 R20, R22, 05 R131, R132). -/
def execCoarseSearch (q : QueryKey) (s : State) : Res :=
  .next (match s.query? q with
    | none => s
    | some x =>
      if x.stage ≠ 0 then s
      else
        match s.coll? x.coll with
        | none => s
        | some c =>
          match s.collCheck x c with
          | .failed st => s.finishQuery q st
          | .poison => s.finishQuery q St.aborted
          | .bad | .wait | .rejected => s
          | .ok =>
          if !s.queryHand x then s
          else
          let draw := s.fresh
          let s := s.draw
          match c.desc.prepare draw x.values with
          | none => s.finishQuery q St.inputInvalid
          | some v =>
            let ranking := c.coarse draw c.desc.nprobeMax v
            let probes := ranking.take x.nprobe
            s.updQuery q (fun x => { x with
              vec := v.map toF32, ranking := ranking, probes := probes, probed := probes.length, stage := 1 }))

/-- Close the collecting batch (05 R141). -/
def State.closeBatch (s : State) : State :=
  match s.search.collecting with
  | none => s
  | some b =>
    ((s.updSearch (fun z => { z with collecting := none, closed := s.search.closed ++ [b], batches := s.search.batches + 1 }))).bump64
      0x00070010 1

/-- A probe set joins or opens the collecting batch, which closes at once under WINDOW 0 or when full (05 R141). -/
def State.joinBatch (s : State) (k : QueryKey) : State :=
  let b := s.search.collecting.getD { queries := [], window := s.search.window, batchMax := s.search.batchMax }
  let b := { b with queries := b.queries ++ [k] }
  let s := { (s.updQuery k (fun q => { q with stage := 2 })) with search := { (s.updQuery k (fun q => { q with stage := 2 })).search with
    collecting := some b } }
  if b.window = 0 || b.queries.length ≥ b.batchMax then s.closeBatch else s

/-- Segments of a list that its scanners read from media, with their positions, and the segments read from T1 (05
R135). -/
def LList.parts (y : LList) : List (Nat × Nat × Segment) × Nat × List Segment :=
  let starts := (y.segs.foldl (fun (acc : List Nat × Nat) g => (acc.1 ++ [acc.2], acc.2 + g.entries.length)) ([], 0)).1
  let n := if y.place = .far then (if y.openTail then y.segs.length - 1 else y.segs.length) else 0
  (((y.segs.zip starts).zip (List.range n)).map (fun x => (x.2, x.1.2, x.1.1)), starts.getD n 0, y.segs.drop n)

/-- Far segments of a list as jobs for the scanners of their channels (05 R142, R144). -/
def State.farJobs (s : State) (batch : Nat) (exact : Bool) (c : Nat) (y : LList) (ks : List QueryKey) : List FarJob :=
  y.parts.1.map (fun g =>
    let lpn := match s.flash.extents.find? (fun e => e.owner == .seg c y.number g.1) with | some e => e.lpns.headD 0 | none => 0
    { batch := batch, exact := exact, coll := c, list := y.number, seg := g.1, lpn := lpn, channel := s.flash.channelOf lpn
      content := g.2.2, base := g.2.1, tombs := y.tombs, queries := ks })

/-- A query scanned without the scheduler: T1 segments by a seat kernel at once, far segments by the scanners (05 R159,
15 R403). -/
def State.seatScan (s : State) (k : QueryKey) (lists : List Nat) : State :=
  match s.query? k with
  | none => s
  | some q =>
    match s.coll? q.coll with
    | none => s
    | some x =>
      let n := s.search.nextBatch
      let s := s.updQuery k (fun q => { q with stage := 2 })
      let s := (s.updSearch (fun z => { z with nextBatch := n + 1 }))
      lists.foldl (fun s l =>
        let y := x.llist l
        let (_, base, t1) := y.parts
        let s := (s.updSearch (fun z => { z with farWork := s.search.farWork ++ s.farJobs n q.exact q.coll y [k] }))
        s.scoreFor q.coll l base 64 y.tombs t1 [k]) s

/-- A probe set reaches the list scheduler, or its query scans its own lists on the seats of its hand (05 R141, R159, 01 R20). -/
def execProbeSetArrive (q : QueryKey) (s : State) : Res :=
  .next (match s.query? q with
    | none => s
    | some x =>
      if x.stage ≠ 1 || s.search.stalled.contains q then s
      else if s.seatSearch then
        match s.coll? x.coll with
        | none => s
        | some c =>
          match (x.probes.filterMap (fun l => s.listFate x c (c.llist l))).head? with
          | some st => s.finishQuery q st
          | none => if s.queryHand x && !x.probes.any (fun l => s.listAbsent c (c.llist l)) then s.seatScan q x.probes else s
      else if s.search.closed.length ≥ 4 then
        ((s.updSearch (fun z => { z with stalled := s.search.stalled ++ [q] }))).bump 0x00070030
      else s.joinBatch q)

/-- The collecting batch closes at its window, when full, or at a member's deadline (05 R141). -/
def execBatchClose (cause : CloseCause) (s : State) : Res :=
  .next (match s.search.collecting with
    | none => s
    | some b =>
      match cause with
      | .window => s.closeBatch
      | .full => if b.queries.length ≥ b.batchMax then s.closeBatch else s
      | .deadline =>
        if has (fun q => b.queries.contains q.key && q.maxWait != 0) s.search.queries then s.closeBatch else s)

/-- The queries of a pass at most (05 R139). -/
def CollDesc.qMax (d : CollDesc) : Nat := min 64 (2 ^ 19 / max d.tableSize 1)

/-- Cost of a pass with every table copied (05 R139). -/
def CollDesc.passCost (d : CollDesc) (entries queries : Nat) : Nat :=
  ceilDiv entries (min 8 (256 / max d.codeBytes 1)) + 16 + d.tableSize * 2 / 512 * queries

/-- Deal one pass to the engine with the least work dealt, the lowest number first (05 R142). -/
def dealPass (p : Pass) (cost : Nat) (es : List Engine) : List Engine :=
  let ready := (es.zip (List.range es.length)).filter (fun e => e.1.mode = .active)
  match sortBy (fun a b => decide (a.1.dealt < b.1.dealt)) ready with
  | [] => es
  | (_, n) :: _ => es.modify n (fun e => { e with work := e.work ++ [p], dealt := e.dealt + cost })

/-- The lists a set of queries probes, with the queries of each; lists without entries are left out (05 R132, R142). -/
def State.probeGroups (s : State) (ks : List QueryKey) : List (Nat × LList × List QueryKey) :=
  let qs := s.search.queries.filter (fun q => ks.contains q.key)
  let pairs := dedup (qs.flatMap (fun q => q.probes.map (fun l => (q.coll, l))))
  pairs.filterMap (fun cl =>
    match s.coll? cl.1 with
    | none => none
    | some x =>
      let y := x.llist cl.2
      if y.segs.isEmpty then none
      else some (cl.1, y, (qs.filter (fun q => q.coll == cl.1 && q.probes.contains cl.2)).map (fun q => q.key)))

/-- A batch starts: visits, tables, far jobs in ascending order of the channel of each list's first segment, and passes dealt longest list first
(05 R137 to R142). The work dealt so far is that of the batch, each pass at its cost with every table copied, and lists of equal length are
dealt in probe order (DESIGN CHOICE: the manual says neither, notes/assumptions/18.md). -/
def State.startBatch (s : State) (ks : List QueryKey) (exact : Bool) : State :=
  let n := s.search.nextBatch
  let groups := s.probeGroups ks
  let s := groups.foldl (fun s g => s.updColl g.1 (fun x =>
    x.putList { x.llist g.2.1.number with visits := min (g.2.1.visits + 1) 65535 })) s
  -- tables: built once for the batch; those past 16 MiB are rebuilt at each load
  let live := s.search.queries.filter (fun q => ks.contains q.key)
  let tables := live.filterMap (fun q => (s.coll? q.coll).map (fun x => (q.key, x.desc.tableSize * 2, x.lutSat q.values)))
  let s := s.bumpBy 0x00070040 (sumNat (tables.map (fun t => t.2.2)))
  let excess := (tables.foldl (fun (acc : Nat × List QueryKey) t =>
    if acc.1 + t.2.1 ≤ 2 ^ 24 then (acc.1 + t.2.1, acc.2) else (acc.1, acc.2 ++ [t.1])) (0, [])).2
  let far := sortBy (fun (a b : List FarJob) => decide ((a.map (fun j => j.channel)).headD 0 < (b.map (fun j => j.channel)).headD 0))
    (groups.map (fun g => s.farJobs n exact g.1 g.2.1 g.2.2))
  let passes := groups.flatMap (fun g =>
    let (_, base, t1) := g.2.1.parts
    let entries := sumNat (t1.map (fun x => x.entries.length))
    match s.coll? g.1 with
    | none => []
    | some x =>
      if t1.isEmpty then []
      else (chunks x.desc.qMax (g.2.2.length + 1) g.2.2).map (fun qs =>
        (({ batch := n, exact := exact, coll := g.1, list := g.2.1.number, cached := g.2.1.place = .cached, segs := t1, base := base,
            tombs := g.2.1.tombs, queries := qs } : Pass), entries, x.desc.passCost entries qs.length)))
  let sorted := sortBy (fun (a b : Pass × Nat × Nat) => decide (a.2.1 > b.2.1)) passes
  let engines := sorted.foldl (fun es p => dealPass p.1 p.2.2 es) (s.search.engines.map (fun e => { e with dealt := 0 }))
  (s.updSearch (fun z => { z with
    nextBatch := n + 1, farWork := s.search.farWork ++ far.flatten, engines := engines
    uncached := s.search.uncached.filter (fun k => !ks.contains k) ++ excess }))

/-- A closed batch starts scoring once an engine has finished its lists of the batch before; probe sets that waited at
intake then go on (05 R141, R142). -/
def execBatchStartScoring (s : State) : Res :=
  .next (match s.search.closed with
    | [] => s
    | b :: rest =>
      if s.seatSearch || !s.search.engines.any (fun e => e.mode = .active && e.work.all (fun w => w.exact)) then s
      else
        let s := (s.updSearch (fun z => { z with closed := rest }))
        let s := s.startBatch b.queries false
        let waiting := s.search.stalled
        let s := (s.updSearch (fun z => { z with stalled := [] }))
        waiting.foldl (fun s k =>
          if s.search.closed.length ≥ 4 then (s.updSearch (fun z => { z with stalled := s.search.stalled ++ [k] }))
          else s.joinBatch k) s)

/-! ### Passes (05 R139, R140, 03 R86, R87, R92) -/

/-- Offset of a register of a probe engine (03 R92). -/
def engineReg (e off : Nat) : Nat := 0x00063000 + e * 0x10 + off

/-- Length of a pass's list in entries. -/
def Pass.size (p : Pass) : Nat := sumNat (p.segs.map (fun g => g.entries.length))

/-- The pass an engine takes next: ordinary batches before exact scans, older before newer, and among lists of equal
length the one that shares the most queries with the tables held (05 R142, R158). -/
def Engine.next (e : Engine) : Option Pass :=
  let pool := if e.work.any (fun w => !w.exact) then e.work.filter (fun w => !w.exact) else e.work
  match pool with
  | [] => none
  | p :: _ =>
    let same := pool.filter (fun w => w.batch == p.batch && w.size == p.size)
    let shared (w : Pass) : Nat := (w.queries.filter e.tables.contains).length
    (sortBy (fun a b => decide (shared a > shared b)) same).head?

/-- Tables an engine holds after a pass: the pass's own, then earlier ones while 2^19 entries last (05 R139,
notes/assumptions/18.md). -/
def State.tablesAfter (s : State) (e : Engine) (p : Pass) : List QueryKey :=
  let size (k : QueryKey) : Nat := match s.query? k with
    | some q => match s.coll? q.coll with | some x => x.desc.tableSize | none => 0
    | none => 0
  let all := p.queries ++ e.tables.filter (fun k => !p.queries.contains k)
  (all.foldl (fun (acc : List QueryKey × Nat) k =>
    if acc.2 + size k ≤ 2 ^ 19 then (acc.1 ++ [k], acc.2 + size k) else acc) ([], 0)).1

/-- Queries of a pass whose distances the shadow lanes repeat: lane p mod 8 of every group of eight (03 R86). -/
def shadowed (passes : Nat) (ks : List QueryKey) : List QueryKey :=
  (ks.zip (List.range ks.length)).filterMap (fun x => if x.2 % 8 = passes % 8 then some x.1 else none)

/-- One run of a pass on an engine: its counts, its rebuilt tables. A repeat of a pass is not another list pass of the engine: it
neither turns the shadowed lane nor ages the strikes (05 R139, R162, 03 R83, R86, R87, R92). -/
def State.countPass (s : State) (n : Nat) (p : Pass) (again : Bool) : State :=
  match s.search.engines[n]? with
  | none => s
  | some e =>
    let sh := shadowed (if again then e.passes - 1 else e.passes) p.queries
    let load := p.queries.filter (fun k => !e.tables.contains k && s.search.uncached.contains k)
    let sat := sumNat (load.map (fun k => match s.query? k with
      | some q => match s.coll? q.coll with | some x => x.lutSat q.values | none => 0
      | none => 0))
    let checked := match s.coll? p.coll with
      | some x => sumNat (sh.map (fun k => match s.query? k with
        | some q => (x.scoreSegs q p.list p.base 0 p.tombs p.segs).entries.length
        | none => 0))
      | none => 0
    let tables := s.tablesAfter e p
    let s := (s.updSearch (fun z => { z with engines := s.search.engines.modify n (fun e => { e with
      passes := if again then e.passes else e.passes + 1
      tables := tables
      strikes := if again then e.strikes else (e.strikes.map (· + 1)).filter (fun k => k < 2 ^ 20) }) }))
    (((s.bump64 0x00070018 1).bumpBy 0x00070038 load.length).bumpBy 0x00070040 sat).bump64 (engineReg n 0) checked

/-- A shadow lane of an engine disagreed in its latest pass, lane p mod 8 of a group (03 R86, R87, R90). -/
def State.probeMismatch (s : State) (n : Nat) : State :=
  let lane := match s.search.engines[n]? with | some e => (e.passes - 1) % 8 | none => 0
  ((s.bump (engineReg n 8)).audEvent 6 n (8 * (Config.free s.fresh 0 % 8) + lane) 0).draw

/-- An engine takes a strike; the third in the window, `due`, quarantines it, fences it, and a kitty engine takes its place and its work (03 R83,
R87, 15 R392). -/
def State.strikeEngine (s : State) (n : Nat) (due : Bool) : State :=
  match s.search.engines[n]? with
  | none => s
  | some e =>
    let strikes := e.strikes ++ [0]
    if !due then
      (s.updSearch (fun z => { z with engines := s.search.engines.modify n (fun e => { e with strikes := strikes }) }))
    else
      let es := s.search.engines.modify n (fun e => { e with mode := .quarantined, strikes := List.replicate 3 0, work := [], tables := [] })
      let s := s.fenceHolder (holderId 1 n)
      match (List.range es.length).find? (fun i => decide (i ≥ 16) && (es.getD i e).mode = .dark) with
      | some i =>
        (s.askDomain (48 + i)).updSearch (fun z => { z with engines := es.modify i (fun x => { x with mode := .active, work := e.work }) })
      | none => s.updSearch (fun z => { z with engines := e.work.foldl (fun es p => dealPass p 0 es) es })

/-- Words of hot-list copies that failed parity during a pass over a CACHED list: each such segment is read from T1 instead, is
counted, and marks the queries of the pass (05 R136). -/
def State.hotParity (s : State) (p : Pass) (n : Nat) : State :=
  let k := if p.cached then min n p.segs.length else 0
  if k = 0 then s else (s.bumpBy 0x0007003C k).updQueries p.queries (fun q => { q with recovered := true })

/-- The engine that runs a pass whose repeat differed too: the lowest-numbered other ACTIVE engine, or the same one when there is
no other (03 R87 leaves the choice open: DESIGN CHOICE, notes/assumptions/18.md). -/
def State.otherEngine (s : State) (n : Nat) : Nat :=
  (((List.range s.search.engines.length).filter (fun i => i ≠ n && (s.search.engines.getD i { mode := .dark, passes := 0, strikes := [], work := [], dealt := 0, tables := [] }).mode = .active)).head?).getD n

/-- A pass runs on an engine with what its shadow lanes show: its results are used, or those of its repeat, or of another engine
after a strike; where that engine's pass differs as well, every query of the pass ends with ABORTED_FAULT (03 R87; that all end is
DESIGN CHOICE, notes/assumptions/18.md). -/
def State.runPass (s : State) (engine : Nat) (p : Pass) (shadow : Shadow) : State :=
  let mark (s : State) : State := s.updQueries p.queries (fun q => { q with recovered := true })
  let due : Bool := (s.search.engines[engine]?).any (fun e => decide (2 ≤ e.strikes.length))
  let s := s.countPass engine p false
  match shadow with
  | .agree => s.scoreFor p.coll p.list p.base engine p.tombs p.segs p.queries
  | .repeated =>
    (mark ((s.probeMismatch engine).countPass engine p true)).scoreFor p.coll p.list p.base engine p.tombs p.segs p.queries
  | .moved =>
    let s := ((s.probeMismatch engine).countPass engine p true).probeMismatch engine
    let other := s.otherEngine engine
    (mark ((s.strikeEngine engine due).countPass other p false)).scoreFor p.coll p.list p.base other p.tombs p.segs p.queries
  | .failed =>
    let s := ((s.probeMismatch engine).countPass engine p true).probeMismatch engine
    let other := s.otherEngine engine
    let s := (mark ((s.strikeEngine engine due).countPass other p false)).probeMismatch other
    s.endQueries p.queries St.aborted

/-- A probe engine finishes its next pass; it waits while the list is not in T1 (01 R22, 05 R139, R140, 03 R86, R87). -/
def execProbePass (engine : Nat) (shadow : Shadow) (hotParity : Nat) (s : State) : Res :=
  .next (match s.search.engines[engine]? with
    | none => s
    | some e =>
      match (if e.mode = .active && s.powered (48 + engine) && !s.flt.sLost then e.next else none) with
      | none => s
      | some p =>
        match s.coll? p.coll with
        | none => s
        | some x =>
          let y := x.llist p.list
          let dead := (s.search.queries.filter (fun q => p.queries.contains q.key && (s.listFate q x y).isSome)).map (fun q => (q.key, (s.listFate q x y).getD 0))
          if !dead.isEmpty then dead.foldl (fun s d => s.endQueries [d.1] d.2) s
          else if s.listAbsent x y then s
          else
            let s := (s.updSearch (fun z => { z with engines := s.search.engines.modify engine (fun e => { e with work := e.work.erase p }) }))
            (((s.hotParity p hotParity).runPass engine p shadow).engineDone engine).settleCopies)

/-! ### Far segments (05 R144, R145, 03 R88) -/

/-- Whether a far segment may be scored now: scanners take work in batch order, so no earlier batch has a segment on the channel that a query
still waits for (05 R142); exact scans yield to ordinary batches, whenever they began (05 R158). Within a batch segments are scored as their
reads arrive (05 R144). -/
def State.farTurn (s : State) (j : FarJob) : Bool :=
  !s.search.farWork.any (fun i => i.channel == j.channel && !i.queries.isEmpty
    && (if i.exact = j.exact then decide (i.batch < j.batch) else j.exact))

/-- A shadow lane of a channel's scanner disagreed in its pass number `p`; its quarter-controller counts it (03 R88, R90, 13 R326). -/
def State.scanMismatch (s : State) (ch p : Nat) : State :=
  ((s.bump (0x00064000 + 4 * (ch / 8))).audEvent 7 (ch / 8) (8 * (Config.free s.fresh 0 % 2) + p % 8) 0).draw

/-- The probe engine that scores a chunk whose rescan differed too: the lowest-numbered one that can; none while the S-die is out
(03 R88, notes/assumptions/18.md). -/
def State.chunkEngine (s : State) : Option Nat :=
  if s.seatSearch then none
  else ((s.search.engines.zip (List.range s.search.engines.length)).find? (fun e => e.1.mode = .active && s.powered (48 + e.2))).map (fun e => e.2)

/-- One pass of a scanner over a segment for up to 16 queries, with what its shadow lanes show: its results are used, or those of a rescan from the
read buffer, or the chunk is staged into T1 and runs as a pass of a probe engine (03 R88, 05 R144). Where no engine can take it, the queries end
with ABORTED_FAULT, for which the manual has no rule (DESIGN CHOICE, notes/assumptions/18.md). -/
def State.scanPass (s : State) (j : FarJob) (ks : List QueryKey) (shadow : Shadow) : State :=
  let p := s.search.scanPasses.getD j.channel 0
  let s := s.updSearch (fun z => { z with scanPasses := z.scanPasses.modify j.channel (· + 1) })
  let mark (s : State) : State := s.updQueries ks (fun x => { x with recovered := true })
  let go (s : State) : State :=
    let s := s.scoreFor j.coll j.list j.base (32 + j.channel) j.tombs [j.content] ks
    (s.search.queries.filter (fun q => ks.contains q.key)).foldl (fun s q => s.sendPartials q (fun x => x == 32 + j.channel)) s
  let staged (sh : Shadow) : State :=
    let s := mark ((s.scanMismatch j.channel p).scanMismatch j.channel p)
    match s.chunkEngine with
    | some e => s.runPass e { batch := j.batch, exact := j.exact, coll := j.coll, list := j.list, cached := false, segs := [j.content], base := j.base, tombs := j.tombs, queries := ks } sh
    | none => s.endQueries ks St.aborted
  match shadow with
  | .agree => go s
  | .repeated => go (mark (s.scanMismatch j.channel p))
  | .moved => staged .agree
  | .failed => staged .failed

/-- The LOST pages of a far segment's media copy (13 R334, R337). -/
def State.farLost (s : State) (j : FarJob) : List Nat :=
  match s.flash.extents.find? (fun e => e.lpns.head? == some j.lpn && e.stored.far) with
  | some e => s.lostPages e
  | none => []

/-- A far segment arrives and its channel's scanner scores it for the queries that still wait, 16 at a time from its read buffer, `shadows`
telling in order what the shadow lanes of each pass show; a LOST page ends the queries (05 R144, R145, 03 R88, 13 R334, R337). -/
def execFarSegmentScore (coll list seg : Nat) (read : ReadResult) (shadows : List Shadow) (s : State) : Res :=
  .next (match s.search.farWork.find? (fun j => j.coll == coll && j.list == list && j.seg == seg) with
    | none => s
    | some j =>
      if !s.farTurn j then s
      else
        let s := (s.updSearch (fun z => { z with farWork := s.search.farWork.erase j }))
        let s := if s.flt.sLost then s else s.bump64 0x00070028 1
        (if s.unitOut 8 then s.endQueries j.queries St.aborted
        else if read = .lost || !(s.farLost j).isEmpty then (s.bumpBy 0x000E0044 (max 1 (s.farLost j).length)).endQueries j.queries St.aborted
        else
          let s := if read = .rebuilt then s.updQueries j.queries (fun x => { x with recovered := true }) else s
          let groups := chunks 16 (j.queries.length + 1) j.queries
          (groups.zip (List.range groups.length)).foldl (fun s g => s.scanPass j g.1 (shadows.getD g.2 .agree)) s).settleCopies)

/-- FAR_LIMIT passes: the query goes on without its missing far lists (05 R145). -/
def execFarLimitExpire (q : QueryKey) (s : State) : Res :=
  .next (match s.query? q with
    | none => s
    | some x =>
      let jobs := s.search.farWork.filter (fun j => j.queries.contains q)
      let limit := match s.coll? x.coll with | some c => c.desc.farLimit | none => 0
      if x.stage ≠ 2 || limit = 0 || jobs.isEmpty then s
      else
        let lists := dedup (jobs.map (fun j => (j.batch, j.coll, j.list)))
        let new := lists.filter (fun l => !s.search.lateLists.contains l)
        let s := (s.updSearch (fun z => { z with
          lateLists := s.search.lateLists ++ new
          farWork := s.search.farWork.map (fun j => { j with queries := j.queries.filter (fun k => k ≠ q) }) }))
        let s := if s.flt.sLost then s else s.bumpBy 0x00070034 new.length
        let s := if x.late then s else s.bump (collReg x.coll 0x28)
        s.updQuery q (fun x => { x with farLate := x.farLate + lists.length, late := true }))

/-! ### Merge, widening, refinement (05 R146 to R148) -/

/-- The lists of the next widening round (05 R148). -/
def Query.nextRound (q : Query) (d : CollDesc) : List Nat :=
  let lo := q.nprobe * 2 ^ q.round
  let hi := min (q.nprobe * 2 ^ (q.round + 1)) d.nprobeMax
  (q.ranking.take hi).drop lo

/-- The meld unit, or the seats of the query's hand, merge a query's partial lists with UNIQUE; the query widens, refines or is
final. `shadows` tells of the merge groups in order which were repeated or failed; a group it does not name agreed (05 R146,
R148, 06 R171, R173, R178, R179). -/
def execSearchMerge (q : QueryKey) (shadows : List Shadow) (s : State) : Res :=
  .next (match s.query? q with
    | none => s
    | some x =>
      match s.coll? x.coll with
      | none => s
      | some c =>
        let unit := !s.seatSearch
        if x.stage ≠ 2 || s.scoringLeft q || s.inBatch q || (x.exact && x.full) || (!unit && !s.queryHand x) then s
        else
          let groups := shadows.take (mergeGroups x.partials.length x.partials.length)
          let again := (groups.filter (fun g => g ≠ .agree)).length
          let keep := x.keep c.desc
          let parts := x.partials.map (fun p => p.2)
          let (p, _, dup) := mergeAll 0 c.desc.largest true keep x.partials.length parts
          let failed := unit && groups.contains .failed
          -- counts of the meld unit: what the partial lists bring, and what each group that ran excludes and removes
          let ran := (mergeTrace 0 c.desc.largest true keep x.partials.length parts).take ((indexWhere (· == Shadow.failed) groups).getD 4096)
          let s := if unit then
              let s := (s.sendPartials x (fun _ => true)).bump64 0x00080000 1
              let s := s.countExcluded (sumNat (ran.map (fun g => g.1))) (sumNat (ran.map (fun g => g.2)))
              let s := s.bumpBy 0x00080028 again
              if again = 0 then s else s.updQuery q (fun x => { x with recovered := true })
            else s
          if failed then (s.bump 0x0008002C).finishQuery q St.aborted
          else
            let s := if unit then
                let s := if p.entries.length < keep then s.bump 0x00080020 else s
                if p.ties > 0 && p.entries.length = keep then s.bump 0x00080024 else s
              else s
            let s := s.updQuery q (fun x => { x with
              partials := [(96, p)], merged := p.entries, tiesLeft := if p.entries.length = keep then p.ties else 0
              unsent := [], duplicates := x.duplicates + dup })
            let more := x.nextRound c.desc
            if x.widen && !x.exact && p.entries.length < x.k && x.probed < c.desc.nprobeMax && !more.isEmpty then
              let s := if x.round = 0 then s.bump (collReg x.coll 0x24) else s
              s.updQuery q (fun x => { x with probes := more, probed := x.probed + more.length, round := x.round + 1, stage := 1 })
            else if x.refine && x.issue.isNone then s.updQuery q (fun x => { x with stage := 4 })
            else s.finishQuery q St.ok)

/-- Exact distances of items to a query, best k; each candidate is an entry's id, list, item and vector (05 R146, R158). -/
def Collection.exactBest (x : Collection) (q : Query) (draw : Nat) (cands : List (Addr × Nat × Nat × List Byte)) (unique : Bool) : Selected :=
  selectBest 0 x.desc.largest unique false q.k ((cands.zip (List.range cands.length)).map (fun c =>
    { key := toF32 (score x.desc.metric draw (c.2 * 2 ^ 20) q.values (c.1.2.2.2.map (fun b => Fmt.e4m3.decode b.toNat)))
      index := c.1.1, source := c.1.2.1, item := c.1.2.2.1 }))

/-- The full vectors of the candidates arrive, from T1 or through the flash scanners; exact distances are computed on the seats of
the query's hand and the best k kept (05 R146, 01 R20, R23). -/
def execRefine (q : QueryKey) (s : State) : Res :=
  .next (match s.query? q with
    | none => s
    | some x =>
      match s.coll? x.coll with
      | none => s
      | some c =>
        if x.stage ≠ 4 || !s.queryHand x then s
        else
          let items := x.merged.filterMap (fun e => (c.item? e.item).map (fun it => (e, it)))
          let lost := !c.desc.vecT1 && items.any (fun i => s.mediaLost (i.2.owns c.number true))
          if !c.desc.vecT1 && s.unitOut 8 then s.finishQuery q St.aborted
          else if lost then
            (s.countLost (fun o => items.any (fun i => i.2.owns c.number true o))).finishQuery q St.aborted
          else
            let r := c.exactBest x s.fresh (items.map (fun i => (i.1.index, i.1.source, i.1.item, i.2.vec))) true
            (s.draw.updQuery q (fun x => { x with merged := r.entries, tiesLeft := r.ties })).finishQuery q St.ok)

/-! ### Exact scans (05 R158) -/

/-- An exact-scan batch starts when no ordinary batch is closed: CODES on engines and scanners, or on the seats; FULL on
the full vectors of every visible entry. Scans on seats wait until their hand holds one (05 R158, R159, 01 R20). -/
def execExactBatchStart (s : State) : Res :=
  .next (
    if s.search.exactWaiting.isEmpty || !s.search.closed.isEmpty then s
    else
      let ready (k : QueryKey) : Bool := match s.query? k with
        | some q => !(q.full || s.seatSearch) || s.queryHand q
        | none => true
      let ks := s.search.exactWaiting.filter ready
      let s := (s.updSearch (fun z => { z with exactWaiting := z.exactWaiting.filter (fun k => !ready k) }))
      let isFull (k : QueryKey) : Bool := match s.query? k with | some q => q.full | none => false
      let full := ks.filter isFull
      let codes := ks.filter (fun k => !isFull k)
      let s := full.foldl (fun s k =>
        match s.query? k with
        | none => s
        | some q =>
          match s.coll? q.coll with
          | none => s
          | some x =>
            let rows := q.probes.flatMap (fun l =>
              let y := x.llist l
              let all := (y.segs.foldl (fun (acc : List (Entry × Nat × Nat) × Nat) g =>
                (acc.1 ++ (g.entries.zip (List.range g.entries.length)).map (fun e => (e.1, g.epochOf e.2, acc.2 + e.2)),
                  acc.2 + g.entries.length)) ([], 0)).1
              let vis := all.filter (fun e => sees q.snapshot e.2.1 e.2.2 y.tombs)
              vis.map (fun e => (l, e.1)))
            let pass := rows.filter (fun r => q.filter.isEmpty || filterPasses q.filter r.2.attr.toNat)
            let items := pass.filterMap (fun r => (x.item? r.2.item).map (fun it => (r.2.id, r.1, it)))
            if !x.desc.vecT1 && s.unitOut 8 then s.finishQuery k St.aborted
            else if !x.desc.vecT1 && items.any (fun i => s.mediaLost (i.2.2.owns x.number true)) then
              (s.countLost (fun o => items.any (fun i => i.2.2.owns x.number true o))).finishQuery k St.aborted
            else
              let r := x.exactBest q s.fresh (items.map (fun i => (i.1, i.2.1, i.2.2.serial, i.2.2.vec))) true
              let s := if s.variant = .v9706 then s else s.bump64 (collReg q.coll 0x18) (rows.length - pass.length)
              (s.draw.updQuery k (fun q => { q with
                merged := r.entries, tiesLeft := r.ties, duplicates := r.duplicates })).finishQuery k St.ok) s
      if s.seatSearch then codes.foldl (fun s k => match s.query? k with | some q => s.seatScan k q.probes | none => s) s
      else if codes.isEmpty then s
      else (s.updQueries codes (fun q => { q with stage := 2 })).startBatch codes true)

/-! ### Placement (05 R137) -/

/-- Move one list to a place, with its charges; its tail stays in T1, and the pages and the media copy of the old one are freed after the last batch
that used it. A move that a quota or the media refuse is skipped (05 R133, R135, R137). -/
def State.moveList (s : State) (x : Collection) (y : LList) (place : Place) : State :=
  let n := y.segs.length
  let tail := y.pages.getD (n - 1) 0
  let z := { y with place := place, openTail := true, pages := List.replicate (n - 1) 0 ++ [tail] }
  let q := s.tenant x.tenant
  let extra := z.t1 - y.t1
  let freed := if (s.listBatches x.number y.number).isEmpty then
    s.mediaCharge (fun o => match o with | .seg c l _ => c == x.number && l == y.number | _ => false) else 0
  if (extra > 0 && !q.t1.fits extra) || s.mediaRefuses || s.flash.stopped then s
  else if q.t2.used + segCharges z s.fresh n > q.t2.limit * 65536 + freed then s
  else
    let t := ((s.chargeT1 x.tenant extra).retireCopy x.tenant x.number y.number (y.t1 - z.t1) (y.pages.filter (fun p => p ≠ 0 && p ≠ tail))).updColl
      x.number (fun x => x.putList z)
    let (t, ok) := (t.layLists s x.number).storeSegs x.number y.number (List.range n)
    if ok then t else { s with flash := { s.flash with sealed := t.flash.sealed } }

/-- The far lists whose VISITS are at or above HOT_VISITS: their blocks are pinned-class (13 R347). -/
def State.markHot (s : State) : State :=
  s.updFlash (fun z => { z with hot := s.colls.flatMap (fun x =>
    (x.lists.filter (fun y => y.place = .far && decide (y.visits ≥ s.flash.hotVisits))).map (fun y => (x.number, y.number))) })

/-- Every 4,096 batches the scheduler places lists anew: the longest prefix by VISITS that fits T1_LIST_BYTES in T1, the
rest FAR, and the most visited T1 lists CACHED (05 R137). -/
def execRebalance (s : State) : Res :=
  .next (
    if s.seatSearch || s.search.batches < s.search.lastRebalance + 4096 then s
    else
      let s := (s.updSearch (fun z => { z with lastRebalance := s.search.batches }))
      let order (a b : LList) : Bool := decide (a.visits > b.visits) || (a.visits == b.visits && decide (a.number < b.number))
      let s := s.colls.foldl (fun s x =>
        let ranked := sortBy order (x.lists.filter (fun y => !y.segs.isEmpty))
        let inT1 := (ranked.foldl (fun (acc : List Nat × Nat × Bool) y =>
          let b := acc.2.1 + 65536 * y.segs.length
          if acc.2.2 && (x.desc.t1ListBytes = 0 || b ≤ x.desc.t1ListBytes) then (acc.1 ++ [y.number], b, true)
          else (acc.1, acc.2.1, false)) ([], 0, true)).1
        let moves := (ranked.filter (fun y => (y.place = .far) == inT1.contains y.number)).take 1024
        moves.foldl (fun s y => s.moveList x y (if inT1.contains y.number then .t1 else .far)) s) s
      let s := s.setCached (cachePick s.cacheRoom (s.ranked (fun p => p == .t1 || p == .cached)))
      s.markHot)

/-- Every 65,536 batches every VISITS field is halved, rounding down (05 R137). -/
def execVisitsHalve (s : State) : Res :=
  .next (
    if s.search.batches < s.search.lastHalve + 65536 then s
    else { s with
      search := { s.search with lastHalve := s.search.batches }
      colls := s.colls.map (fun x => { x with lists := x.lists.map (fun y => { y with visits := y.visits / 2 }) }) })

end Sys2Proof.Machine
end

