-- ==== Sys2Proof/Machine/SearchCmd.lean ====
section
/-!
DEFINITION. The search commands: SRCH_QUERY, SRCH_INSERT, SRCH_DELETE, SRCH_COMPACT and SEARCH PROBE, with the placing of
entries and tombstones (05 R143 to R158, 18 R485, R486).
-/
namespace Sys2Proof.Machine

/-! ### Queries (05 R131 to R148, R155, R158, 18 R485) -/

/-- A new query. -/
def newQuery (key : QueryKey) (t : Nat) (x : Collection) (vec : List Word) (filter : List Byte) (k nprobe wait : Nat)
    (widen refine : Bool) (snap : Nat) (hand : Option Nat) : Query :=
  { key := key, tenant := t, coll := x.number, issue := none, vec := vec, filter := filter, k := k
    nprobe := if nprobe = 0 then x.desc.nprobeDef else nprobe, maxWait := if wait = 0 then x.desc.maxWait else wait
    widen := widen, refine := refine && x.desc.kRefine ≠ 0, exact := false, full := false, snapshot := snap, ranking := []
    probes := [], probed := 0, round := 0, partials := [], farLate := 0, late := false, duplicates := 0, unsent := []
    merged := [], tiesLeft := 0, stage := 0, status := 0, recovered := false, hand := hand }

/-- Take a query in (05 R163). -/
def State.addQuery (s : State) (q : Query) : State :=
  (s.updSearch (fun z => { z with queries := z.queries ++ [q] })).bump64 (collReg q.coll 0x10) 1

/-- The checks of a search's k, nprobe and wait that are alike for all its queries: BAD_PARAM, then UNIT_ABSENT of 00 R4
(05 R132, R141, R146). -/
def State.searchTrouble (s : State) (x : Collection) (k nprobe wait : Nat) (refine : Bool) : Option Nat :=
  let d := x.desc
  let refining := refine && d.kRefine ≠ 0
  if k < 1 || k > 4096 || nprobe > d.nprobeMax || wait > 2000 || (refining && k > d.kRefine) then some St.badParam
  else if s.seatSearch && (if refining then d.kRefine else k) > 1024 then some St.unitAbsent
  else none

/-- A filter block as a command names it: its bytes, or the status that ends the command (05 R143, 18 R468). -/
def State.filterFor (s : State) (t a : Nat) : List Byte ⊕ Nat :=
  if a = 0 then .inl []
  else
    match s.resolve t a 8 8 with
    | none => .inr St.badParam
    | some k =>
      let n := fieldOf (s.rd k 8) 0 1
      if s.seatSearch && n > 0 then .inr St.unitAbsent
      else if s.seatSearch then .inl []
      else
        match s.resolve t a (8 + 24 * min n 8) 8 with
        | none => .inr St.badParam
        | some k =>
          let b := s.rd k (8 + 24 * min n 8)
          if filterOk b then .inl b else .inr St.badParam

/-- `n` words at a key. -/
def State.words (s : State) (key n : Nat) : List Word :=
  let b := s.rd key (4 * n)
  (List.range n).map (fun i => BitVec.ofNat 32 (fieldOf b (4 * i) 4))

/-- SRCH_QUERY's own checks and its queries (18 R485). -/
def State.srchQuery (s : State) (h : Nat) (c : Cmd) : State :=
  let t := c.tenant
  let fl := c.field 0x16 2
  let n := c.field 0x1B 1
  let k := c.field 0x14 2
  let exact := bitAt fl 2
  match s.collFor t h (c.field 0x10 2) with
  | none => s.fail h St.badParam
  | some x =>
    let d := x.desc
    let full := exact && bitAt fl 3
    let all := bitAt fl 4
    let refine := bitAt fl 1 && d.kRefine ≠ 0 && !full
    let handNeeded := bitAt fl 1 || full || s.seatSearch
    let hand := s.handFor t h (c.field 0x1A 1)
    let chosen := if exact && !all then c.field 0x1C 4 else 0
    if (!exact && (bits fl 4 3 ≠ 0 || c.field 0x1C 4 ≠ 0 || c.field 0x30 8 ≠ 0)) || n < 1 || n > 64 then s.fail h St.badParam
    else
      match s.resolve t (c.field 0x20 8) (4 * d.dim * n) 4, s.resolve t (c.field 0x38 8) (resultSize k * n) 8,
          s.resolve t (if chosen = 0 then 0 else c.field 0x30 8) (4 * chosen) 4 with
      | some vk, some _, some lk =>
        match s.filterFor t (c.field 0x28 8) with
        | .inr st => s.fail h st
        | .inl filter =>
          let ids := (s.words lk chosen).map (fun w => w.toNat)
          match s.searchTrouble x k (c.field 0x12 2) (c.field 0x18 2) (bitAt fl 1) with
          | some st => s.fail h st
          | none =>
            if (handNeeded && hand.isNone) || ids.any (fun l => l ≥ d.lists) then s.fail h St.badParam
            else if handNeeded && s.noSeats then s.fail h St.aborted
            else if s.poisoned vk (4 * d.dim * n) then s.fail h St.aborted
            else
              let s := s.updCmd h (fun c => { c with stage := 1 })
              let draw := s.fresh
              let s := s.drawN n
              let s := (List.range n).foldl (fun s i =>
                let q := newQuery { cmd := h, idx := i } t x (s.words (vk + 4 * d.dim * i) d.dim) filter k (c.field 0x12 2)
                  (c.field 0x18 2) (bitAt fl 0 && !exact) refine c.snapshot (if handNeeded then some (c.field 0x1A 1) else none)
                if !exact then s.addQuery q
                else
                  let lists := if all then x.lists.map (fun y => y.number) else dedup ids
                  let q := { q with exact := true, full := full, probes := lists, probed := min (if all then d.lists else lists.length) 65535 }
                  let s := s.bump (collReg x.number 0x3C)
                  match d.prepare (draw + i) q.values with
                  | none => s.addQuery q
                  | some v => (s.addQuery { q with vec := v.map toF32, stage := 2 }).updSearch (fun z => { z with
                      exactWaiting := z.exactWaiting ++ [q.key] })) s
              if exact then
                -- a vector that cannot be scored ends its query at once
                (s.search.queries.filter (fun q => q.key.cmd == h && q.stage == 0)).foldl (fun s q => s.finishQuery q.key St.inputInvalid) s
              else s
      | _, _, _ => s.fail h St.badParam

/-- SRCH_QUERY on a native queue (18 R485). -/
def execSrchQuery (cmd : Nat) (s : State) : Res :=
  .next (match s.cmdAt cmd 0x0401 0 with
    | some c => if c.legacyOp.isSome then s else s.srchQuery cmd c
    | none => s)

/-- SEARCH PROBE: a probe set the kernel chose goes to the list scheduler; under WIDEN it stands for the first ranks of the coarse ranking, whose
later ranks widening takes (04 R110, R111, 05 R147, R148, notes/assumptions/18.md). -/
def execSearchProbe (k : IssueKey) (s : State) : Res :=
  .next (match s.issueAt k 1 1 with
    | none => s
    | some u =>
      let b := u.body
      if s.seatSearch then s.finishIssue k St.unitAbsent 0
      else
        match s.colls.find? (fun x => x.number == fieldOf b 0 2 && x.tenant == u.tenant
            && (match x.evicting with | none => true | some e => e.issues.contains k)) with
        | none => s.finishIssue k St.badParam 0
        | some x =>
          let n := fieldOf b 2 2
          let kk := fieldOf b 4 2
          let refine := bitAt (fieldOf b 6 2) 1 && x.desc.kRefine ≠ 0
          let slots := if refine then x.desc.kRefine else kk
          let size := if refine then roundUp (32 + 16 * slots) 64 + slots * roundUp x.desc.dim 64 else 32 + 16 * slots
          if n < 1 || fieldOf b 6 2 > 3 || !bodyTailZero u 0x28 || (s.searchTrouble x kk n 0 (bitAt (fieldOf b 6 2) 1)).isSome then
            s.finishIssue k St.badParam 0
          else
            let fa := fieldOf b 0x18 8
            let c0 := worstCheck [s.unitCheck u .load (fieldOf b 8 8) (4 * x.desc.dim) 4, s.unitCheck u .load (fieldOf b 0x10 8) (4 * n) 4,
              if fa = 0 then .ok else s.unitCheck u .load fa 8 8, s.unitCheck u .store (fieldOf b 0x20 8) size 8]
            s.onCheck k c0 (fun s =>
              let terms := if fa = 0 then 0 else fieldOf (s.rdTva u.tenant u.stock fa 8) 0 1
              let flen := 8 + 24 * min terms 8
              s.onCheck k (if fa = 0 then .ok else s.unitCheck u .load fa flen 8) (fun s =>
                let filter := if fa = 0 then [] else s.rdTva u.tenant u.stock fa flen
                let pb := s.rdTva u.tenant u.stock (fieldOf b 0x10 8) (4 * n)
                let lists := (List.range n).map (fun i => fieldOf pb (4 * i) 4)
                let vb := s.rdTva u.tenant u.stock (fieldOf b 8 8) (4 * x.desc.dim)
                let vec := (List.range x.desc.dim).map (fun i => BitVec.ofNat 32 (fieldOf vb (4 * i) 4))
                if (fa ≠ 0 && !filterOk filter) || lists.any (fun l => l ≥ x.desc.lists) then s.finishIssue k St.badParam 0
                else
                  let key : QueryKey := { cmd := 2 ^ 64 + (k.seat * 64 + k.ctx) * 2 ^ 32 + k.ticket, idx := 0 }
                  let q := newQuery key u.tenant x vec filter kk n 0 (bitAt (fieldOf b 6 2) 0) refine x.published none
                  let draw := s.fresh
                  s.onCheck k (if q.widen then s.collCheck { q with issue := some k } x else .ok) (fun s =>
                    match x.desc.prepare draw q.values with
                    | none => s.draw.finishIssue k St.inputInvalid 0
                    | some v =>
                      let more := if q.widen then ((x.coarse draw x.desc.nprobeMax v).drop n).filter (fun l => !lists.contains l) else []
                      (s.draw.beginIssue k).addQuery { q with
                        vec := v.map toF32, issue := some k, ranking := lists ++ more, probes := lists, probed := n, stage := 1 }))))

/-! ### Epochs (05 R149, R152 to R154) -/

/-- Whether an older insert or delete on the same collection has not taken its epoch yet, or an insert finds programs stopped by a
supply warning (05 R149, 13 R352). -/
def State.epochBlocked (s : State) (c : Cmd) : Bool :=
  (s.flash.stopped && c.opcode == 0x0402) || has (fun x => decide (x.handle < c.handle) && (x.opcode == 0x0402 || x.opcode == 0x0403) && x.tenant == c.tenant && x.stage == 0
    && x.field 0x10 2 == c.field 0x10 2) s.cmds

/-- Place one entry at a list's tail; none when the append waits for a mark (05 R134, R153). -/
def LList.place1 (y : LList) (cap oldest e : Nat) (en : Entry) : Option LList :=
  let fresh : LList := { y with
    segs := y.segs ++ [{ entries := [en], marks := [(e, 0)] }], openTail := true, place := if y.place = .empty then .t1 else y.place }
  match y.segs.getLast? with
  | none => some fresh
  | some g =>
    let put (ms : List (Nat × Nat)) : Option LList :=
      some { y with segs := y.segs.dropLast ++ [{ entries := g.entries ++ [en], marks := ms }], openTail := true }
    if g.entries.length ≥ cap then some fresh
    else if (g.marks.getLast?).map (fun m => m.1) = some e then put g.marks
    else if g.marks.length < 4 then put (g.marks ++ [(e, g.entries.length)])
    else
      match g.marks with
      | a :: b :: rest =>
        if a.1 ≤ oldest && b.1 ≤ oldest then put ((max a.1 b.1, a.2) :: rest ++ [(e, g.entries.length)]) else none
      | _ => none

/-- Append an entry to a list, after every append that waits for the list (05 R150, R153); answers whether it waits. -/
def Collection.append (x : Collection) (oldest l e : Nat) (en : Entry) : Collection × Bool :=
  let wait : Collection × Bool := ({ x with appends := x.appends ++ [{ list := l, epoch := e, entry := en }] }, true)
  if has (fun a => a.list == l) x.appends then wait
  else
    match (x.llist l).place1 x.desc.segCap oldest e en with
    | some y => (x.putList y, false)
    | none => wait

/-! ### SRCH_INSERT (05 R150 to R152, 07 R181, 18 R486) -/

/-- The records of an insert in place: offsets of the records, or none when they overrun or leave bytes (18 R486). -/
def recordOffsets (b : List Byte) (dim : Nat) : Nat → Nat → Option (List Nat × Nat)
  | 0, fin => some ([], fin)
  | n + 1, at' =>
    let o := roundUp at' 64
    if o + 0x20 + 4 * dim > b.length then none
    else
      let text := o + 0x20 + 4 * dim + fieldOf b (o + 0x18) 4
      let marks := fieldOf b (o + 0x1C) 2
      let fin := if marks = 0 then text else roundUp text 4 + 4 * marks
      if fin > b.length then none else (recordOffsets b dim n fin).map (fun r => (o :: r.1, r.2))

/-- A record as read. -/
structure ItemRec where
  id : Addr
  attr : Addr
  fingerprint : Addr
  text : List Byte
  textBytes : Nat
  marks : List Nat
  reserved : Nat
  vec : List Word
  deriving DecidableEq, Repr

/-- Read the record at an offset (18 R486). -/
def itemAt (b : List Byte) (dim o : Nat) : ItemRec :=
  let tb := fieldOf b (o + 0x18) 4
  let t := o + 0x20 + 4 * dim
  { id := BitVec.ofNat 64 (fieldOf b o 8), attr := BitVec.ofNat 64 (fieldOf b (o + 8) 8)
    fingerprint := BitVec.ofNat 64 (fieldOf b (o + 0x10) 8), text := (b.drop t).take tb, textBytes := tb
    marks := (List.range (fieldOf b (o + 0x1C) 2)).map (fun i => fieldOf b (roundUp (t + tb) 4 + 4 * i) 4)
    reserved := fieldOf b (o + 0x1E) 2
    vec := (List.range dim).map (fun i => BitVec.ofNat 32 (fieldOf b (o + 0x20 + 4 * i) 4)) }

/-- Whether marks rise strictly within 1 to TEXT_BYTES (07 R181). -/
def marksOk (n : Nat) (ms : List Nat) : Bool :=
  ms.all (fun m => decide (1 ≤ m) && decide (m ≤ n)) && (ms.zip ms.tail).all (fun p => decide (p.1 < p.2))

/-- An item prepared for its lists: none when it is rejected (05 R150, R151, 07 R181). One for which no centroid has a valid score is rejected too,
for which the manual has no rule (DESIGN CHOICE, notes/assumptions/18.md). -/
def Collection.assign (x : Collection) (draw : Nat) (r : ItemRec) : Option (List FVal × List Nat) :=
  if r.id = noIndex || r.textBytes > 1048576 || r.reserved ≠ 0 || !marksOk r.textBytes r.marks then none
  else
    match x.desc.prepare draw (r.vec.map ofF32) with
    | none => none
    | some v =>
      let lists := x.coarse draw (if x.desc.spill then 2 else 1) v
      if lists.isEmpty then none else some (v, lists)

/-- One item of an insert goes into the collection, its media parts from an offset on; answers the appends that wait, the bytes of the parts, and
the cuts of its text. -/
def insertItem (deck : Option Deck) (oldest e draw off : Nat) (x : Collection) (r : ItemRec) (v : List FVal) (lists : List Nat) :
    Collection × Nat × Nat × List Cut :=
  let code := x.pqCode draw (2 ^ 62) v
  let (x, waits) := lists.foldl (fun (acc : Collection × Nat) l =>
    let (y, w) := acc.1.append oldest l e { id := r.id, attr := r.attr, code := code, item := x.nextItem }
    (y, acc.2 + boolNat w)) (x, 0)
  let cuts := match deck with | some d => (tokenizeAll d 0 r.text).cuts | none => []
  let it : Item :=
    { serial := x.nextItem, id := r.id, epoch := e, vec := v.map (fun y => BitVec.ofNat 8 (Fmt.e4m3.drainEncode roundsUpEven false y)), text := r.text
      tokens := cuts.map (fun c => c.token)
      deck := match deck with | some d => if cuts.isEmpty then 0xFFFFFFFF else d.number | none => 0xFFFFFFFF
      marks := r.marks, fingerprint := r.fingerprint, lists := lists, off := off }
  ({ x with items := x.items ++ [it], nextItem := x.nextItem + 1 }, waits, it.media.length, cuts)

/-- What stands against an insert: centroids, codebooks and deck lines that are not in T1 or cannot be read (01 R22, 08 R214). -/
def State.insertCheck (s : State) (h : Nat) (x : Collection) (deck : Option Deck) (recs : List ItemRec) : UCheck :=
  worstCheck [s.objectCheck (.cmd h) x.tenant x.va.toNat x.image.length,
    match deck with
    | some d => s.deckCheck (.cmd h) d (nodeLines d.image (recs.flatMap (fun r => (tokenizeAll d 0 r.text).nodes)))
    | none => .ok]

/-- A write of an insert that the media came to refuse: nothing it wrote stays, and the media are sealed (05 R152, 13 R349). -/
def State.refusedBack (s z : State) : State :=
  ({ s with flash := { s.flash.seal with nandBytes := z.flash.nandBytes, hostBytes := z.flash.hostBytes } } : State).bump 0x000E0058

/-- SRCH_INSERT: the whole insert in intake order; a fault, a quota or sealed media leaves its epoch to be published empty (05
R149 to R152). -/
def State.srchInsert (s : State) (h : Nat) (c : Cmd) : State :=
  let t := c.tenant
  let n := c.field 0x14 4
  let dk := c.field 0x18 4
  let bytes := c.field 0x28 8
  let deck := if dk = 0xFFFFFFFF then none else s.deckFor t h dk
  match s.collFor t h (c.field 0x10 2) with
  | none => s.fail h St.badParam
  | some x =>
    if n < 1 || n > 65536 || (s.handFor t h (c.field 0x12 1)).isNone || (dk ≠ 0xFFFFFFFF && deck.isNone) then s.fail h St.badParam
    else
      match s.resolve t (c.field 0x20 8) bytes 64 with
      | none => s.fail h St.badParam
      | some key =>
        let b := s.rd key bytes
        match recordOffsets b x.desc.dim n 0 with
        | none => s.fail h St.badParam
        | some (offs, fin) =>
          let check := s.insertCheck h x deck (offs.map (itemAt b x.desc.dim))
          if bytes > roundUp fin 64 then s.fail h St.badParam
          else if s.noSeats || s.poisoned key bytes || check = .poison then
            ((s.takeEpoch x.number h).updCmd h (fun c => { c with stage := 1 })).endEpoch x.number h 0 St.aborted
          else if let .failed st := check then ((s.takeEpoch x.number h).updCmd h (fun c => { c with stage := 1 })).endEpoch x.number h 0 st
          else if check = .wait then s
          else
            let e := x.nextEpoch
            let draw := s.fresh
            let s := (s.takeEpoch x.number h).updCmd h (fun c => { c with stage := 1 })
            let x := (s.coll? x.number).getD x
            let oldest := s.oldestSnapshot x
            let recs := offs.map (itemAt b x.desc.dim)
            let (y, good, waits, size, cuts) := (recs.zip (List.range n)).foldl
              (fun (acc : Collection × Nat × Nat × Nat × List (List Byte × List Cut)) ri =>
                match x.assign (draw + ri.2) ri.1 with
                | none => acc
                | some (v, lists) =>
                  let (z, w, m, cs) := insertItem deck oldest e (draw + ri.2) acc.2.2.2.1 acc.1 ri.1 v lists
                  (z, acc.2.1 + 1, acc.2.2.1 + w, acc.2.2.2.1 + m, acc.2.2.2.2 ++ [(ri.1.text, cs)])) (x, 0, 0, 0, [])
            let s := s.drawN n
            let segs := changedSegs x y
            let blocks := ceilDiv size 65536
            let extra := y.t1Lists - x.t1Lists
            let old := s.mediaCharge (fun o => segs.any (fun g => o == .seg x.number g.1 g.2))
            let new := sumNat ((segs.zip (List.range segs.length)).map (fun g =>
                if (y.llist g.1.1).place = .far then 65536 else tierCharge (s.fresh + 1 + g.2) 0)) + tierCharges s.fresh blocks
            let q := s.tenant t
            if !q.t1.fits extra || q.t2.used + new > q.t2.limit * 65536 + old then s.draw.endEpoch x.number h 0 St.quota
            else if s.mediaRefuses then (s.draw.bump 0x000E0058).endEpoch x.number h 0 St.sealed
            else
              let s := if deck.isSome then cuts.foldl (fun s tc =>
                  match deck with
                  | some d => s.countTokenized d (tokenizeAll d 0 tc.1)
                  | none => s) s else s
              let z := ((s.updColl x.number (fun _ => y)).chargeT1 t extra).layLists s x.number
              let stream := (y.items.filter (fun i => i.epoch == e)).flatMap Item.media
              let stored := tierBlocksOf z.fresh 0 t stream
              let (z, put) := z.draw.mediaPuts t ((stored.zip (List.range stored.length)).map (fun b => (.items x.number e b.2, b.1)))
              let (z, ok) := (dedup (segs.map (fun g => g.1))).foldl (fun (acc : State × Bool) l =>
                if acc.2 then acc.1.storeSegs x.number l ((segs.filter (fun g => g.1 == l)).map (fun g => g.2)) else acc) (z, decide (put = stored.length))
              if !ok then (s.refusedBack z).endEpoch x.number h 0 St.sealed
              else
                let s := (z.bumpBy (collReg x.number 0x2C) (n - good)).bumpBy (collReg x.number 0x38) waits
                let s := s.updEpoch x.number h (fun e => { e with count := good, status := if good < n then St.part else St.ok })
                (if waits = 0 then s.updEpoch x.number h (fun e => { e with written := true }) else s).trimCached

/-- SRCH_INSERT on a native queue. -/
def execSrchInsert (cmd : Nat) (s : State) : Res :=
  .next (match s.cmdAt cmd 0x0402 0 with
    | some c => if c.legacyOp.isSome || s.epochBlocked c then s else s.srchInsert cmd c
    | none => s)

/-- Place the appends that wait for one list, in order, while their marks allow. An append that would grow the list beyond the
tenant's quota, or that sealed media refuse, ends its insert with nothing inserted (00 R5, 05 R152, R153). -/
def State.releaseAppends (c l : Nat) : Nat → State → State
  | 0, s => s
  | n + 1, s =>
    match s.coll? c with
    | none => s
    | some x =>
      match x.appends.find? (fun a => a.list == l) with
      | none => s
      | some a =>
        match (x.llist l).place1 x.desc.segCap (s.oldestSnapshot x) a.epoch a.entry with
        | none => s
        | some y =>
          let z : Collection := { (x.putList y) with appends := x.appends.erase a }
          let segs := (changedSegs x z).map (fun g => g.2)
          let old := s.mediaCharge (fun o => segs.any (fun g => o == .seg c l g))
          let new := segCharges y s.fresh segs.length
          let q := s.tenant x.tenant
          let h := ((x.epochs.find? (fun e => e.number == a.epoch)).map (fun e => e.cmd)).getD 0
          let s' := if !q.t1.fits (z.t1Lists - x.t1Lists) || q.t2.used + new > q.t2.limit * 65536 + old then s.rollback c h St.quota
            else if s.mediaRefuses then (s.bump 0x000E0058).rollback c h St.sealed
            else
              let new := ((s.updColl c (fun _ => z)).chargeT1 x.tenant (z.t1Lists - x.t1Lists)).layLists s c
              let (new, ok) := new.storeSegs c l segs
              if ok then new else (s.refusedBack new).rollback c h St.sealed
          State.releaseAppends c l n s'

/-- Appends that waited for a mark go on once the two oldest marks can merge (05 R153). -/
def execMarkWaitRelease (coll list : Nat) (s : State) : Res :=
  .next (match s.coll? coll with
    | none => s
    | some x => if s.flash.stopped then s else ((State.releaseAppends coll list x.appends.length s).settleEpochs coll).trimCached)

/-- The next epoch is published once all of it is written: journalled, and its command completes; lists whose tombstones it brought
to COUNT / 8 start to be compacted (05 R149, R156, 13 R330). -/
def execEpochPublish (coll : Nat) (s : State) : Res :=
  .next (match s.coll? coll with
    | none => s
    | some x =>
      match x.epochs.find? (fun e => e.number == x.published + 1 && e.written) with
      | none => s
      | some e =>
        let s := s.updColl coll (fun x => { x with published := e.number, epochs := x.epochs.filter (fun y => y.number ≠ e.number) })
        let s := s.updFlash (fun f => f.record 2 coll e.number)
        (s.complete e.cmd e.status e.count e.number 0).backgroundCompact coll)

/-! ### Compaction (05 R156) -/

/-- A rewritten list is complete (05 R156). -/
def execCompactionDone (coll list : Nat) (s : State) : Res :=
  .next (match s.coll? coll with
    | none => s
    | some x => if (x.llist list).rewriting.isNone then s else s.endCompact coll list)

/-- SRCH_COMPACT: every list with removable entries is rewritten; a command issued while another runs joins it (05
R156). -/
def execSrchCompact (cmd : Nat) (s : State) : Res :=
  .next (match s.cmdAt cmd 0x0404 0 with
    | none => s
    | some c =>
      match s.collFor c.tenant cmd (c.field 0x10 2) with
      | none => s.fail cmd St.badParam
      | some x =>
        let s := s.updCmd cmd (fun c => { c with stage := 1 })
        let s := s.updColl x.number (fun x => { x with compactCmds := x.compactCmds ++ [cmd] })
        if !x.compactCmds.isEmpty then s
        else
          let ls := (x.lists.filter (fun y => y.removable (s.oldestSnapshot x))).map (fun y => y.number)
          let s := ls.foldl (fun s l => s.startCompact x.number l) s
          match s.coll? x.number with
          | none => s
          | some x =>
            let run := ls.filter (fun l => (x.llist l).rewriting.isSome)
            let skipped : Bool := decide (run.length < ls.length)
            if run.isEmpty then (s.updColl x.number (fun x => { x with compacting := [], compactCmds := [] })).fail cmd (if skipped then St.quota else St.ok)
            else s.updColl x.number (fun x => { x with compacting := run, compactSkipped := skipped }))

/-! ### SRCH_DELETE (05 R154) -/

/-- Positions in a list of the entries of an id with an insert epoch below an epoch; entries of an insert that ended under R152 are none (05 R152,
R154). -/
def LList.entriesOf (y : LList) (id : Addr) (e : Nat) : List Nat :=
  (y.segs.foldl (fun (acc : List Nat × Nat) g =>
    (acc.1 ++ (g.entries.zip (List.range g.entries.length)).filterMap (fun x =>
        if x.1.id = id && decide (g.epochOf x.2 < e) && !has (fun t => t.pos == acc.2 + x.2 && t.epoch == g.epochOf x.2) y.tombs then some (acc.2 + x.2)
        else none),
      acc.2 + g.entries.length)) ([], 0)).1

/-- Those of them that bear no tombstone of that epoch yet. -/
def LList.liveOf (y : LList) (id : Addr) (e : Nat) : List Nat :=
  (y.entriesOf id e).filter (fun p => !has (fun t => t.pos == p && t.epoch == e) y.tombs)

/-- Make room for one record in a list's tombstone block: allocate it, compact the list, or double the block; blocks are
charged even beyond the limit (05 R154). -/
def State.tombRoom (s : State) (c l : Nat) : State :=
  match s.coll? c with
  | none => s
  | some x =>
    let y := x.llist l
    if y.tombCap = 0 then
      let cap := max 64 (y.count / 8)
      (s.chargeT1 x.tenant (tombBytes cap)).updColl c (fun x => x.putList { y with tombCap := cap })
    else if y.tombs.length < y.tombCap then s
    else
      let s := if y.removable (s.oldestSnapshot x) then
          (let s' := s.startCompact c l
           match s'.coll? c with
           | some x' => if (x'.llist l).rewriting.isSome then s'.endCompact c l else s'
           | none => s')
        else s
      match s.coll? c with
      | none => s
      | some x =>
        let y := x.llist l
        if y.tombs.length < y.tombCap then s
        else ((s.releaseT1 x.tenant (tombBytes y.tombCap)).chargeT1 x.tenant (tombBytes (2 * y.tombCap))).updColl c
          (fun x => x.putList { y with tombCap := 2 * y.tombCap })

/-- Tombstone the entries of one id in one list; each record finds room first, and the positions are looked up again
because a compaction moves them. -/
def State.deleteIn (c l e : Nat) (id : Addr) : Nat → State → State
  | 0, s => s
  | n + 1, s =>
    let s := s.tombRoom c l
    match s.coll? c with
    | none => s
    | some x =>
      let y := x.llist l
      match y.liveOf id e with
      | [] => s
      | p :: _ => State.deleteIn c l e id n (s.updColl c (fun x => x.putList { y with tombs := y.tombs ++ [{ pos := p, epoch := e }] }))

/-- Delete one id; a miss is counted. -/
def State.deleteId (s : State) (c e : Nat) (id : Addr) : State :=
  match s.coll? c with
  | none => s
  | some x =>
    let hit := x.lists.filter (fun y => !(y.entriesOf id e).isEmpty)
    if hit.isEmpty then s.bump (collReg c 0x30)
    else hit.foldl (fun s y => State.deleteIn c y.number e id (y.liveOf id e).length s) s

/-- SRCH_DELETE: its epoch in intake order, and its tombstones once every insert of an earlier epoch has placed its entries
(05 R149, R154). -/
def State.srchDelete (s : State) (h : Nat) (c : Cmd) : State :=
  let n := c.field 0x14 4
  match (if c.stage = 0 then s.collFor c.tenant h (c.field 0x10 2) else s.coll? (c.field 0x10 2)) with
  | none => s.fail h St.badParam
  | some x =>
    match (if n < 1 || n > 65536 then none else s.resolve c.tenant (c.field 0x20 8) (8 * n) 8) with
    | none => if c.stage = 0 then s.fail h St.badParam else (s.bump 0x00110014).endEpoch x.number h 0 St.aborted
    | some key =>
      if s.poisoned key (8 * n) then
        (if c.stage = 0 then (s.takeEpoch x.number h).updCmd h (fun c => { c with stage := 2 }) else s).endEpoch x.number h 0 St.aborted
      else
        let s := if c.stage = 0 then (s.takeEpoch x.number h).updCmd h (fun c => { c with stage := 1 }) else s
        let e := match s.coll? x.number with
          | some x => match x.epochs.find? (fun e => e.cmd == h) with | some e => e.number | none => 0
          | none => 0
        if has (fun a => decide (a.epoch < e)) x.appends then s
        else
          let b := s.rd key (8 * n)
          let s := ((List.range n).foldl (fun s i => s.deleteId x.number e (BitVec.ofNat 64 (fieldOf b (8 * i) 8))) s).layLists s x.number
          let s := s.updCmd h (fun c => { c with stage := 2 })
          (s.endEpoch x.number h n St.ok).backgroundCompact x.number

/-- SRCH_DELETE on a native queue. -/
def execSrchDelete (cmd : Nat) (s : State) : Res :=
  .next (match s.cmd? cmd with
    | some c => if c.opcode ≠ 0x0403 || c.stage > 1 || c.legacyOp.isSome || (c.stage = 0 && s.epochBlocked c) then s
      else s.srchDelete cmd c
    | none => s)

end Sys2Proof.Machine
end

