-- ==== Sys2Proof/Machine/Blocks.lean ====
section
/-!
DEFINITION. T1 pages that come and go: what stands behind a page, TIERED blocks, room for them, eviction and writeback, and the queue of
demand fetches (01 R22, 12 R310 to R314, R321, 13 R349, R350). The choices are notes/assumptions/25.md.
-/
namespace Sys2Proof.Machine

/-! ### What a page holds -/

/-- What a T1 page of a tenant's space holds: a page of an object of kinds 1 to 7, a segment of a list, a page of a list's tombstone block, a
page of a KV frame, or what nothing else can give (12 R308). -/
inductive PageHolds
  | object (o : Loaded)
  | seg (coll list seg : Nat)
  | tomb (coll list page : Nat)
  | kv (frame : Nat)
  | other
  deriving DecidableEq, Repr

/-- What a page of the upper half of a tenant's space holds. -/
def State.pageHolds (s : State) (t b : Nat) : PageHolds :=
  let va := 65536 * b
  let lists := (s.colls.filter (fun x => x.tenant == t)).flatMap (fun x => x.lists.map (fun y => (x.number, y)))
  match s.objectOn t b, lists.find? (fun y => y.2.pages.contains va), lists.find? (fun y => y.2.tombPages.contains va),
      s.serving.frames.find? (fun f => f.tenant == t && decide (f.va / 65536 ≤ b) && decide (b < f.va / 65536 + f.pages)) with
  | some o, _, _, _ => .object o
  | none, some y, _, _ => .seg y.1 y.2.number ((indexWhere (fun p => p == va) y.2.pages).getD 0)
  | none, none, some y, _ => .tomb y.1 y.2.number ((indexWhere (fun p => p == va) y.2.tombPages).getD 0)
  | none, none, none, some f => .kv f.frame
  | none, none, none, none => .other

/-- The 64 KiB that a page's home gives: a KV page is computed anew, and what no source gives reads as zeros (12 R308, R316, 05 R134, R154). -/
def State.pageSource (s : State) (t b : Nat) : List Byte :=
  match s.pageHolds t b with
  | .object o => block64 (s.homeBytes o.kind o.number (65536 * b - o.va) 65536)
  | .seg c l g => match s.coll? c with | some x => s.segBytes x (x.llist l) g | none => []
  | .tomb c l i => match s.coll? c with | some x => block64 (((x.llist l).tombBlock.drop (65536 * i)).take 65536) | none => []
  | .kv _ => []
  | .other => []

/-- Whether stored bytes are what stands behind a page. -/
def PageHolds.behind (h : PageHolds) (b : Nat) (o : Owner) : Bool :=
  match h with
  | .object x => isObject x.kind x.number (65536 * b - x.va) 65536 o
  | .seg c l g => o == .seg c l g
  | _ => false

/-- Whether a page's home in host memory fails its checks (12 R314). -/
def State.pageBad (s : State) (t b : Nat) : Bool :=
  s.tier.hostBlocks.any (fun x => (s.pageHolds t b).behind b x.owner && !s.hostSound x)

/-! ### Waiting for a page (04 R117, 12 R311) -/

/-- Contexts of a tenant whose wait a test picks go on, on seats and in save areas (12 R311 step 4, 14 R365). -/
def State.wakeWaits (s : State) (t : Nat → Bool) (p : Wait → Bool) : State :=
  let wake (k : Ctx) : Ctx := if p k.wait then { k with wait := .none } else k
  { s with
    seats := s.seats.map (fun x =>
      match x.inv.bind (fun n => s.inv? n) with
      | some v => if t v.tenant then { x with ctxs := x.ctxs.map wake } else x
      | none => x)
    invs := s.invs.map (fun v =>
      if t v.tenant then { v with saved := v.saved.map (fun l => l.map (fun x => { x with ctxs := x.ctxs.map wake })) } else v) }

/-- Contexts that wait for a page, under either of its addresses, go on. -/
def State.wakePage (s : State) (t b : Nat) : State :=
  let l := b :: s.sharers t b
  s.wakeWaits (fun x => x == t) (fun w => match w with | .page x => l.contains x | _ => false)

/-- Whether an outstanding DMA touches a 64 KiB block of its tenant's space (04 R106). -/
def dmaTouches (b : Nat) (m : Dma) : Bool :=
  let meets (a n : Nat) : Bool := decide (a / 65536 ≤ b) && decide (65536 * b < a + n)
  (m.srcAddr && !m.zero && meets m.src (if m.decomp then m.length + 64 * (m.length / 65536) else m.length)) || (m.dstAddr && meets m.dst m.length)

/-- Invocations with a context that waits for a page, or with a DMA that does (04 R117). -/
def State.pageWaiters (s : State) (t b : Nat) : List Invocation :=
  let l := b :: s.sharers t b
  let waits (k : Ctx) : Bool := (match k.wait with | .page x => l.contains x | _ => false) || k.dmas.any (fun m => l.any (fun x => dmaTouches x m))
  s.invs.filter (fun v => v.tenant == t && (v.seats.any (fun g => has waits (s.seat g).ctxs)
    || (match v.saved with | some l => has (fun x => has waits x.ctxs) l | none => false)))

/-- Queue a demand fetch of an absent page, once: an earlier failure is forgotten (12 R311 step 1). -/
def State.queueFetch (s : State) (t b : Nat) : State :=
  let b := s.canon t b
  if !s.absentAt t b || s.tier.queue.contains (t, b) then s
  else (s.updTier (fun z => { z with
    queue := z.queue ++ [(t, b)], failed := z.failed.filter (fun x => !(x.tenant == t && x.block == b)) })).bump64 0x000D0010 1

/-- Queue a demand fetch of every absent page of a range: an object that a live request comes to use is PINNED (12 R310). -/
def State.queueObject (s : State) (t va len : Nat) : State :=
  (List.range (ceilDiv len 65536)).foldl (fun s i => s.queueFetch t (va / 65536 + i)) s

/-- A fetch failed: the work that waits for the page ends with a status (12 R311, 13 R329, R337). -/
def State.failFetch (s : State) (t b st : Nat) : State :=
  let waiters := (s.cmds.filter (fun c => c.tenant == t)).map (fun c => Waiter.cmd c.handle)
    ++ (s.issues.filter (fun u => u.tenant == t)).map (fun u => Waiter.issue u.key)
  (s.pageWaiters t b).foldl (fun s v => s.stopInvocation v.id st) (s.updTier (fun z => { z with
    queue := z.queue.filter (fun q => q ≠ (t, b))
    failed := z.failed.filter (fun x => !(x.tenant == t && x.block == b)) ++ [{ tenant := t, block := b, status := st, waiters := waiters }] }))

/-! ### Eviction and writeback (12 R311 step 2, R313) -/

/-- One stored block of an object as it is written back: its bytes in T1, coded as it was (12 R313, R316). -/
def State.storedAgain (s : State) (o : Loaded) (off len : Nat) (old : Stored) : Stored :=
  let b := s.rdTva o.tenant true (o.va + off) len
  if fieldOf old.header 2 1 = 2 || 65536 < len then weightStored b ((blockExpand b).getD old.data)
  else tierStored s.fresh 0 (o.va + off) o.tenant (block64 b)

/-- Write a block's page to its home: every stored block that lies in it anew, on media, or in host memory where it has room; the status that
stops it (12 R313, 13 R349). -/
def State.writeHome (s : State) (x : TBlock) : State × Nat :=
  match s.objectOn x.tenant x.block with
  | none => (s, St.aborted)
  | some o =>
    if s.poisoned (s.frameKey x.tenant x.block) 65536 then (s, St.aborted)
    else
      (s.homeBlocks x.kind x.number (65536 * x.block - o.va) 65536).foldl (fun (acc : State × Nat) h =>
        if acc.2 ≠ St.ok then acc
        else
          let s := acc.1
          let owner : Owner := .object x.kind x.number h.1 h.2.1
          let new := s.storedAgain o h.1 h.2.1 h.2.2
          if x.home = 3 then
            let (z, ok) := (s.draw.hostFree (fun q => q == owner)).hostPut owner x.tenant new
            if ok then (z, St.ok) else (s, St.aborted)
          else
            let (z, ok) := s.draw.mediaReplace [] owner x.tenant new
            (z, if ok then St.ok else St.sealed)) (s, St.ok)

/-- A page is resident no longer, and its T1 bytes are free. -/
def State.dropBlock (s : State) (x : TBlock) : State :=
  ((s.setPresent x.tenant x.block false).updBlock x.tenant x.block (fun y => { y with present := false, dirty := false })).releaseT1 x.tenant x.bytes

/-- Evict one resident block: written back first when it is dirty, then dropped; a block that cannot be written back stays (12 R311 step 2). -/
def State.evictBlock (s : State) (x : TBlock) : State :=
  if !x.dirty then s.dropBlock x
  else
    let (z, st) := s.writeHome x
    if st = St.ok then (z.bump64 0x000D0008 1).dropBlock x else z

/-- Whether evicting a block would need a writeback that media refuse (13 R349, R350). -/
def State.writebackRefused (s : State) (x : TBlock) : Bool := x.dirty && x.home == 2 && s.mediaRefuses

/-- Whether a block belongs to a deck or an automaton that a live request uses: such an object is PINNED (12 R310). -/
def State.pinnedNow (s : State) (x : TBlock) : Bool :=
  (x.kind == 6 && has (fun (r : Request) => r.tenant == x.tenant
      && (s.models.find? (fun m => m.number == r.model && m.tenant == r.tenant)).map (fun m => mdlDeck m.image) == some x.number) s.serving.reqs)
    || (x.kind == 7 && has (fun (r : Request) => r.tenant == x.tenant && r.automaton == some x.number) s.serving.reqs)

/-- A tenant's least recently used resident TIERED block that is not among those to keep; one that cannot be written back now is not
evicted (12 R311 step 2, 13 R350, R352). -/
def State.victim (s : State) (t : Nat) (keep : List Nat) : Option TBlock :=
  (sortBy (fun (a b : TBlock) => decide (a.lastUse < b.lastUse))
    (s.tier.blocks.filter (fun x => x.tenant == t && x.present && !keep.contains x.block && !s.writebackRefused x
      && !(x.dirty && s.flash.stopped) && !(x.dirty && s.poisoned (s.frameKey x.tenant x.block) 65536) && !s.pinnedNow x))).head?

/-- Evict until `n` more bytes fit; false when the tenant has no block left to evict: what was evicted stays out (12 R311). -/
def State.makeRoom (t n : Nat) (keep : List Nat) : Nat → State → State × Bool
  | 0, s => (s, (s.tenant t).t1.fits n)
  | k + 1, s =>
    if (s.tenant t).t1.fits n then (s, true)
    else
      match s.victim t keep with
      | none => (s, false)
      | some x => State.makeRoom t n keep k (s.evictBlock x)

/-- A fetch found no room: it is counted, and the waiting work ends with the status given, MEDIA_SEALED where an eviction
was refused, otherwise QUOTA_EXCEEDED (12 R311, 13 R349, R350). -/
def State.noRoom (s : State) (t : Nat) : State × Nat :=
  let refused := has (fun x => x.tenant == t && x.present && s.writebackRefused x) s.tier.blocks
  let s := s.bump 0x000D0030
  if refused then (s.bump 0x000E0058, St.sealed) else (s, St.quota)

/-- Evict resident TIERED blocks until T1 use is within the limit or none is left (12 R319). -/
def State.evictDown (t : Nat) : Nat → State → State
  | 0, s => s
  | k + 1, s =>
    if (s.tenant t).t1.fits 0 then s
    else
      match s.victim t [] with
      | none => s
      | some x => State.evictDown t k (s.evictBlock x)

/-- Evictions that a lowered limit asks for run when no fetch of the classes before them waits (12 R312, R319). -/
def State.settleEvictions (s : State) : State :=
  if !s.tier.queue.isEmpty || !s.passagesDue.isEmpty || has (fun u => u.unit == 6 && u.op == 1 && !u.begun) s.issues then s
  else
    s.tier.evicting.foldl (fun s t => State.evictDown t (s.tier.blocks.length + 1) s) (s.updTier (fun z => { z with evicting := [] }))

/-! ### Fetching (12 R311 steps 3 and 4) -/

/-- A page takes its bytes from its home: its tags are written, PRESENT is set, and its waiters go on. -/
def State.fillPage (s : State) (t b : Nat) : State :=
  (((s.wrPage (s.frameKey t b) [(0, s.pageSource t b)]).setPresent t b true).wakePage t b).bump64 0x000D0000 1

/-- A TIERED block takes its place in T1, charged; one whose stored block in host memory fails its checks leaves a poisoned page; answers whether
it is sound (12 R311, R314, R318). -/
def State.bringIn (s : State) (x : TBlock) (bad : Bool) : State × Bool :=
  let z := ((s.chargeT1 x.tenant x.bytes).fillPage x.tenant x.block).updBlock x.tenant x.block (fun y => { y with present := true, dirty := false })
  if bad then ((z.bump 0x000D0028).poisonPage (z.frameKey x.tenant x.block), false) else (z, true)

/-- The LOST pages behind a page, which a read meets (13 R329, R337). -/
def State.pageLost (s : State) (t b : Nat) : Bool := s.mediaLost ((s.pageHolds t b).behind b)

/-- Their reads count. -/
def State.countPageLost (s : State) (t b : Nat) : State := s.countLost ((s.pageHolds t b).behind b)

/-- Whether a page's frame cannot take its content now: its die is lost, or its channels are being re-homed (12 R321, 15 R401). -/
def State.frameStalls (s : State) (t b : Nat) : Bool :=
  let w := (s.ptEntry t 0 (65536 * b)).toNat
  s.dieLost (bits w 10 9) || (List.range 512).any (fun i => s.underHoming (entryKey w + 128 * i))

end Sys2Proof.Machine
end

