-- ==== Sys2Proof/Machine/Grammar.lean ====
section
/-!
DEFINITION. Automata, vocabulary masks and the mask cache (09 R219 to R237).
-/
namespace Sys2Proof.Machine

/-! ### Automaton images (09 R220 to R223) -/

/-- Header fields of an automaton image (09 R220). -/
def autKind (b : List Byte) : Nat := fieldOf b 6 1
def autStates (b : List Byte) : Nat := fieldOf b 8 4
def autEdges (b : List Byte) : Nat := fieldOf b 0xC 4
def autDeck (b : List Byte) : Nat := fieldOf b 0x10 4
def autSymbols (b : List Byte) : Nat := fieldOf b 0x14 2
def autStackMax (b : List Byte) : Nat := fieldOf b 0x16 2
def autEnds (b : List Byte) : List Nat := (List.range (fieldOf b 7 1)).map (fun i => fieldOf b (0x28 + 4 * i) 4)

/-- FIRST and ACCEPT of a state entry (09 R221). -/
def autFirst (b : List Byte) (q : Nat) : Nat := bits (fieldOf b (fieldOf b 0x18 8 + 4 * q) 4) 21 0
def autAccept (b : List Byte) (q : Nat) : Bool := bitAt (fieldOf b (fieldOf b 0x18 8 + 4 * q) 4) 22

/-- An edge (09 R221). -/
structure Edge where
  lo : Nat
  hi : Nat
  op : Nat
  target : Nat
  sym : Nat
  top : Nat
  deriving DecidableEq, Repr

/-- Edge `i` of an image. -/
def autEdge (b : List Byte) (i : Nat) : Edge :=
  let w := fieldOf b (fieldOf b 0x20 8 + 8 * i) 8
  { lo := bits w 7 0, hi := bits w 15 8, op := bits w 17 16, target := bits w 39 18, sym := bits w 55 40, top := bits w 63 56 }

/-- The edges of a state, in table order. -/
def autOut (b : List Byte) (q : Nat) : List Edge :=
  (List.range (autFirst b (q + 1) - autFirst b q)).map (fun i => autEdge b (autFirst b q + i))

/-- The header and table checks of 09 R223. -/
def autShapeOk (b : List Byte) : Bool :=
  let pda := autKind b = 1
  decide (128 ≤ b.length) && decide (b.length ≤ 2 ^ 24) && fieldOf b 0 4 == 0x4D524741 && fieldOf b 4 2 == 1
    && decide (autKind b ≤ 1) && decide (fieldOf b 7 1 ≤ 8) && decide (1 ≤ autStates b) && decide (autStates b ≤ 4194304)
    && decide (autEdges b ≤ 2097152)
    && (if pda then decide (1 ≤ autSymbols b) && decide (1 ≤ autStackMax b) && decide (autStackMax b ≤ 256)
        else autSymbols b == 0 && autStackMax b == 0)
    && fieldOf b 0x18 8 % 64 == 0 && fieldOf b 0x20 8 % 64 == 0 && zeroRange b 0x48 56
    && decide (fieldOf b 0x18 8 + 4 * (autStates b + 1) ≤ b.length) && decide (fieldOf b 0x20 8 + 8 * autEdges b ≤ b.length)
    && zeroRange b (0x28 + 4 * fieldOf b 7 1) (4 * (8 - fieldOf b 7 1))

/-- The state and edge checks of 09 R223. -/
def autTablesOk (b : List Byte) : Bool :=
  let n := autStates b
  (List.range (n + 1)).all (fun q => bits (fieldOf b (fieldOf b 0x18 8 + 4 * q) 4) 31 23 == 0)
    && autFirst b n == autEdges b && !autAccept b n
    && (List.range n).all (fun q =>
      decide (autFirst b q ≤ autFirst b (q + 1)) && decide (autFirst b (q + 1) - autFirst b q ≤ 4096)
        && (autAccept b q || decide (autFirst b q < autFirst b (q + 1))))
    && (List.range (autEdges b)).all (fun i =>
      let e := autEdge b i
      decide (e.lo ≤ e.hi) && decide (e.target < n) && decide (e.op < 3) && e.top == 0
        && (if e.op = 0 then e.sym == 0 else autKind b == 1 && decide (e.sym < autSymbols b)))

/-- Every check MODEL_LOAD makes of an automaton, given its deck (09 R223). -/
def autOk (b : List Byte) (deck : Option Deck) : Bool :=
  match deck with
  | none => false
  | some d => autShapeOk b && autTablesOk b
      && (autEnds b).all (fun t => decide (t < deckVocab d.image) && tokenSpecial d.image t)

/-! ### One byte (09 R222) -/

/-- What one byte did: the new state and stack, or rejection; and whether a POP edge that takes the byte was met with the
stack shorter than `floor` (09 R222, R229). -/
structure Moved where
  goal : Option (Nat × List Nat)
  below : Bool
  deriving DecidableEq, Repr

/-- Try edges in table order. -/
def tryEdges (stackMax floor : Nat) (st : List Nat) (b : Nat) : List Edge → Moved
  | [] => { goal := none, below := false }
  | e :: es =>
    if e.lo ≤ b ∧ b ≤ e.hi then
      match e.op with
      | 0 => { goal := some (e.target, st), below := false }
      | 1 => { goal := if st.length = stackMax then none else some (e.target, st ++ [e.sym]), below := false }
      | _ =>
        let under := decide (st.length < floor)
        if st.getLast? = some e.sym then { goal := some (e.target, st.dropLast), below := under }
        else
          let r := tryEdges stackMax floor st b es
          { r with below := r.below || under }
    else tryEdges stackMax floor st b es

/-- One byte of an automaton. -/
def autStep (a : List Byte) (floor : Nat) (q : Nat) (st : List Nat) (b : Nat) : Moved :=
  tryEdges (autStackMax a) floor st b (autOut a q)

/-- Whether a state is final (09 R222). -/
def autFinal (a : List Byte) (g : GState) : Bool := autAccept a g.state && g.stack.isEmpty

/-! ### The walk (09 R225, R229) -/

/-- What a walk found: the allowed tokens, the labels tested, whether it read below the top, and the automaton states and deck nodes it
met, in order. -/
structure Found where
  tokens : List Nat
  tests : Nat
  below : Bool
  states : List Nat
  nodes : List Nat
  deriving DecidableEq, Repr

/-- Walk the deck from a node in lockstep with the automaton; `fuel` bounds the deck's depth (08 R198). -/
def walkMask (a d : List Byte) (floor : Nat) : Nat → Nat → Nat → List Nat → Found
  | 0, _, _, _ => { tokens := [], tests := 0, below := false, states := [], nodes := [] }
  | fuel + 1, node, q, st =>
    let n := deckNode d node
    (List.range n.nchild).foldl (fun (acc : Found) i =>
      let c := n.first + i
      let k := deckNode d c
      let m := autStep a floor q st (if n.dense then n.lo + i else k.label)
      let acc := { acc with tests := acc.tests + 1, below := acc.below || m.below, states := acc.states ++ [q], nodes := acc.nodes ++ [c] }
      match m.goal with
      | none => acc
      | some (q', st') =>
        let r := walkMask a d floor fuel c q' st'
        { tokens := acc.tokens ++ k.token.toList ++ r.tokens, tests := acc.tests + r.tests, below := acc.below || r.below,
          states := acc.states ++ r.states, nodes := acc.nodes ++ r.nodes })
      { tokens := [], tests := 0, below := false, states := [], nodes := [] }

/-- Tokens an automaton allows in a state, end tokens included in a final one (09 R225). -/
def allowed (a d : List Byte) (g : GState) : Found :=
  let r := walkMask a d g.stack.length 129 0 g.state g.stack
  { r with tokens := if autFinal a g then r.tokens ++ autEnds a else r.tokens }

/-- Depth of a deck's deepest node (09 R229). -/
def deckDepth (d : List Byte) : Nat := ((deckPaths d).map (fun p => p.length)).foldl max 0

/-! ### The mask cache (09 R229, R230) -/

/-- Mask lines of the cache: 15 MiB of 64 bytes. -/
def maskLines : Nat := 245760

/-- The top symbol of a key. -/
def GState.top (g : GState) : Nat := g.stack.getLast?.getD 0xFFFF

/-- Drop least recently used masks until `n` more lines fit. -/
def evictMasks (n : Nat) : List MaskEntry → List MaskEntry
  | [] => []
  | e :: es => if sumNat ((e :: es).map (fun x => x.lines)) + n ≤ maskLines then e :: es else evictMasks n es

/-- Image lines the buffer holds: 1 MiB of 64 bytes (09 R229). -/
def imageBufLines : Nat := 16384

/-- The image lines of states: their entries in the state table and their edges; which of a state's edges a step fetches beyond the one it
takes is not stated, and all are counted (DESIGN CHOICE, notes/assumptions/46.md). -/
def imageLines (a : List Byte) (states : List Nat) : List Nat :=
  let lines (o n : Nat) : List Nat := if n = 0 then [] else (List.range ((o + n - 1) / 64 - o / 64 + 1)).map (fun j => o / 64 + j)
  squeeze ((squeeze states).flatMap (fun q =>
    lines (fieldOf a 0x18 8 + 4 * q) 8 ++ lines (fieldOf a 0x20 8 + 8 * autFirst a q) (8 * (autFirst a (q + 1) - autFirst a q))))

/-- Whether a walker finds a line in the buffer with sound parity. -/
def State.imageHit (s : State) (a : Automaton) (line : Nat) : Bool :=
  s.imageBuf.contains (a.number, line) && !s.imageBad.contains (a.number, line)

/-- A walker reads a line of an image: a line whose parity fails is read again from T1 and counted; the least recently used line gives way,
which the manual does not say of this buffer (09 R229, R230; DESIGN CHOICE, notes/assumptions/46.md). -/
def State.readImageLine (s : State) (a : Automaton) (line : Nat) : State :=
  let x := (a.number, line)
  let s := if s.imageBuf.contains x && s.imageBad.contains x then s.bump 0x000A0034 else s
  let kept := s.imageBuf.filter (fun y => y ≠ x)
  { s with imageBuf := kept.drop (kept.length + 1 - imageBufLines) ++ [x], imageBad := s.imageBad.filter (fun y => y ≠ x) }

/-- A walker reads lines of an image, in order. -/
def State.readImage (s : State) (a : Automaton) (lines : List Nat) : State := lines.foldl (fun s l => s.readImageLine a l) s

/-- Whether a line read from the buffer fails its parity. -/
def State.imageParity (s : State) (a : Automaton) (lines : List Nat) : Bool :=
  lines.any (fun l => s.imageBuf.contains (a.number, l) && s.imageBad.contains (a.number, l))

/-- What stands against reading lines of an image and of its deck: a line that must come from T1 and lies in a channel under re-homing
stalls the walker, one that no copy restores is a fault (09 R230, R234, R235, 12 R308). -/
def State.walkCheck (s : State) (w : Waiter) (a : Automaton) (d : Deck) (image deck : List Nat) : UCheck :=
  let missed := image.filter (fun l => !s.imageHit a l)
  let key (l : Nat) : Nat := s.lineKey a.tenant a.va l
  let own : UCheck :=
    if missed.isEmpty then .ok
    else if s.objectWaits a.tenant a.va.toNat a.image.length then (s.fetchFate w a.tenant a.va.toNat a.image.length).elim .wait .failed
    else if missed.any (fun l => s.underHoming (key l)) then .wait
    else if missed.any (fun l => s.poisoned (key l) 64) then .poison else .ok
  worstCheck [own, s.deckCheck w d deck]

/-- Whether a record's masks may be stored and looked up: no push can meet the limit (09 R229). -/
def maskFits (a : Automaton) (d : Deck) (g : GState) : Bool :=
  autKind a.image = 0 || g.stack.length + deckDepth d.image ≤ autStackMax a.image

/-- The stored mask of a state, if a lookup meets one (09 R229). -/
def State.storedMask (s : State) (a : Automaton) (d : Deck) (g : GState) : Option MaskEntry :=
  if maskFits a d g then s.maskCache.find? (fun e => e.automaton == a.number && e.state == g.state && e.top == g.top) else none

/-- What stands against computing the mask of a state. -/
def State.maskCheck (s : State) (w : Waiter) (a : Automaton) (d : Deck) (g : GState) : UCheck :=
  match s.storedMask a d g with
  | some e => if e.parityBad then s.walkCheck w a d (imageLines a.image (allowed a.image d.image g).states) (nodeLines d.image (allowed a.image d.image g).nodes)
      else .ok
  | none => s.walkCheck w a d (imageLines a.image (allowed a.image d.image g).states) (nodeLines d.image (allowed a.image d.image g).nodes)

/-- Walk afresh: the lines are read, the labels tested counted, and the mask stored where R229 allows it. -/
def State.walkAfresh (s : State) (a : Automaton) (d : Deck) (g : GState) : State × List Nat :=
  let r := allowed a.image d.image g
  let s := ((s.bump64 0x000A0008 r.tests).readImage a (imageLines a.image r.states)).readDeck d (nodeLines d.image r.nodes)
  if maskFits a d g && !r.below then
    let lines := ceilDiv (deckVocab d.image) 512
    let others := s.maskCache.filter (fun e => !(e.automaton == a.number && e.state == g.state && e.top == g.top))
    ({ s with maskCache := evictMasks lines others ++
        [{ automaton := a.number, state := g.state, top := g.top, allowed := r.tokens, lines := lines, parityBad := false }] }, r.tokens)
  else (s.bump 0x000A0028, r.tokens)

/-- Compute a mask, or take it from the cache; answers the allowed tokens and whether parity made the unit walk or read afresh (09 R225
to R230). -/
def State.mask (s : State) (a : Automaton) (d : Deck) (g : GState) : State × List Nat × Bool :=
  let found := s.storedMask a d g
  let maskBad := (found.map (fun e => e.parityBad)).getD false
  let (s, ts, bad) : State × List Nat × Bool :=
    match (if maskBad then none else found) with
    | some e => (State.bump64 { s with maskCache := s.maskCache.filter (fun x => x ≠ e) ++ [e] } 0x000A0010 1, e.allowed, false)
    | none =>
      let bad := maskBad || s.imageParity a (imageLines a.image (allowed a.image d.image g).states)
      let (s, ts) := (if maskBad then s.bump 0x000A0034 else s).walkAfresh a d g
      (s, ts, bad)
  let s := s.bump64 0x000A0000 1
  (if ts.isEmpty then s.bump 0x000A0020 else s, ts, bad)

/-- The 131,072 bytes of a mask (09 R225). -/
def maskBytes (vocab : Nat) (ts : List Nat) : List Byte :=
  (List.range 131072).map (fun i => BitVec.ofNat 8 ((List.range 8).foldl (fun acc j =>
    acc + (if 8 * i + j < vocab && ts.contains (8 * i + j) then 2 ^ j else 0)) 0))

/-! ### Advancing (09 R227, R233) -/

/-- Move through bytes: the state and stack reached and the shared chunks a push or pop changed (09 R222, R233). -/
def autBytes (a : List Byte) (shared : Nat) : List Byte → Nat → List Nat → List Nat → Option (Nat × List Nat) × List Nat
  | [], q, st, copied => (some (q, st), copied)
  | b :: bs, q, st, copied =>
    match (autStep a 0 q st b.toNat).goal with
    | none => (none, copied)
    | some (q', st') =>
      let chunk := min st.length st'.length / 32
      let copied := if st'.length ≠ st.length && chunk < shared && !copied.contains chunk then copied ++ [chunk] else copied
      autBytes a shared bs q' st' copied

/-- States that moving through bytes reads (09 R222). -/
def autTrace (a : List Byte) : List Byte → Nat → List Nat → List Nat
  | [], _, _ => []
  | b :: bs, q, st =>
    q :: (match (autStep a 0 q st b.toNat).goal with
      | none => []
      | some (q', st') => autTrace a bs q' st')

/-- The image lines and deck lines that advancing by a token reads. -/
def advanceLines (a d : List Byte) (g : GState) (t : Nat) : List Nat × List Nat :=
  if g.ended || t ≥ deckVocab d || (autEnds a).contains t || tokenSpecial d t then ([], [])
  else (imageLines a (autTrace a (tokenBytes d t) g.state g.stack), tokenLines d [t])

/-- Advance a state by a token: the new state, if it is taken, and the chunks copied, where the first `shared` chunks of the stack are shared (09
R227, R233). -/
def advance (a d : List Byte) (shared : Nat) (g : GState) (t : Nat) : Option GState × Nat :=
  if g.ended || t ≥ deckVocab d then (none, 0)
  else if (autEnds a).contains t then (if autFinal a g then some { g with ended := true } else none, 0)
  else if tokenSpecial d t then (none, 0)
  else
    let (r, copied) := autBytes a shared (tokenBytes d t) g.state g.stack []
    (r.map (fun x => { state := x.1, stack := x.2, ended := false }), copied.length)

/-! ### State records and unit issues (09 R224 to R228, R234) -/

/-- The automaton mapped at an address that a unit issue may use (09 R234, R235). -/
def State.autAt (s : State) (u : UnitIssue) (va : Nat) : Option Automaton :=
  s.automata.find? (fun a => a.tenant == u.tenant && a.va.toNat == va
    && (match a.evicting with | none => true | some e => e.issues.contains u.key))

/-- The automaton state of a record (09 R224). -/
def recState (r : List Byte) : GState :=
  { state := bits (fieldOf r 4 4) 21 0, ended := bitAt (fieldOf r 4 4) 31
    stack := (List.range (fieldOf r 8 2)).map (fun i => fieldOf r (0x40 + 2 * i) 2) }

/-- Whether a record is fresh or a sound record of the automaton (09 R224, R234). -/
def recOk (a : Automaton) (r : List Byte) : Bool :=
  r.all (fun b => b == 0)
    || (fieldOf r 0 4 == 256 + a.number && decide (bits (fieldOf r 4 4) 21 0 < autStates a.image)
      && bits (fieldOf r 4 4) 30 22 == 0 && decide (fieldOf r 8 2 ≤ autStackMax a.image) && zeroRange r 0xA 6
      && zeroRange r 0x20 32 && (recState r).stack.all (fun y => decide (y < autSymbols a.image)))

/-- The header of a record: binding, state, depth and totals (09 R224, R227). -/
def recHeader (a : Automaton) (g : GState) (bytes tokens : Nat) : List Byte :=
  leBytes 4 (256 + a.number) ++ leBytes 4 (g.state + 2 ^ 31 * boolNat g.ended) ++ leBytes 2 g.stack.length ++ leBytes 6 0
    ++ leBytes 8 bytes ++ leBytes 8 tokens ++ leBytes 32 0

/-- A whole record written back: symbols above DEPTH stay as they were. -/
def recBytes (a : Automaton) (g : GState) (bytes tokens : Nat) : List Byte :=
  recHeader a g bytes tokens ++ g.stack.flatMap (leBytes 2)

/-- The checks every GRAMMAR issue shares, and its automaton, deck and record: whatever is BAD_PARAM without the record comes first, then
what the record shows, and last a page or line that cannot be had (09 R234). -/
def State.grammarIssue (s : State) (k : IssueKey) (u : UnitIssue) (fieldsOk : Deck → Bool) (ranges : List UCheck)
    (f : State → Automaton → Deck → List Byte → State) : State :=
  let b := u.body
  match s.autAt u (fieldOf b 0 8) with
  | none => s.finishIssue k St.badParam 0
  | some a =>
    match s.decks.find? (fun d => d.number == autDeck a.image && d.tenant == a.tenant) with
    | none => s.finishIssue k St.badParam 0
    | some d =>
      let record := worstCheck [s.unitCheck u .load (fieldOf b 8 8) 576 64, s.unitCheck u .store (fieldOf b 8 8) 576 64]
      if !fieldsOk d || !bodyTailZero u 0x28 || fieldOf b 0x1C 4 ≠ 0 || worstCheck (record :: ranges) = .bad then
        s.finishIssue k St.badParam 0
      else
        s.onCheck k record (fun s =>
          let r := s.rdTva u.tenant u.stock (fieldOf b 8 8) 576
          if !recOk a r then s.finishIssue k St.badParam 0 else f s a d r)

/-- MASK, when a walker has taken it: the mask of a record's state (09 R225, R226, R229 to R231, R234). -/
def execGrammarMask (k : IssueKey) (s : State) : Res :=
  .next (match s.laneIssue k 5 1 with
    | none => s
    | some u =>
      let b := u.body
      let target := s.unitCheck u .store (fieldOf b 0x10 8) 131072 1
      s.grammarIssue k u (fun _ => fieldOf b 0x18 4 == 0 && fieldOf b 0x20 8 == 0) [target]
        (fun s a d r =>
          let g := recState r
          if g.ended then s.finishIssue k St.badParam 0
          else
            s.onCheck k (if target = .rejected then .ok else target) (fun s =>
              s.onCheck k (s.maskCheck (.issue k) a d g) (fun s =>
                let (s, ts, bad) := s.mask a d g
                let s := if bad then s.recoveredIssue k else s
                let s := s.wrTva u.tenant u.stock (fieldOf b 8 8) (recHeader a g (fieldOf r 0x10 8) (fieldOf r 0x18 8))
                let s := if target = .rejected then s.bump 0x00110014
                  else s.wrTva u.tenant u.stock (fieldOf b 0x10 8) (maskBytes (deckVocab d.image) ts)
                s.finishIssue k (if ts.isEmpty then St.deadEnd else if target = .rejected then St.aborted else St.ok) 0))))

/-- ADVANCE, when a walker has taken it: a record moves through a token's bytes, all or nothing (09 R227, R231, R234). -/
def execGrammarAdvance (k : IssueKey) (s : State) : Res :=
  .next (match s.laneIssue k 5 2 with
    | none => s
    | some u =>
      let b := u.body
      let t := fieldOf b 0x18 4
      s.grammarIssue k u (fun d => fieldOf b 0x10 8 == 0 && fieldOf b 0x20 8 == 0 && decide (t < deckVocab d.image)) []
        (fun s a d r =>
          let g := recState r
          let lines := advanceLines a.image d.image g t
          s.onCheck k (s.walkCheck (.issue k) a d lines.1 lines.2) (fun s =>
            let s := if s.imageParity a lines.1 then s.recoveredIssue k else s
            let s := (s.readImage a lines.1).readDeck d lines.2
            match (advance a.image d.image 0 g t).1 with
            | none => (s.bump 0x000A0024).finishIssue k St.badParam 0
            | some g' =>
              let n := if g'.ended then 0 else (tokenBytes d.image t).length
              let s := s.bump64 0x000A0018 1
              let s := s.wrTva u.tenant u.stock (fieldOf b 8 8)
                (recBytes a g' (fieldOf r 0x10 8 + n) (fieldOf r 0x18 8 + (if g'.ended then 0 else 1)))
              s.finishIssue k St.ok n)))

/-- FORK, when a walker has taken it: a record is copied, symbols above DEPTH of the copy staying (09 R228, R231, R234). -/
def execGrammarFork (k : IssueKey) (s : State) : Res :=
  .next (match s.laneIssue k 5 3 with
    | none => s
    | some u =>
      let b := u.body
      let src := fieldOf b 8 8
      let dst := fieldOf b 0x20 8
      let target := s.unitCheck u .store dst 576 64
      s.grammarIssue k u (fun _ => fieldOf b 0x10 8 == 0 && fieldOf b 0x18 4 == 0 && decide (src + 576 ≤ dst ∨ dst + 576 ≤ src)) [target]
        (fun s a _ r =>
          s.onCheck k target (fun s =>
            let g := recState r
            let bytes := recBytes a g (fieldOf r 0x10 8) (fieldOf r 0x18 8)
            let s := (s.wrTva u.tenant u.stock src bytes).wrTva u.tenant u.stock dst bytes
            s.finishIssue k St.ok 0)))

end Sys2Proof.Machine
end

