-- ==== Sys2Proof/Machine/Kv.lean ====
section
/-!
DEFINITION. KV pages and speculation trees as they lie in T1: frames, entries, the working run of a step, the tree's bytes and the
verification rows (10 R243 to R251). The choices are notes/assumptions/24.md.
-/
namespace Sys2Proof.Machine

/-! ### Frames and entries (10 R243, R245) -/

/-- Bytes of one position in a frame: its keys and values for every pair of both models. -/
def kvEntryBytes (b : List Byte) : Nat := frameBytes b / 64

/-- The entry of a slot. -/
def KvFrame.entry? (f : KvFrame) (slot : Nat) : Option (List Byte) := (f.entries.find? (fun x => x.1 == slot)).map (fun x => x.2)

/-- Set the entry of a slot. -/
def KvFrame.put (f : KvFrame) (slot : Nat) (e : List Byte) : KvFrame :=
  { f with entries := insertBy (fun p q => decide (p.1 < q.1)) (slot, e) (f.entries.filter (fun x => x.1 ≠ slot)) }

/-- Where the entry of a slot lies in the K and V blocks of one model, whose blocks begin at `base` in the frame and whose part of the entry begins
at `at'`: K is token-major, V dimension-major (10 R243). -/
def blockParts (b : List Byte) (base at' slot : Nat) (e : List Byte) : List (Nat × List Byte) :=
  let w := 1 + fieldOf b 0x13 1
  let d := fieldOf b 0x14 2
  (List.range (fieldOf b 0x10 2 * fieldOf b 0x12 1)).flatMap (fun p =>
    let x := e.drop (at' + p * (2 * d * w))
    let o := base + p * (128 * d * w)
    (o + slot * d * w, x.take (d * w))
      :: (List.range d).map (fun i => (o + 64 * d * w + (64 * i + slot) * w, (x.drop ((d + i) * w)).take w)))

/-- Where an entry lies in a frame of a model with its draft. -/
def entryParts (image : List Byte) (slot : Nat) (e : List Byte) : List (Nat × List Byte) :=
  blockParts image 0 0 slot e ++ (if mdlDraft image = [] then [] else blockParts (mdlDraft image) (kvBlockBytes image) (kvBlockBytes image / 64) slot e)

/-- Byte `o` of the K and V blocks of one model, whose part of every entry begins at `at'`: K is token-major, V dimension-major (10
R243). -/
def KvFrame.blockByte (f : KvFrame) (b : List Byte) (at' o : Nat) : Option Byte :=
  let w := 1 + fieldOf b 0x13 1
  let d := fieldOf b 0x14 2
  let pair := o / (128 * d * w)
  let r := o % (128 * d * w)
  let (slot, i) := if r < 64 * d * w then (r / (d * w), r % (d * w))
    else ((r - 64 * d * w) % (64 * w) / w, d * w + (r - 64 * d * w) / (64 * w) * w + r % w)
  (f.entry? slot).bind (fun e => e[at' + pair * (2 * d * w) + i]?)

/-- Byte `o` of a frame of a model with its draft; none where no entry has been written. -/
def KvFrame.byte (f : KvFrame) (image : List Byte) (o : Nat) : Option Byte :=
  if o < kvBlockBytes image then f.blockByte image 0 o
  else f.blockByte (mdlDraft image) (kvBlockBytes image / 64) (o - kvBlockBytes image)

/-- A frame by its number. -/
def State.frame? (s : State) (f : Nat) : Option KvFrame := s.serving.frames.find? (fun x => x.frame == f)

/-- Change a frame. -/
def State.updFrame (s : State) (f : Nat) (g : KvFrame → KvFrame) : State :=
  s.updServing (fun z => { z with frames := updWhere (fun x => x.frame == f) g z.frames })

/-- Write the entry of a slot of a frame, there and in T1 (10 R243). -/
def State.putKv (s : State) (image : List Byte) (f slot : Nat) (e : List Byte) : State :=
  match s.frame? f with
  | none => s
  | some x =>
    (entryParts image slot e).foldl (fun s p =>
      let va := x.va + p.1
      s.wr (s.frameKey x.tenant (va / 65536) + va % 65536) p.2) (s.updFrame f (fun x => x.put slot e))

/-- The image of a model a tenant's frames are for. -/
def State.frameImage (s : State) (t m : Nat) : List Byte := ((s.models.find? (fun x => x.number == m && x.tenant == t)).map (fun x => x.image)).getD []

/-- A new frame with one holder: its pages are homed on a die while that has room, and mapped for stock kernels (04 R115, 10 R243, R244). -/
def State.newFrame (s : State) (t m die : Nat) (tokens : List Nat) (entries : List (Nat × List Byte)) : State :=
  let image := s.frameImage t m
  let n := ceilDiv (frameBytes image) 65536
  let va := s.areaFree t n
  let f := s.serving.nextFrame
  let s := (List.range n).foldl (fun s i => s.addPage t (va + 65536 * i) true [die, 1 - die, 3, 2] (some [])) s
  let s := s.updServing (fun z => { z with
    nextFrame := z.nextFrame + 1
    frames := z.frames ++ [{ frame := f, tenant := t, model := m, refs := 1, tokens := tokens, die := die, va := va, pages := n, entries := [] }] })
  entries.foldl (fun s e => s.putKv image f e.1 e.2) s

/-- A holder of a frame ends; a frame without holders is freed (10 R245). -/
def State.dropFrame (s : State) (f : Nat) : State :=
  let s := match s.frame? f with
    | some x => if x.refs ≤ 1 then s.freePages x.tenant x.va x.pages else s
    | none => s
  s.updServing (fun z => { z with
    frames := (updWhere (fun x => x.frame == f) (fun x => { x with refs := x.refs - 1 }) z.frames).filter (fun x => x.refs ≠ 0) })

/-- Shared frames of a prompt's pages, from page 0 to the first that does not match (10 R245). -/
def State.sharedFrames (s : State) (t m : Nat) (prompt : List Nat) : List Nat → List Nat
  | [] => []
  | i :: is =>
    match s.serving.frames.find? (fun f => f.tenant == t && f.model == m && f.tokens == prompt.take (64 * (i + 1))) with
    | some f => f.frame :: s.sharedFrames t m prompt is
    | none => []

/-- The die that holds most of a hand's decode seats, M0 first (10 R244). -/
def State.decodeDie (s : State) (h : Nat) (image : List Byte) : Nat :=
  let gs := (replicasOf image 4 (s.hand h).seats).flatten
  if (gs.filter (fun g => g < 88)).length * 2 ≥ gs.length then 0 else 1

/-! ### Entries a model computes: their values are the kernel's (10 R243, R249, notes/assumptions/6.md) -/

/-- Write the entries of positions into a run of frames, page 0 first. -/
def State.computeKv (s : State) (image : List Byte) (run : List Nat) : List Nat → State
  | [] => s
  | p :: ps =>
    let e := freeBytes s.fresh (kvEntryBytes image)
    let s := match run[p / 64]? with
      | some f => s.draw.putKv image f (p % 64) e
      | none => s
    s.computeKv image run ps

/-- Copy the entry of one position of a run to another (10 R251). -/
def State.copyKv (s : State) (image : List Byte) (run : List Nat) (src dst : Nat) : State :=
  match ((run[src / 64]?).bind s.frame?).bind (fun f => f.entry? (src % 64)), run[dst / 64]? with
  | some e, some g => s.putKv image g (dst % 64) e
  | _, _ => s

/-- Recompute the entries of a frame from the token log (10 R246). -/
def State.recomputeKv (s : State) (image : List Byte) (f : Nat) : State :=
  match s.frame? f with
  | none => s
  | some x => s.computeKv image (List.replicate 1 f) (x.entries.map (fun e => e.1))

/-- Whether a page of a request's KV frames lies on a die with a channel under re-homing: a page spans the channels of its die (10 R268; DESIGN
CHOICE, notes/assumptions/24.md). -/
def State.kvHoming (s : State) (r : Request) : Bool :=
  r.pages.any (fun f => match s.frame? f with
    | some x => (List.range x.pages).any (fun i =>
        !(s.tier.dies.getD (bits (s.ptEntry x.tenant 0 (x.va + 65536 * i)).toNat 10 9) { lost := [], homing := [], beyond := 0 }).homing.isEmpty)
    | none => false)

/-- Whether a page of a request's KV frames is not in T1: it is being rebuilt on another die (15 R401). -/
def State.kvAbsent (s : State) (r : Request) : Bool :=
  r.pages.any (fun f => match s.frame? f with
    | some x => (List.range x.pages).any (fun i => s.absentAt x.tenant (x.va / 65536 + i))
    | none => false)

/-! ### The speculation tree and its verification (10 R247, R249) -/

/-- A node's 8-byte entry. -/
def TreeNode.bytes (n : TreeNode) : List Byte :=
  leBytes 8 (n.token % 2 ^ 20 + 2 ^ 20 * (n.parent % 128) + 2 ^ 27 * (n.depth % 32) + 2 ^ 32 * boolNat n.pruned)

/-- A tree in serving scratch: NODES, DEPTH, BASE, TAG and the nodes (10 R247). -/
def treeBytes (base : Nat) (tag : Addr) (tree : List TreeNode) : List Byte :=
  leBytes 2 tree.length ++ leBytes 1 ((tree.map (fun n => n.depth)).foldl max 0) ++ leBytes 1 0 ++ leBytes 4 base ++ leBytes 8 tag.toNat
    ++ tree.flatMap TreeNode.bytes

/-- Node `i` and its ancestors, as bits; `fuel` bounds the path. -/
def ancestors (tree : List TreeNode) : Nat → Nat → BitVec 128
  | 0, i => BitVec.ofNat 128 (2 ^ i)
  | fuel + 1, i =>
    if i = 0 then 1
    else match tree[i]? with
      | some n => BitVec.ofNat 128 (2 ^ i) ||| ancestors tree fuel n.parent
      | none => 0

/-- The rows of a pass over the remaining nodes: position id L + DEPTH, and attention to ancestors and itself beside positions 0 to L - 1
(10 R249). -/
def verifyRows (base : Nat) (tree : List TreeNode) : List VerifyRow :=
  ((tree.zip (List.range tree.length)).filter (fun x => !x.1.pruned)).map (fun x =>
    { node := x.2, position := base + x.1.depth, mask := ancestors tree tree.length x.2 })

/-- The tree of a step is laid out. -/
def Request.setTree (r : Request) (tree : List TreeNode) : Request :=
  { r with tree := tree, treeImage := treeBytes r.committed r.tag tree, rows := verifyRows r.committed tree }

/-- No step is in flight: tree, rows and logits are gone. -/
def Request.clearTree (r : Request) : Request := { r with tree := [], treeImage := [], rows := [], verified := [] }

/-- The root: the last token emitted, or the last prompt token (10 R247). -/
def Request.root (r : Request) : TreeNode :=
  { token := (r.output.getLast?).getD (r.prompt.getLast?.getD 0), parent := 0, depth := 0, pruned := false, gstate := r.gstate }

end Sys2Proof.Machine
end

