-- ==== Sys2Proof/Machine/Serving.lean ====
section
/-!
DEFINITION. The serving unit: generation requests, KV pages, batches, speculation, sampling, the ledger and the output
rings (10 R238 to R273, 02 R51 to R53, 09 R232, R233).
-/
namespace Sys2Proof.Machine

/-! ### Requests and the ledger (10 R239, R254 to R257) -/

/-- A live request by its number. -/
def State.req? (s : State) (id : Nat) : Option Request := s.serving.reqs.find? (fun r => r.id == id)

/-- Change a request. -/
def State.updReq (s : State) (id : Nat) (f : Request → Request) : State :=
  s.updServing (fun z => { z with reqs := updWhere (fun r => r.id == id) f z.reqs })

/-- A customer account of a tenant; every balance begins at 0 (10 R254). -/
def State.account (s : State) (t a : Nat) : Account :=
  ((s.tenant t).ledger.find? (fun x => x.id == a)).getD { id := a, balance := 0, charged := 0 }

/-- Whether a step of a request is in flight. -/
def State.inStep (s : State) (id : Nat) : Bool := s.serving.batches.any (fun b => b.running && b.reqs.contains id)

/-- Change a customer account; the requests of an account that is then at zero are held, and their rows leave the batches they wait in, so that
their wait counts anew (10 R257, 02 R53). -/
def State.updAccount (s : State) (t a : Nat) (f : Account → Account) : State :=
  let x := f (s.account t a)
  let s := s.updTenant t (fun y => { y with ledger := insertBy (fun p q => decide (p.id < q.id)) x (y.ledger.filter (fun z => z.id ≠ a)) })
  if x.balance ≤ 0 then
    let mine (r : Request) : Bool := r.tenant == t && r.account == a
    let out := (s.serving.reqs.filter (fun r => mine r && !s.inStep r.id)).map (fun r => r.id)
    s.updServing (fun z => { z with
      reqs := updWhere mine (fun r => { r with broke := true, readySince := none, waited := 0 }) z.reqs
      batches := (z.batches.map (fun b => { b with reqs := b.reqs.filter (fun id => !out.contains id) })).filter (fun b => !b.reqs.isEmpty) })
  else s

/-- Charge an account, in 1/256 token (10 R255). -/
def State.chargeAccount (s : State) (t a units : Nat) : State :=
  s.updAccount t a (fun x => { x with balance := x.balance - units, charged := x.charged + units })

/-- Whether an account is at zero (10 R257). -/
def State.atZero (s : State) (t a : Nat) : Bool := decide ((s.account t a).balance ≤ 0)

/-- The model and the deck of a request. -/
def State.reqModel (s : State) (r : Request) : Option Model := s.models.find? (fun m => m.number == r.model && m.tenant == r.tenant)
def State.reqDeck (s : State) (r : Request) : Option Deck :=
  (s.reqModel r).bind (fun m => s.decks.find? (fun d => d.number == mdlDeck m.image && d.tenant == r.tenant))

/-! ### The generation block (10 R238, R258, 18 R487) -/

/-- Parameters of a generation block. -/
structure GenParams where
  tag : Addr
  model : Nat
  hand : Nat
  account : Nat
  maxTokens : Nat
  temperature : Word
  topP : Word
  topK : Nat
  treeMax : Nat
  depthMax : Nat
  automaton : Option Nat
  stopStrings : List (List Byte)
  stopTokens : List Nat
  includeStop : Bool
  logprob : Bool
  seed : Addr
  ringBase : Addr
  ringEntries : Nat
  headAddr : Addr
  tailAddr : Addr
  deriving DecidableEq, Repr

/-- Bytes of the stop structure a block names (18 R487). -/
def genStopsBytes (b : List Byte) : Nat := 72 * fieldOf b 0x23 1 + 4 * fieldOf b 0x24 1

/-- The parameters of a block of 128 bytes followed by its stop structure. -/
def genParams (b : List Byte) : GenParams :=
  let ns := fieldOf b 0x23 1
  let fl := fieldOf b 0xF 1
  { tag := BitVec.ofNat 64 (fieldOf b 0 8), model := fieldOf b 8 4, hand := fieldOf b 0xC 1, account := fieldOf b 0x10 4
    maxTokens := fieldOf b 0x14 4, temperature := BitVec.ofNat 32 (fieldOf b 0x18 4), topP := BitVec.ofNat 32 (fieldOf b 0x1C 4)
    topK := fieldOf b 0x20 2, treeMax := fieldOf b 0xD 1, depthMax := fieldOf b 0xE 1
    automaton := if bitAt fl 2 then some (fieldOf b 0x22 1) else none
    stopStrings := (List.range ns).map (fun i => (b.drop (128 + 72 * i + 8)).take (fieldOf b (128 + 72 * i) 1))
    stopTokens := (List.range (fieldOf b 0x24 1)).map (fun i => fieldOf b (128 + 72 * ns + 4 * i) 4)
    includeStop := bitAt fl 0, logprob := bitAt fl 1, seed := BitVec.ofNat 64 (fieldOf b 0x28 8)
    ringBase := BitVec.ofNat 64 (fieldOf b 0x38 8), ringEntries := fieldOf b 0x40 4
    headAddr := BitVec.ofNat 64 (fieldOf b 0x48 8), tailAddr := BitVec.ofNat 64 (fieldOf b 0x50 8) }

/-- The ranges of 10 R238 and the reserved parts of 18 R487, over a block with its stop structure. -/
def genBlockOk (b : List Byte) : Bool :=
  let p := genParams b
  let temp := ofF32 p.temperature
  let topP := ofF32 p.topP
  zeroRange b 0x25 3 && zeroRange b 0x44 4 && zeroRange b 0x58 40 && decide (fieldOf b 0xF 1 < 8)
    && (p.automaton.isSome || fieldOf b 0x22 1 == 0) && decide (p.account ≤ 65535) && decide (1 ≤ p.maxTokens)
    && decide (p.maxTokens ≤ 131072)
    && (temp.isZero || (FVal.le (.num false 1 (-8)) temp && FVal.le temp (.num false 64 0)))
    && FVal.lt (.num false 0 0) topP && FVal.le topP (.num false 1 0) && decide (1 ≤ p.topK) && decide (p.topK ≤ 4096)
    && decide (1 ≤ p.treeMax) && decide (p.treeMax ≤ 128) && decide (1 ≤ p.depthMax) && decide (p.depthMax ≤ 16)
    && decide (fieldOf b 0x23 1 ≤ 8) && decide (fieldOf b 0x24 1 ≤ 16)
    && (List.range (fieldOf b 0x23 1)).all (fun i =>
      let n := fieldOf b (128 + 72 * i) 1
      decide (1 ≤ n) && decide (n ≤ 64) && zeroRange b (128 + 72 * i + 1) 7
        && (let v := validate true [] 0 ((b.drop (128 + 72 * i + 8)).take n)
            v.1.all (fun x => !x.bad)))

/-- Whether the ring of a block keeps 10 R258. -/
def State.ringOk (s : State) (t : Nat) (p : GenParams) : Bool :=
  let n := p.ringEntries
  let base := p.ringBase.toNat
  let outside (a : Addr) : Bool := decide (a.toNat < base) || decide (base + 64 * n ≤ a.toNat)
  (List.range 17).any (fun i => n == 2 ^ i) && decide (64 ≤ n) && (s.resolve t base (64 * n) 64).isSome
    && (s.resolve t p.headAddr.toNat 4 4).isSome && (s.resolve t p.tailAddr.toNat 4 4).isSome && outside p.headAddr && outside p.tailAddr

/-- Read a generation block with its stop structure, or the status that ends the command (18 R468, R487). -/
def State.genRead (s : State) (t a : Nat) : List Byte ⊕ Nat :=
  match s.resolve t a 128 64 with
  | none => .inr St.badParam
  | some k =>
    let b := s.rd k 128
    let n := if fieldOf b 0x23 1 ≤ 8 ∧ fieldOf b 0x24 1 ≤ 16 then genStopsBytes b else 0
    if s.poisoned k 128 then .inr St.aborted
    else if n = 0 then .inl b
    else
      match s.resolve t (fieldOf b 0x30 8) n 1 with
      | none => .inr St.badParam
      | some q => if s.poisoned q n then .inr St.aborted else .inl (b ++ s.rd q n)

/-- Whether a TOP_K needs the meld unit where there is none: the seats select at most 1,024 (00 R4, 06 R179, 15 R403). -/
def State.tooWide (s : State) (topK : Nat) : Bool := decide (topK > 1024) && (s.variant = .v9706 || s.flt.sLost || s.unitOut 6)

/-- The BAD_PARAM checks of a block that need the module's state, the model's deck where it is loaded (10 R239, R241). -/
def State.genBad (s : State) (t h : Nat) (b : List Byte) : Bool :=
  let p := genParams b
  let model := (s.modelFor t h p.model).filter (fun m => m.kind == 1)
  let aut (n : Nat) : Option Automaton :=
    s.automata.find? (fun a => a.number == n && a.tenant == t && (match a.evicting with | none => true | some e => decide (h < e.cmd)))
  !genBlockOk b || (s.handFor t h p.hand).isNone || has (fun r => r.tenant == t && r.tag == p.tag) s.serving.reqs || !s.ringOk t p
    || (match p.automaton with
      | none => false
      | some n =>
        match aut n with
        | none => true
        | some a => (match model with | some m => autDeck a.image != mdlDeck m.image | none => false))

/-! ### The tail page (10 R245, R249) -/

/-- Before a step writes at the committed length: a shared tail page is copied (10 R245, R249). -/
def State.ownTail (s : State) (r : Request) : State :=
  let p := r.committed / 64
  match r.pages[p]? with
  | none => s
  | some f =>
    match s.frame? f with
    | none => s
    | some x =>
      if x.refs > 1 then
        let n := s.serving.nextFrame
        (((s.dropFrame f).newFrame r.tenant r.model x.die x.tokens x.entries).updReq r.id (fun r => { r with pages := r.pages.set p n })).bump
          0x000B0040
      else s

/-- A last prompt page that holds a position past the prompt is no longer a candidate for sharing (10 R245). -/
def State.closeTail (s : State) (r : Request) : State :=
  if r.committed ≤ r.prompt.length || r.prompt.length % 64 = 0 then s
  else
    match r.pages[r.prompt.length / 64]? with
    | some f => s.updFrame f (fun y => { y with tokens := [] })
    | none => s

/-! ### Batches (02 R51 to R53, 10 R242) -/

/-- Rows a request's step takes: its node cap, or 1 without a draft model (02 R51). -/
def State.reqRows (s : State) (r : Request) : Nat :=
  match s.reqModel r with
  | some m => if mdlDraftOff m.image = 0 then 1 else max 1 r.nodeCap
  | none => 1

/-- Whether a request's prefill is complete. -/
def Request.decoding (r : Request) : Bool := decide (r.prompt.length ≤ r.prefilled + r.shared)

/-- Which of the batches of a request's step runs. -/
def State.stepPart (s : State) (id : Nat) : Nat :=
  ((s.serving.batches.find? (fun b => b.running && b.reqs.contains id)).map (fun b => b.part)).getD 0

/-- Whether a request's decode row would be ready but for its account (02 R51). -/
def State.rowDue (s : State) (r : Request) : Bool :=
  r.decoding && r.ended.isNone && r.queue.isEmpty && !r.isParked && !r.cancel && !s.inStep r.id

/-- Whether a request's decode row is ready (02 R51, 10 R257). -/
def State.rowReady (s : State) (r : Request) : Bool := s.rowDue r && !r.broke

/-- A request leaves its batches. -/
def State.unbatch (s : State) (id : Nat) : State :=
  s.updServing (fun z => { z with
    batches := (z.batches.map (fun b => { b with reqs := b.reqs.filter (fun x => x ≠ id) })).filter (fun b => !b.reqs.isEmpty) })

/-- Rows that became ready are stamped, and rows that are not ready wait for nothing (02 R52, R53, 10 R242). -/
def State.stampRows (s : State) (h : Nat) : State :=
  (s.serving.reqs.filter (fun r => r.hand == h)).foldl (fun s r =>
    if s.rowReady r then
      if r.readySince.isSome then s
      else ((s.updReq r.id (fun r => { r with readySince := some s.serving.readyCount, waited := 0 })).updServing (fun z =>
        { z with readyCount := z.readyCount + 1 })).noteReady h r.model 4
    else s.updReq r.id (fun r => { r with readySince := none, waited := 0 })) s

/-- The next request of a list by account round-robin after the last one served, the earliest of its account (10 R242). -/
def nextByAccount (last : Option Nat) (l : List Request) : Option Request :=
  let best (xs : List Request) : Option Request := (sortBy (fun a b => decide (a.account < b.account)) xs).head?
  match last with
  | none => best l
  | some a =>
    match best (l.filter (fun r => decide (a < r.account))) with
    | some r => some r
    | none => best l

/-- Rows of a batch; of two consecutive batches the first takes 64 (02 R51). -/
def State.batchRows (s : State) (b : GBatch) : Nat :=
  let n := sumNat ((s.serving.reqs.filter (fun r => b.reqs.contains r.id)).map (fun r => s.reqRows r))
  match b.part with
  | 0 => n
  | 1 => 64
  | _ => n - 64

/-- Place one request in the open batch with the fewest rows, when all its rows fit; a request with a node cap above 64 takes two
consecutive batches of its own (02 R51). -/
def State.placeRow (s : State) (r : Request) : State :=
  match s.reqModel r with
  | none => s
  | some m =>
    let mine (i : Nat) (run : Bool) (b : GBatch) : Bool := b.hand == r.hand && b.model == r.model && b.replica == i && b.running == run
    let reps := (List.range (replicasOf m.image 4 (s.hand r.hand).seats).length).filter (fun i => !has (mine i true) s.serving.batches)
    let rows (i : Nat) : Nat := match s.serving.batches.find? (mine i false) with | some b => s.batchRows b | none => 0
    match (sortBy (fun a b => decide (rows a < rows b) || (rows a == rows b && decide (a < b))) reps).head? with
    | none => s
    | some i =>
      let n := s.reqRows r
      let new (part : Nat) : GBatch := { hand := r.hand, model := r.model, replica := i, reqs := [r.id], part := part, running := false }
      if rows i ≠ 0 && rows i + n > 64 then s
      else
        let s :=
          if n > 64 then s.updServing (fun z => { z with batches := z.batches ++ [new 1, new 2] })
          else if (s.serving.batches.find? (mine i false)).isSome then
            s.updServing (fun z => { z with batches := updWhere (mine i false) (fun b => { b with reqs := b.reqs ++ [r.id] }) z.batches })
          else s.updServing (fun z => { z with batches := z.batches ++ [new 0] })
        s.updHand r.hand (fun x => { x with lastRow := some r.account })

/-- Place ready rows in turn; `fuel` bounds them. -/
def State.placeRows (s : State) : Nat → List Request → Option Nat → State
  | 0, _, _ => s
  | n + 1, l, last =>
    match nextByAccount last l with
    | none => s
    | some r =>
      let s := s.placeRow r
      s.placeRows n (l.filter (fun x => x.id ≠ r.id)) (s.hand r.hand).lastRow

/-- Whether a request's model drafts for it. -/
def State.drafts (s : State) (r : Request) : Bool :=
  r.nodeCap > 1 && (match s.reqModel r with | some m => mdlDraftOff m.image ≠ 0 | none => false)

/-- Launch the waiting batches of a hand that a test picks, when the hand runs their model's decode phase; a row without a draft has a
tree of its root (02 R52, 10 R247). The second of two consecutive batches follows the first. -/
def State.launch (s : State) (h : Nat) (due : GBatch → Bool) : State :=
  let go (b : GBatch) : Bool := b.hand == h && !b.running && b.part != 2 && due b && s.handTakes h b.model 4
  let ids := (s.serving.batches.filter go).flatMap (fun b => b.reqs)
  let models := (s.serving.batches.filter go).map (fun b => b.model)
  let start (r : Request) : Request := if s.drafts r then r.clearTree else ({ r with verified := [] } : Request).setTree [r.root]
  let s := s.updServing (fun z => { z with
    batches := updWhere go (fun b => { b with running := true }) z.batches
    reqs := updWhere (fun r => ids.contains r.id) (fun r => { start r with waited := 0, readySince := none }) z.reqs })
  models.foldl (fun s m => s.useHand h m 4) s

/-- The batch former of a hand: rows no longer ready leave, ready rows join, the earliest first, full batches launch (02 R51 to R53, 10
R242). -/
def State.formBatches (s : State) (h : Nat) : State :=
  let s := s.stampRows h
  let keep (b : GBatch) (id : Nat) : Bool :=
    match s.req? id with | some r => s.rowReady r || (b.part == 2 && s.inStep id) | none => false
  let s := s.updServing (fun z => { z with
    batches := (z.batches.map (fun b => if b.hand = h && !b.running then { b with reqs := b.reqs.filter (keep b) } else b)).filter
      (fun b => !b.reqs.isEmpty) })
  let waiting := s.serving.reqs.filter (fun r => r.hand == h && s.rowReady r && !s.serving.batches.any (fun b => b.reqs.contains r.id))
  let waiting := sortBy (fun a b => decide (a.readySince.getD 0 < b.readySince.getD 0)) waiting
  let s := s.placeRows waiting.length waiting (s.hand h).lastRow
  s.launch h (fun b => decide (64 ≤ s.batchRows b))

/-- The waiting batches of a hand are dissolved, to form again under its new seats (10 R268). -/
def State.dissolve (s : State) (h : Nat) : State :=
  s.updServing (fun z => { z with batches := z.batches.filter (fun b => b.hand ≠ h || b.running || (b.part == 2 && s.inStep (b.reqs.headD 0))) })

/-- A trick boundary passes the rows that are ready (02 R52). -/
def State.countWaits (s : State) (h : Nat) : State :=
  s.updServing (fun z => { z with
    reqs := updWhere (fun r => r.hand == h && r.readySince.isSome && s.rowReady r) (fun r => { r with waited := r.waited + 1 }) z.reqs })

/-- At a trick boundary: rows of accounts at zero are passed over, the others are held no longer, batches whose oldest row waited long
enough launch, and the rows that go on waiting have one boundary more behind them (02 R52, 10 R257). -/
def State.boundaryBatches (s : State) (h : Nat) : State :=
  let held := s.serving.reqs.filter (fun r => r.hand == h && s.rowDue r && s.atZero r.tenant r.account)
  let s := s.updServing (fun z => { z with
    reqs := updWhere (fun r => r.hand == h && !s.atZero r.tenant r.account) (fun r => { r with broke := false }) z.reqs })
  let s := (s.bumpBy 0x000B006C held.length).formBatches h
  let wait (b : GBatch) : Nat := (s.serving.reqs.filter (fun r => b.reqs.contains r.id)).foldl (fun n r => max n r.waited) 0
  (s.launch h (fun b => decide ((s.hand h).batchWait ≤ wait b))).countWaits h

/-! ### Records and the ring (10 R258 to R263) -/

/-- A 64-byte record (10 R259). -/
def ringRecord (r : Request) (seq token : Nat) (lp : Option Word) (text : List Byte) (cont mended : Bool) : List Byte :=
  leBytes 8 r.tag.toNat ++ leBytes 4 seq ++ leBytes 4 (token % 2 ^ 20) ++ leBytes 4 (lp.getD 0).toNat ++ leBytes 1 text.length
    ++ leBytes 1 (2 * boolNat cont + 4 * boolNat lp.isSome + 8 * boolNat mended + 16 * boolNat (bitAt seq (Nat.log2 r.ringEntries)))
    ++ leBytes 2 0 ++ text ++ List.replicate (40 - text.length) 0

/-- The records of one token join the queue (10 R259). -/
def Request.addRecords (r : Request) (token : Nat) (lp : Option Word) (text : List Byte) (cont mended : Bool) : Request :=
  let cs := if text.isEmpty then [[]] else chunks 40 (text.length + 1) text
  let seq := r.tail + r.queue.length
  { r with
    queue := r.queue ++ ((cs.zip (List.range cs.length)).map (fun c =>
      ringRecord r (seq + c.2) token (if c.2 = 0 then lp else none) c.1 (cont || c.2 ≠ 0) mended))
    bytesOut := r.bytesOut + text.length }

/-- The final record joins the queue: the request ends (10 R260). -/
def Request.close (r : Request) (reason status which offset : Nat) : Request :=
  let st := if status = St.ok then r.prior else status
  let seq := r.tail + r.queue.length
  { r with
    ended := some reason
    status := st
    queue := r.queue ++ [leBytes 8 r.tag.toNat ++ leBytes 4 seq ++ leBytes 4 (2 ^ 31) ++ leBytes 4 0 ++ leBytes 1 0
      ++ leBytes 1 (1 + 16 * boolNat (bitAt seq (Nat.log2 r.ringEntries))) ++ leBytes 2 0 ++ leBytes 1 reason ++ leBytes 1 st
      ++ leBytes 2 0 ++ leBytes 4 which ++ leBytes 8 offset ++ leBytes 4 r.decodeCharged ++ leBytes 4 r.prefilled
      ++ leBytes 4 r.shared ++ leBytes 4 r.draftAccepted ++ leBytes 8 r.bytesOut] }

/-- WHICH where no stop string or token is named. -/
def noWhich : Nat := 0xFFFFFFFF

/-- Flush a detokenizer carry with FINAL: the bytes it held come out as they are (08 R209, R212, 10 R266). -/
def State.flushHeld (s : State) (d : Option Deck) (held : List Byte) : State × List Byte :=
  match d with
  | none => (s, held)
  | some d =>
    let (o, _, ill, _) := detokenizeIds d.image true held []
    (s.countDetok d [] ill 0, o)

/-- A request is no longer live: what its detokenizer still held is flushed and dropped, frames and reservation go, batches form again, its
command completes; after an error the output of its query is undefined (01 R26, 10 R240, R244, R245, R266, 18 R487). -/
def State.finishRequest (s : State) (id status : Nat) : State :=
  match s.req? id with
  | none => s
  | some r =>
    let s := (s.flushHeld (s.reqDeck r) r.held).1
    let s := r.pages.foldl State.dropFrame s
    let s := if status = St.ok || status = St.part then s else (s.pipes.filter (fun p => p.cmd == r.cmd)).foldl State.spoilOut s
    let s := ((s.releaseT1 r.tenant r.reserved).dropPipe r.cmd).unbatch id
    let s := s.updServing (fun z => { z with reqs := z.reqs.filter (fun x => x.id ≠ id) })
    let s := if r.recovered then s.recovered r.cmd else s
    let s := s.complete r.cmd status r.decodeCharged (if r.tail = 0 then noWhich else (r.tail - 1) % 2 ^ 32) 0
    s.formBatches r.hand

/-- A request of a tenant that is reset or lost goes without a record (10 R268). -/
def State.dropRequest (s : State) (id : Nat) : State :=
  (s.updReq id (fun r => { r with queue := [], isParked := false, held := [] })).finishRequest id St.ok

/-- A request whose ring the host refuses, or whose fault cannot be repaired without its ring (17 R448, 18 R480). -/
def State.abortRing (s : State) (id : Nat) : State :=
  ((s.bump 0x00110014).updReq id (fun r => { r with queue := [], isParked := false })).finishRequest id St.aborted

/-- Read the head (10 R261): a value outside the ring is ignored; none when the host refuses. -/
def State.readHead (s : State) (id : Nat) : Option State :=
  match s.req? id with
  | none => some s
  | some r =>
    match s.resolve r.tenant r.headAddr.toNat 4 4 with
    | none => none
    | some k =>
      let h := s.rdNat k 4
      if (r.tail + 2 ^ 32 - h) % 2 ^ 32 ≤ r.ringEntries then
        some (s.updReq id (fun r => { r with head := r.tail - (r.tail + 2 ^ 32 - h) % 2 ^ 32 }))
      else some (s.bump 0x000B0060)

/-- Write queued records while the ring has room (10 R261); none when the host refuses. -/
def State.writeRecords (s : State) (id : Nat) : Nat → Option State
  | 0 => some s
  | n + 1 =>
    match s.req? id with
    | none => some s
    | some r =>
      match r.queue with
      | [] => some s
      | b :: bs =>
        if r.tail - r.head ≥ r.ringEntries then some s
        else
          match s.resolve r.tenant (r.ringBase.toNat + 64 * (r.tail % r.ringEntries)) 64 64 with
          | none => none
          | some k => ((s.wr k b).updReq id (fun r => { r with queue := bs, tail := r.tail + 1 })).writeRecords id n

/-- Write what fits, then the new tail; a request whose queue is not empty parks, and an ended one with an empty queue is
finished (10 R261, R262). -/
def State.writeRing (s : State) (id : Nat) : State :=
  match s.req? id, s.readHead id with
  | some r, some s1 =>
    match s1.writeRecords id r.queue.length with
    | none => s1.abortRing id
    | some s2 =>
      match s2.req? id, s2.resolve r.tenant r.tailAddr.toNat 4 4 with
      | some r2, some k =>
        let s3 := if r2.tail = r.tail then s2 else s2.wrNat k 4 r2.tail
        if !r2.queue.isEmpty then
          if r2.isParked then s3 else (s3.updReq id (fun r => { r with isParked := true, parked := 0 })).bump 0x000B0054
        else
          let s4 := s3.updReq id (fun r => { r with isParked := false })
          if r2.ended.isSome then s4.finishRequest id r2.status else s4
      | _, _ => s2.abortRing id
  | some _, none => s.abortRing id
  | none, _ => s

/-- End a request that has not ended: held bytes are released, then the final record (10 R266, R267). -/
def State.endRequest (s : State) (id reason status : Nat) : State :=
  match s.req? id, (s.req? id).bind (fun r => s.reqDeck r) with
  | some r, some d =>
    if r.ended.isSome then s
    else
      let (s, o) := s.flushHeld (some d) r.held
      let bytes := r.stopHeld ++ o
      let s := s.updReq id (fun r =>
        let r := if bytes.isEmpty then r else r.addRecords (r.output.getLast?.getD 0) none bytes true false
        ({ r with held := [], stopHeld := [] } : Request).close reason status noWhich r.bytesOut)
      (s.unbatch id).writeRing id
  | _, _ => s

/-- A step is over: the row leaves its batch (02 R51). -/
def State.leaveStep (s : State) (id : Nat) : State :=
  (s.unbatch id).updReq id (fun r => { r.clearTree with stepRecovered := false })

/-- A live request ends with a reason, its step in flight abandoned; where its ring is full it waits to write its final record (10 R263,
R267, 14 R368). -/
def State.stopRequestAs (s : State) (reason status id : Nat) : State := (s.leaveStep id).endRequest id reason status

/-- Go on with a request's step or chunk when what it reads is at hand; otherwise it waits, or the request ends (01 R22, 10 R241, R268, 12
R308, R311). -/
def State.onServe (s : State) (id : Nat) (c : UCheck) (f : State → State) : State :=
  match c with
  | .ok => f s
  | .wait => s
  | .failed st => s.stopRequestAs 8 st id
  | _ => s.stopRequestAs 8 St.aborted id

/-- What stands against a pass of a request's model: its pages, its KV pages under re-homing or being rebuilt (01 R22, 10 R268, 15 R401). -/
def State.passCheck (s : State) (r : Request) (m : Model) : UCheck :=
  worstCheck [s.objectCheck (.cmd r.cmd) r.tenant m.va.toNat m.bytes.length, if s.kvHoming r || s.kvAbsent r then .wait else .ok]

/-! ### GEN_START (10 R239 to R241, R244, R245) -/

/-- A request passes its checks: shared pages, reservation, automaton record; or the status that ends it, in the order of 10 R241 (10 R240). Its
deck and its automaton are PINNED from then on: what of them is not in T1 is fetched (12 R310).
`prior` is the status of the pipeline stages before it; with `fault` the request cannot run, or its prompt of so many tokens cannot be
read, and it ends once admitted. -/
def State.genAdmit (s : State) (h t : Nat) (block : List Byte) (prompt : List Nat) (prior : Nat) (fault : Bool) : State :=
  let p := genParams block
  match (s.modelFor t h p.model).filter (fun m => m.kind == 1) with
  | none => s.fail h St.notResident
  | some m =>
    match s.decks.find? (fun d => d.number == mdlDeck m.image && d.tenant == t) with
    | none => s.fail h St.notResident
    | some d =>
      let n := prompt.length
      if prompt.any (fun i => i ≥ deckVocab d.image) || n + 1 > mdlContext m.image then s.fail h St.badParam
      else if s.tooWide p.topK then s.fail h St.unitAbsent
      else if s.serving.reqs.length ≥ 16384 then s.fail h St.retry
      else
        let shared := if fault then [] else s.sharedFrames t p.model prompt (List.range (ceilDiv n 64))
        let bytes := (ceilDiv (n + p.maxTokens) 64 - shared.length + 2) * frameBytes m.image + 4 * (n + p.maxTokens)
        if !(s.tenant t).t1.fits bytes then s.fail h St.quota
        else
          match s.resolve t p.tailAddr.toNat 4 4 with
          | none => (s.bump 0x00110014).fail h St.aborted
          | some k =>
            let die := s.decodeDie p.hand m.image
            let first := s.serving.nextFrame
            let fresh := ceilDiv n 64 - shared.length
            let taken := min (64 * shared.length) n
            let s := (s.chargeT1 t bytes).wrNat k 4 0
            let s := s.updServing (fun z => { z with
              frames := updWhere (fun f => shared.contains f.frame) (fun f => { f with refs := f.refs + 1 }) z.frames })
            let page (i : Nat) : List Nat := if fault then [] else prompt.take (64 * (shared.length + i + 1))
            let s := (List.range fresh).foldl (fun s i => s.newFrame t p.model die (page i) []) s
            let id := s.serving.nextReq
            let r : Request :=
              { id := id, cmd := h, tenant := t, tag := p.tag, model := p.model, hand := p.hand, account := p.account
                maxTokens := p.maxTokens, temperature := p.temperature, topK := p.topK, topP := p.topP, seed := p.seed
                treeMax := p.treeMax, depthMax := p.depthMax, automaton := p.automaton, stopStrings := p.stopStrings
                stopTokens := p.stopTokens, includeStop := p.includeStop, logprob := p.logprob, ringBase := p.ringBase
                ringEntries := p.ringEntries, headAddr := p.headAddr, tailAddr := p.tailAddr, prompt := prompt, output := []
                prefilled := 0, shared := taken, committed := n - 1, pages := shared ++ (List.range fresh).map (fun i => first + i)
                reserved := bytes, tree := [], treeImage := [], rows := [], verified := [], nodeCap := p.treeMax, depthCap := p.depthMax
                rejectRun := 0, acceptRun := 0, specOffSteps := 0
                gstate := p.automaton.map (fun _ => { state := 0, stack := [], ended := false }), held := []
                stopHeld := [], bytesOut := 0, decodeCharged := 0, draftAccepted := 0, tail := 0, head := 0, queue := []
                parked := 0, isParked := false, readySince := none, waited := 0, broke := s.atZero t p.account, cancel := false, prior := prior
                ended := none, status := St.ok, recovered := false, stepRecovered := false }
            let s := s.updServing (fun z => { z with reqs := z.reqs ++ [r], nextReq := id + 1 })
            let s := ((s.bump64 0x000B0010 1).bump64 0x000B0038 taken).updCmd h (fun c => { c with stage := 100 })
            if fault then s.endRequest id 8 St.aborted
            else
              let aut := p.automaton.bind (fun n => s.automata.find? (fun a => a.number == n && a.tenant == t))
              let s := s.queueObject t d.va.toNat d.image.length
              let s := match aut with | some a => s.queueObject t a.va.toNat a.image.length | none => s
              (if r.decoding then s else s.noteReady p.hand p.model 3).formBatches p.hand

/-- GEN_START: checks, shared pages, the reservation, and the request is live; a poisoned prompt, or the want of any seat, ends it after its
final record (10 R240, R241). -/
def execGenStart (cmd : Nat) (s : State) : Res :=
  .next (match s.cmdAt cmd 0x0601 0 with
    | none => s
    | some c =>
      let t := c.tenant
      let n := c.field 0x20 4
      match s.genRead t (c.field 0x10 8) with
      | .inr st => s.fail cmd st
      | .inl b =>
        if s.genBad t cmd b || n < 1 || n > 131072 then s.fail cmd St.badParam
        else
          match s.resolve t (c.field 0x18 8) (4 * n) 4 with
          | none => s.fail cmd St.badParam
          | some k =>
            let raw := s.rd k (4 * n)
            if s.poisoned k (4 * n) then s.genAdmit cmd t b (List.replicate n 0) St.ok true
            else s.genAdmit cmd t b ((List.range n).map (fun i => fieldOf raw (4 * i) 4)) St.ok s.noSeats)

/-! ### Prefill (10 R240, R242, R255, R257) -/

/-- Requests of a hand that wait for prefill and may start a chunk. -/
def State.waitPrefill (s : State) (h : Nat) : List Request :=
  s.serving.reqs.filter (fun r => r.hand == h && !r.decoding && r.ended.isNone && !r.cancel && !s.atZero r.tenant r.account)

/-- A prefill chunk of the request whose turn it is starts, is charged once, and computes its tokens with their keys and values; those of the
last prompt token are the first step's (10 R242, R247, R255). -/
def execPrefillChunk (req : Nat) (s : State) : Res :=
  .next (match s.req? req, (s.req? req).bind (fun r => s.reqModel r) with
    | some r, some m =>
      match nextByAccount (s.hand r.hand).lastPre (s.waitPrefill r.hand) with
      | none => s
      | some x =>
        if x.id ≠ req || !s.handTakes r.hand r.model 3 || s.noSeats then s
        else
          s.onServe req (s.passCheck r m) (fun s =>
            let first := r.shared + r.prefilled
            let n := min 1024 (r.prompt.length - r.shared - r.prefilled)
            let s := (s.useHand r.hand r.model 3).chargeAccount r.tenant r.account (n * (s.tenant r.tenant).weight)
            let s := s.computeKv m.image r.pages (((List.range n).map (fun i => first + i)).filter (fun p => p + 1 < r.prompt.length))
            let s := s.updReq req (fun r => { r with prefilled := r.prefilled + n })
            let s := (s.updHand r.hand (fun x => { x with lastPre := some r.account })).bump64 0x000B0030 n
            s.formBatches r.hand)
    | _, _ => s)

/-! ### Speculation (10 R247, R248, 09 R233) -/

/-- Advance through a token: the image and deck lines are read, tokens advanced counted, and the chunk copies of a stack that another node
shares (09 R230, R233). -/
def State.specAdvance (s : State) (a : Automaton) (d : Deck) (shared : Nat) (g : GState) (t : Nat) : State × Option GState :=
  let (r, copies) := advance a.image d.image shared g t
  let lines := advanceLines a.image d.image g t
  let s := ((s.readImage a lines.1).readDeck d lines.2).bumpBy 0x000A0030 copies
  (if r.isSome then s.bump64 0x000A0018 1 else s, r)

/-- Give draft nodes their automaton states in index order, each sharing its parent's chunks; rejected nodes are pruned with their subtrees
(10 R248, 09 R233). -/
def State.pruneTree (s : State) (a : Automaton) (d : Deck) : List TreeNode → List TreeNode → State × List TreeNode
  | done, [] => (s, done)
  | done, n :: ns =>
    match (done[n.parent]?).map (fun p => (p.pruned, p.gstate)) with
    | some (false, some g) =>
      let (s, r) := s.specAdvance a d (ceilDiv g.stack.length 32) g n.token
      match r with
      | some g' => s.pruneTree a d (done ++ [{ n with gstate := some g' }]) ns
      | none => (s.bump 0x000A002C).pruneTree a d (done ++ [{ n with pruned := true }]) ns
    | _ => (s.bump 0x000A002C).pruneTree a d (done ++ [{ n with pruned := true }]) ns

/-- First chunks of its parent's stack that a node still shares: those below the lowest one it copied (09 R233). -/
def keptChunks (a d : List Byte) (tree : List TreeNode) (i : Nat) : Nat :=
  match tree[i]?, ((tree[i]?).bind (fun n => tree[n.parent]?)).bind (fun p => p.gstate) with
  | some n, some g =>
    let whole := min (ceilDiv g.stack.length 32) (ceilDiv ((n.gstate.map (fun x => x.stack.length)).getD 0) 32)
    if (autEnds a).contains n.token then whole
    else (autBytes a (ceilDiv g.stack.length 32) (tokenBytes d n.token) g.state g.stack []).2.foldl min whole
  | _, _ => 0

/-- First chunks that two nodes of a tree share, by the nodes between them; `fuel` bounds those (09 R233). -/
def chunksShared (kept : Nat → Nat) (parent : Nat → Nat) : Nat → Nat → Nat → Nat
  | 0, _, _ => 0
  | f + 1, i, j =>
    if i = j then 2 ^ 16
    else if i < j then min (kept j) (chunksShared kept parent f i (parent j))
    else min (kept i) (chunksShared kept parent f (parent i) j)

/-- First chunks of a node's stack that another remaining node shares (09 R233). -/
def sharedChunks (a d : List Byte) (tree : List TreeNode) (i : Nat) : Nat :=
  let live := (List.range tree.length).filter (fun j => j ≠ i && (match tree[j]? with | some n => !n.pruned | none => false))
  (live.map (fun j => chunksShared (keptChunks a d tree) (fun k => ((tree[k]?).map (fun n => n.parent)).getD 0) (2 * tree.length) i j)).foldl max 0

/-- The image lines and the deck lines that advancing draft nodes from their parents' states reads. -/
def treeLines (a d : List Byte) (tree : List TreeNode) : List Nat × List Nat :=
  let ls := (tree.drop 1).filterMap (fun n => ((tree[n.parent]?).bind (fun p => p.gstate)).map (fun g => advanceLines a d g n.token))
  (ls.flatMap (fun x => x.1), ls.flatMap (fun x => x.2))

/-- The checks of a draft tree, nodes numbered from 1 after the root (10 R248). -/
def treeOk (d : List Byte) (nodeCap depthCap : Nat) (nodes : List DraftNode) : Bool :=
  decide (nodes.length + 1 ≤ nodeCap)
    && (nodes.zip (List.range nodes.length)).all (fun x =>
      let (n, i) := x
      let pd := if n.parent = 0 then some 0 else (nodes[n.parent - 1]?).map (fun p => p.depth)
      decide (n.parent < i + 1) && pd.map (· + 1) == some n.depth && decide (n.depth ≤ depthCap)
        && decide (n.token < deckVocab d) && !tokenSpecial d n.token)

/-- The draft kernel's tree is checked, then pruned, and laid out in the request's scratch; a bad tree is cut to its root (10 R247 to R249, 09
R233). -/
def execDraftTree (req : Nat) (nodes : List DraftNode) (s : State) : Res :=
  .next (match s.req? req, (s.req? req).bind (fun r => s.reqModel r), (s.req? req).bind (fun r => s.reqDeck r) with
    | some r, some m, some d =>
      if !s.inStep req || !r.tree.isEmpty || !s.drafts r || !s.handTakes r.hand r.model 4 then s
      else
        let ok := treeOk d.image r.nodeCap r.depthCap nodes
        let s1 := if ok then s else s.bump 0x000B0048
        let drafts := if ok then nodes.map (fun n =>
          ({ token := n.token, parent := n.parent, depth := n.depth, pruned := false, gstate := none } : TreeNode)) else []
        let aut := r.automaton.bind (fun n => s.automata.find? (fun a => a.number == n))
        let (s2, tree) := match aut with
          | some a => s1.pruneTree a d [r.root] drafts
          | none => (s1, r.root :: drafts)
        let lines := match aut with | some a => treeLines a.image d.image tree | none => ([], [])
        let check := match aut with | some a => s.walkCheck (.cmd r.cmd) a d lines.1 lines.2 | none => .ok
        let mended := match aut with | some a => s.imageParity a lines.1 | none => false
        let live := (tree.filter (fun n => !n.pruned)).length - 1
        s.onServe req (worstCheck [s.passCheck r m, check]) (fun _ =>
          (s2.bump64 0x000B0020 live).updReq req (fun r => { r.setTree tree with stepRecovered := r.stepRecovered || mended }))
    | _, _, _ => s)

/-! ### Sampling (10 R253) -/

/-- What sampling at a node came to: a token with its log-probability, no allowed token, or no valid logit. -/
inductive Drawn
  | token (t : Nat) (lp : Word)
  | dead
  | nan
  deriving DecidableEq, Repr

/-- The first entry whose running sum exceeds a threshold, or the last (10 R253). -/
def pickRunning (limit : FVal) : FVal → List MEntry → Option Nat
  | _, [] => none
  | sum, e :: es =>
    let sum := (sum.add (ofF32 e.key)).r32
    if limit.lt sum || es.isEmpty then some e.index.toNat else pickRunning limit sum es

/-- A sum of terms in units of 2^-256, each made of the last one by a step. -/
def series (step : Nat → Nat → Nat) (first n : Nat) : Nat :=
  ((List.range n).foldl (fun x i => let t := step i x.2; (x.1 + t, t)) (first, first)).1

/-- e^y for y from 0 to 111 in units of 2^-256, of a y in those units: the series at y / 1,024, squared ten times. -/
def expFix (y : Nat) : Nat :=
  (List.range 10).foldl (fun v _ => v * v / 2 ^ 256) (series (fun i t => t * (y / 1024) / 2 ^ 256 / (i + 1)) (2 ^ 256) 48)

/-- Twice the inverse hyperbolic tangent of p / q, at most 1 / 3, in units of 2^-256. -/
def atanh2 (p q : Nat) : Nat :=
  let z := 2 ^ 256 * p / q
  2 * sumNat ((List.range 84).map (fun i => (List.range i).foldl (fun v _ => v * z / 2 ^ 256 * z / 2 ^ 256) z / (2 * i + 1)))

/-- One of the two binary32 values a number of 2^-256 lies between: the manual states no rounding of the functions of a softmax (10 R253,
notes/assumptions/6.md). -/
def nextTo (neg : Bool) (n pick : Nat) : FVal :=
  ofF32 (BitVec.ofNat 32 (Fmt.fp32.withSign neg (Fmt.fp32.roundMag (fun _ _ _ => false) n (-256) + pick % 2)))

/-- e^x in binary32 for x at or below 0: exactly 1 at 0 and 0 at minus infinity, else a value next to the exact one (10 R253). -/
def expNeg (x : FVal) : FVal :=
  match x with
  | .num _ m e =>
    if m = 0 then .num false 1 0
    else
      let y := if 0 ≤ e then m * 2 ^ (e + 256).toNat else m * 2 ^ 256 / 2 ^ (-e).toNat
      nextTo false (2 ^ 512 / expFix (min y (111 * 2 ^ 256))) (Config.exp32 (toF32 x))
  | .inf _ => .num false 0 0
  | .nan => .nan

/-- The exponentials of a softmax, each value less the largest. -/
def softmaxExps (l : List FVal) : List FVal :=
  let top := l.foldl (fun m x => if m.lt x then x else m) (.inf true)
  l.map (fun x => expNeg (if x.eqv top && x.isFin then .num false 0 0 else x.add top.neg))

/-- A softmax in binary32; the order of the sum is a free value (10 R253). -/
def softmax (draw base : Nat) (l : List FVal) : List FVal :=
  let es := softmaxExps l
  let sum := sumPicks draw base es.length es
  es.map (fun e => (e.div sum).r32)

/-- ln of a probability in binary32: 0 of 1 is exact, of a number between 0 and 1 a value next to the exact one; of 0 the manual states none (10
R253, notes/assumptions/6.md). -/
def lnOf (p : FVal) : Word :=
  match p with
  | .num false m e =>
    if m = 0 then Config.ln32 (toF32 p)
    else
      let k := (Nat.log2 m : Int) + e
      let one := 2 ^ Nat.log2 m
      let a : Int := -k * (atanh2 1 3 : Nat) - (atanh2 (m - one) (m + one) : Nat)
      if p.eqv (.num false 1 0) then 0 else toF32 (nextTo true a.toNat (Config.ln32 (toF32 p)).toNat)
  | _ => Config.ln32 (toF32 p)

/-- Sample a token from logits: greedy, or by TOP_K, softmax, TOP_P and the request's draw; ln p is over all unmasked tokens with a valid
logit. `draw`, `base`: free values; `n`: the output position (10 R253). -/
def sampleToken (r : Request) (mask : Option (List Nat)) (logits : List Word) (draw base n : Nat) : Drawn :=
  let ids := (List.range logits.length).filter (fun t => match mask with | some m => m.contains t | none => true)
  if mask.isSome && ids.isEmpty then .dead
  else
    let greedy := (ofF32 r.temperature).isZero
    let z (t : Nat) : Word := if greedy then logits.getD t 0 else toF32 ((ofF32 (logits.getD t 0)).div (ofF32 r.temperature))
    let es := ids.map (fun t => ({ key := z t, index := BitVec.ofNat 64 t, source := 0 } : MEntry))
    let all := (ids.map (fun t => (t, ofF32 (z t)))).filter (fun x => !x.2.isNan)
    let lp (t : Nat) : Word :=
      lnOf ((((all.zip (softmax draw (base + 2 ^ 15) (all.map (fun x => x.2)))).find? (fun x => x.1.1 == t)).map (fun x => x.2)).getD .nan)
    let cand := (selectBest 0 true false false (if greedy then 1 else r.topK) es).entries
    match cand with
    | [] => .nan
    | c :: _ =>
      if greedy then .token c.index.toNat (lp c.index.toNat)
      else
        let ps := (cand.zip (softmax draw (base + 1) (cand.map (fun x => ofF32 x.key)))).map (fun x =>
          ({ key := toF32 x.2, index := x.1.index, source := 0 } : MEntry))
        let (sel, mass) := toppTake (ofF32 r.topP) r.topK (.num false 0 0) (selectBest 0 true false true r.topK ps).entries
        let u := FVal.num false (Config.draw r.seed n % 2 ^ 53) (-53)
        let t := (pickRunning (u.mul mass) (.num false 0 0) sel).getD ((cand.getD (Config.free draw base % cand.length) c).index.toNat)
        .token t (lp t)

/-! ### Acceptance (10 R250 to R252) -/

/-- What the walk of a tree came to: the accepted nodes, the emitted tokens, and how it ended. -/
structure Walked where
  path : List Nat
  emitted : List (Nat × Word)
  dead : Bool
  nan : Bool
  deriving DecidableEq, Repr

/-- Walk from a node: sample, then follow the child that holds the token (10 R250). -/
def walkTree (tree : List TreeNode) (cap : Nat) (sample : Nat → Nat → Drawn) : Nat → Nat → Nat → Walked
  | 0, _, _ => { path := [], emitted := [], dead := false, nan := false }
  | fuel + 1, node, n =>
    match sample node n with
    | .dead => { path := [node], emitted := [], dead := true, nan := false }
    | .nan => { path := [node], emitted := [], dead := false, nan := true }
    | .token t lp =>
      let kid := (List.range tree.length).find? (fun i => i != 0 && (match tree[i]? with
        | some k => k.parent == node && k.token == t && !k.pruned && decide (k.depth ≤ cap)
        | none => false))
      match kid with
      | none => { path := [node], emitted := [(t, lp)], dead := false, nan := false }
      | some c =>
        let w := walkTree tree cap sample fuel c (n + 1)
        { w with path := node :: w.path, emitted := (t, lp) :: w.emitted }

/-- Masks of the remaining nodes; nodes of one state and stack share one walk (09 R233). -/
def State.treeMasks (s : State) (a : Automaton) (d : Deck) : List TreeNode → List (GState × List Nat) → Bool → State × List (GState × List Nat) × Bool
  | [], memo, bad => (s, memo, bad)
  | n :: ns, memo, bad =>
    match n.gstate with
    | none => s.treeMasks a d ns memo bad
    | some g =>
      if n.pruned || has (fun x => x.1 == g) memo then s.treeMasks a d ns memo bad
      else
        let (s, ts, b) := s.mask a d g
        s.treeMasks a d ns ((g, ts) :: memo) (bad || b)

/-- The caps after a step of `nodes` nodes that accepted `acc` draft nodes (10 R252); answers whether they were halved and
whether speculation went off. -/
def Request.throttle (r : Request) (run retry nodes acc : Nat) : Request × Bool × Bool :=
  if r.nodeCap ≤ 1 && r.treeMax > 1 then
    let n := r.specOffSteps + 1
    if retry ≠ 0 && n ≥ retry then
      ({ r with nodeCap := 2, depthCap := 1, specOffSteps := 0, rejectRun := 0, acceptRun := 0 }, false, false)
    else ({ r with specOffSteps := n }, false, false)
  else if nodes < 2 then (r, false, false)
  else if acc = 0 then
    if r.rejectRun + 1 ≥ run then
      let c := max 1 (r.nodeCap / 2)
      ({ r with rejectRun := 0, acceptRun := 0, nodeCap := c, depthCap := max 1 (r.depthCap / 2), specOffSteps := 0 }, true, c = 1)
    else ({ r with rejectRun := r.rejectRun + 1, acceptRun := 0 }, false, false)
  else if r.acceptRun + 1 ≥ run then
    ({ r with acceptRun := 0, rejectRun := 0, nodeCap := min r.treeMax (2 * r.nodeCap), depthCap := min r.depthMax (2 * r.depthCap) },
      false, false)
  else ({ r with acceptRun := r.acceptRun + 1, rejectRun := 0 }, false, false)

/-! ### Stopping (10 R264 to R267) -/

/-- The first complete match by its end, and among those ending together the one starting first: start and string (10
R265). -/
def stopMatch (stops : List (List Byte)) (buf : List Byte) : Option (Nat × Nat) :=
  let at' (e : Nat) : List (Nat × Nat) :=
    ((stops.zip (List.range stops.length)).filter (fun x =>
      decide (x.1.length ≤ e) && (buf.take e).drop (e - x.1.length) == x.1)).map (fun x => (e - x.1.length, x.2))
  ((List.range buf.length).filterMap (fun i => (sortBy (fun a b => decide (a.1 < b.1)) (at' (i + 1))).head?)).head?

/-- Bytes at the end of the stream that may begin a stop string (10 R264). -/
def stopHold (stops : List (List Byte)) (buf : List Byte) : Nat :=
  ((List.range (min 63 buf.length)).map (fun i => min 63 buf.length - i)).find? (fun k =>
    stops.any (fun x => decide (k < x.length) && x.take k == buf.drop (buf.length - k))) |>.getD 0

/-- One emitted token: charge it, check 10 R266, then stop strings, and queue its records (10 R255, R264 to R267). `pos`
is the committed length once the token's node is accepted. -/
def State.emitToken (s : State) (id : Nat) (m : Model) (d : Deck) (ends : List Nat) (mended : Bool) (pos : Nat) (e : Nat × Word) : State :=
  match s.req? id with
  | none => s
  | some r =>
    if r.ended.isSome then s.bump 0x000B0068
    else
      let t := e.1
      let lp := if r.logprob then some e.2 else none
      let s := (s.chargeAccount r.tenant r.account 256).bump64 0x000B0018 1
      let r := { r with decodeCharged := r.decodeCharged + 1, output := r.output ++ [t] }
      let reason : Option (Nat × Nat) :=
        if r.stopTokens.contains t || (mdlEnds m.image).contains t then some (2, t)
        else if ends.contains t then some (3, t)
        else if r.output.length ≥ r.maxTokens then some (4, noWhich)
        else if pos + 1 ≥ mdlContext m.image then some (5, noWhich)
        else none
      match reason with
      | some (why, which) =>
        let silent := (why = 2 || why = 3) && !r.includeStop
        let (o, _, ill, _) := detokenizeIds d.image true r.held (if silent then [] else [t])
        let s := s.countDetok d [t] ill (boolNat (t ≥ deckVocab d.image))
        let r := ({ r with held := [], stopHeld := [] } : Request).addRecords t lp (r.stopHeld ++ o) false mended
        s.updReq id (fun _ => r.close why St.ok which r.bytesOut)
      | none =>
        let (o, held, ill, bad) := detokenizeIds d.image false r.held [t]
        let s := s.countDetok d [t] ill bad
        let buf := r.stopHeld ++ o
        match stopMatch r.stopStrings buf with
        | some (start, i) =>
          let cut := if r.includeStop then start + (r.stopStrings.getD i []).length else start
          let off := r.bytesOut + start
          let (s, flushed) := s.flushHeld (some d) held
          let s := s.bumpBy 0x000B0064 (buf.length - cut + flushed.length)
          let r := ({ r with held := [], stopHeld := [] } : Request).addRecords t lp (buf.take cut) false mended
          s.updReq id (fun _ => r.close 1 St.ok i off)
        | none =>
          let k := stopHold r.stopStrings buf
          let r := ({ r with held := held, stopHeld := buf.drop (buf.length - k) } : Request).addRecords t lp
            (buf.take (buf.length - k)) false mended
          s.updReq id (fun _ => r)

/-- The keys and values of a step: each remaining node's at its slot of the working run, the tail page and then scratch frames; the accepted
ones moved to their slots in order of depth; scratch frames with committed positions join the page table (10 R249, R251). -/
def State.commitKv (s : State) (r : Request) (m : Model) (tree : List TreeNode) (path : List Nat) : State :=
  let s := s.ownTail r
  let pages := ((s.req? r.id).getD r).pages
  let first := s.serving.nextFrame
  let n := ceilDiv (r.committed + tree.length) 64 - pages.length
  let scratch := (List.range n).map (fun i => first + i)
  let s := (List.range n).foldl (fun s _ => s.newFrame r.tenant r.model (s.decodeDie r.hand m.image) [] []) s
  let run := pages ++ scratch
  let s := s.computeKv m.image run (((List.range tree.length).filter (fun i => match tree[i]? with | some x => !x.pruned | none => false)).map
    (fun i => r.committed + i))
  let moves := (path.zip (List.range path.length)).filter (fun x => x.1 ≠ x.2)
  let s := moves.foldl (fun s x => s.copyKv m.image run (r.committed + x.1) (r.committed + x.2)) (s.bumpBy 0x000B0044 moves.length)
  let kept := max pages.length (ceilDiv (r.committed + path.length) 64)
  let s := (run.drop kept).foldl State.dropFrame (s.updReq r.id (fun r => { r with pages := run.take kept, committed := r.committed + path.length }))
  s.closeTail ((s.req? r.id).getD r)

/-- The step of a request after its walk: pages, caps, automaton state, tokens, records, end (10 R250 to R253, R267, 09
R232). -/
def State.acceptWalk (s : State) (r : Request) (m : Model) (d : Deck) (aut : Option Automaton) (tree : List TreeNode) (w : Walked)
    (mended : Bool) : State :=
  let id := r.id
  let s := (s.leaveStep id).commitKv r m tree w.path
  let live := (tree.filter (fun n => !n.pruned)).length
  let acc := w.path.length - 1
  let s := s.bump64 0x000B0028 acc
  let (r', down, off) := ((s.req? id).getD r).throttle s.serving.throttleRun s.serving.retry live acc
  let s := if down then s.bump 0x000B004C else s
  let s := if off then s.bump 0x000B0050 else s
  let s := s.updReq id (fun _ => { r' with draftAccepted := r'.draftAccepted + acc, recovered := r'.recovered || mended })
  let last := (w.path.getLast?).bind (fun n => (tree[n]?).bind (fun x => x.gstate))
  let s := match aut, last with
    | some a, some g =>
      if w.dead then s.updReq id (fun r => { r with gstate := some g })
      else
        match w.emitted.getLast? with
        | some e =>
          let (s, g') := s.specAdvance a d (sharedChunks a.image d.image tree (w.path.getLast?.getD 0)) g e.1
          if g'.isSome then s.updReq id (fun r => { r with gstate := g' }) else s
        | none => s
    | _, _ => s
  let ends := match aut with | some a => autEnds a.image | none => []
  let s := (w.emitted.zip (List.range w.emitted.length)).foldl (fun s e =>
    s.emitToken id m d ends mended (r.committed + e.2 + 1) e.1) s
  match s.req? id with
  | none => s
  | some r2 =>
    if r2.ended.isNone && w.dead then s.endRequest id 7 St.deadEnd
    else if r2.ended.isNone && r2.cancel then s.endRequest id 6 St.ok
    else (s.writeRing id).formBatches r.hand

/-- The state and token of the advance that follows a walk (09 R233). -/
def lastAdvance (tree : List TreeNode) (w : Walked) : Option (GState × Nat) :=
  match ((w.path.getLast?).bind (fun n => tree[n]?)).bind (fun n => n.gstate), w.emitted.getLast? with
  | some g, some e => if w.dead then none else some (g, e.1)
  | _, _ => none

/-- What a step's sampling reads beside the model: the masks' lines, those of the accepted token's advance, and the deck's of the emitted
tokens (09 R230, R233, 08 R214). -/
def State.stepCheck (s : State) (w : Waiter) (aut : Option Automaton) (d : Deck) (tree : List TreeNode) (x : Walked) : UCheck :=
  let own := match aut with
    | none => []
    | some a =>
      let masks := (dedup ((tree.filter (fun n => !n.pruned)).filterMap (fun n => n.gstate))).map (s.maskCheck w a d)
      let adv := match lastAdvance tree x with
        | some (g, t) => [(let l := advanceLines a.image d.image g t; s.walkCheck w a d l.1 l.2)]
        | none => []
      masks ++ adv
  worstCheck (own ++ [s.deckCheck w d (tokenLines d.image (x.emitted.map (fun e => e.1)))])

/-- Units a step needs: the tokenizer, the serving unit, the walkers of a grammar, and the meld unit for a wide selection (10 R253, 15
R399). -/
def State.stepUnitsOut (s : State) (r : Request) : Bool :=
  s.unitOut 9 || s.unitOut 11 || (r.automaton.isSome && s.unitOut 10) || (!(ofF32 r.temperature).isZero && s.tooWide r.topK)

/-- The first of two batches is through: its logits are kept, and the second follows at once (02 R51). -/
def State.secondBatch (s : State) (id : Nat) (logits : List (List Word)) (repaired : Bool) : State :=
  let mine (b : GBatch) : Bool := b.reqs.contains id
  let s := s.updServing (fun z => { z with
    batches := updWhere (fun b => mine b && b.part == 2) (fun b => { b with running := true }) (z.batches.filter (fun b => !(mine b && b.part == 1))) })
  s.updReq id (fun r => { r with
    verified := (logits ++ List.replicate 64 []).take 64, stepRecovered := r.stepRecovered || repaired, recovered := r.recovered || repaired })

/-- After verification tokens are sampled and accepted, charged, stop-checked and written to the ring (10 R250). `logits` holds the main
model's logits of each tree node of the batch; `repaired`: a recovery mechanism repaired the step. -/
def execAcceptStep (req : Nat) (logits : List (List Word)) (repaired : Bool) (s : State) : Res :=
  .next (match s.req? req, (s.req? req).bind (fun r => s.reqModel r), (s.req? req).bind (fun r => s.reqDeck r) with
    | some r, some m, some d =>
      if !s.inStep req || r.tree.isEmpty || s.noSeats || !s.handTakes r.hand r.model 4 then s
      else if s.stepUnitsOut r then s.stopRequestAs 8 St.aborted req
      else
        s.onServe req (s.passCheck r m) (fun s =>
          if s.stepPart req = 1 then s.secondBatch req logits repaired
          else
            let aut := r.automaton.bind (fun n => s.automata.find? (fun a => a.number == n))
            let (s1, masks, bad) : State × List (GState × List Nat) × Bool := match aut with
              | some a => s.draw.treeMasks a d r.tree [] false
              | none => (s.draw, [], false)
            let maskOf (i : Nat) : Option (List Nat) := match aut with
              | none => none
              | some _ => ((r.tree[i]?).bind (fun n => n.gstate)).bind (fun g => (masks.find? (fun x => x.1 == g)).map (fun x => x.2))
            let all := r.verified ++ logits
            let w := walkTree r.tree r.depthCap
              (fun node n => sampleToken r (maskOf node) (((all.getD node []) ++ List.replicate (deckVocab d.image) 0x7FC00000).take
                (deckVocab d.image)) s.fresh (node * 2 ^ 20) n) r.tree.length 0 r.output.length
            let adv := match aut, lastAdvance r.tree w with
              | some a, some (g, t) => s.imageParity a (advanceLines a.image d.image g t).1
              | _, _ => false
            let mended := repaired || r.stepRecovered || bad || adv
            s.onServe req (s.stepCheck (.cmd r.cmd) aut d r.tree w) (fun _ =>
              if w.nan then
                (((s1.leaveStep req).bump 0x000B0074).updReq req (fun r => { r with recovered := r.recovered || mended })).endRequest req 8
                  St.aborted
              else s1.acceptWalk r m d aut r.tree w mended))
    | _, _, _ => s)

/-! ### Parking, rebuilding, cancelling (10 R246, R261 to R263, R267) -/

/-- At a trick boundary of a hand its parked requests read their heads, write what fits, and count the boundary (10 R261,
R263). -/
def State.pollParked (s : State) (h : Nat) : State :=
  let ids := (s.serving.reqs.filter (fun r => r.hand == h && r.isParked)).map (fun r => r.id)
  ids.foldl (fun s id => (s.writeRing id).updReq id (fun r => if r.isParked then { r with parked := r.parked + 1 } else r)) s

/-- A request parked beyond the limit ends with RING_STALL: queued records are discarded and none is final (10 R263). A request whose hand was
freed while it waited to write its final record has no more boundaries: the command reads the head once more (DESIGN CHOICE,
notes/assumptions/20.md). -/
def execRingStall (req : Nat) (s : State) : Res :=
  .next (match s.req? req with
    | none => s
    | some r =>
      let freed := r.hand > 63
      let limit := if freed then s.serving.parkLimit else (s.hand r.hand).parkLimit
      if !r.isParked || limit = 0 || (!freed && r.parked ≤ limit) then s
      else
        let s := s.writeRing req
        match s.req? req with
        | none => s
        | some r =>
          if !r.isParked then s.formBatches r.hand
          else
            let s := (s.bump 0x000B0058).bumpBy 0x000B005C r.queue.length
            (s.updReq req (fun r => { r with queue := [], isParked := false })).finishRequest req St.ringStall)

/-- A KV page whose tag failed is recomputed from the token log; the records of the step that waited are marked (10
R246). -/
def execKvRebuild (req page : Nat) (s : State) : Res :=
  .next (match s.req? req, (s.req? req).bind (fun r => s.reqModel r) with
    | some r, some m =>
      if page ≥ r.pages.length || r.ended.isSome then s
      else ((s.bump 0x000B0078).recomputeKv m.image (r.pages.getD page 0)).updReq req (fun r => { r with stepRecovered := true, recovered := true })
    | _, _ => s)

/-- A request ends as under GEN_CANCEL: after the step in flight, with REASON CANCEL (10 R267, R268). -/
def State.cancelRequest (s : State) (id : Nat) : State :=
  if s.inStep id then s.updReq id (fun r => { r with cancel := true }) else s.endRequest id 6 St.ok

/-- GEN_CANCEL: it completes, and its request ends after the step in flight (10 R267). -/
def execGenCancel (cmd : Nat) (s : State) : Res :=
  .next (match s.cmdAt cmd 0x0603 0 with
    | none => s
    | some c =>
      match s.serving.reqs.find? (fun r => r.tenant == c.tenant && r.tag.toNat == c.field 0x10 8) with
      | none => s.fail cmd St.badParam
      | some r => (s.fail cmd St.ok).cancelRequest r.id)

/-- BUDGET_DEPOSIT adds to or sets a balance and returns it (10 R256, 18 R488). -/
def execBudgetDeposit (cmd : Nat) (s : State) : Res :=
  .next (match s.cmdAt cmd 0x0604 0 with
    | none => s
    | some c =>
      let a := c.field 0x10 4
      let mode := c.field 0x14 1
      if a > 65535 || mode > 1 then s.fail cmd St.badParam
      else
        let v : Int := (c.field 0x18 4 * 256 : Nat) + (if mode = 0 then (s.account c.tenant a).balance else 0)
        let top : Int := 2 ^ 55 - 1
        let s := if v > top then s.bump 0x000B0070 else s
        let v := if v > top then top else v
        (s.updAccount c.tenant a (fun x => { x with balance := v })).complete cmd St.ok 0 (v % 2 ^ 64).toNat 0)

/-! ### SRV_ registers (10 R269, R270, R272) -/

/-- SRV_CTRL: PARK_LIMIT and BATCH_WAIT_TRICKS, taken at each hand's next boundary; ERR clears by writing 1. Every value
of the fields is in range (10 R269). -/
def execSrvCtrlWrite (v : Word) (s : State) : Res :=
  .next (if !s.up then s else s.updServing (fun z => { z with
    ctrlErr := z.ctrlErr && !bitAt v.toNat 31, parkLimit := bits v.toNat 23 8, batchWait := bits v.toNat 7 0 }))

/-- SRV_SPEC: RETRY and THROTTLE_RUN; THROTTLE_RUN 0 is ignored and sets ERR (10 R270). -/
def execSrvSpecWrite (v : Word) (s : State) : Res :=
  .next (if !s.up then s else s.updServing (fun z =>
    if bits v.toNat 3 0 = 0 then { z with specErr := true }
    else { z with specErr := z.specErr && !bitAt v.toNat 31, retry := bits v.toNat 15 8, throttleRun := bits v.toNat 3 0 }))

/-- SRV_T_WEIGHT: the prefill weight for chunks that start afterwards (10 R272). -/
def execSrvTWeightWrite (tenant : Nat) (v : Word) (s : State) : Res :=
  .next (if !s.up then s else s.updTenant tenant (fun x => { x with weight := bits v.toNat 15 0 }))

end Sys2Proof.Machine
end

