-- ==== Sys2Proof/Machine/Tiers.lean ====
section
/-!
DEFINITION. The TIER unit and the quotas (12 R312, R313, R318, R319).
-/
namespace Sys2Proof.Machine

/-! ### The TIER unit (12 R313) -/

/-- The blocks an issue names, when each is a TIERED block of the tenant; none for BAD_PARAM. -/
def State.tierBlocks (s : State) (u : UnitIssue) : Option (List TBlock) :=
  let a := fieldOf u.body 0 8
  let n := fieldOf u.body 8 8
  if a % 65536 ≠ 0 || n < 1 || n > 2 ^ 20 || fieldOf u.body 0x10 8 ≠ 0 || fieldOf u.body 0x18 8 ≠ 0 || !bodyTailZero u 0x20 then none
  else
    let l := (List.range n).filterMap (fun i => s.block? u.tenant (a / 65536 + i))
    if l.length = n then some l else none

/-- Fetch blocks in order until one cannot be read; the status and how many came (12 R313, R314). -/
def State.fetchBlocks (s : State) : List TBlock → Nat → State × Nat × Nat
  | [], n => (s, St.ok, n)
  | x :: xs, n =>
    if s.pageLost x.tenant x.block then (s.countPageLost x.tenant x.block, St.aborted, n)
    else
      let (z, ok) := s.bringIn x (s.pageBad x.tenant x.block)
      if ok then z.fetchBlocks xs (n + 1) else (z, St.aborted, n)

/-- FETCH: the named blocks become resident, evicting others of the tenant; COUNT gives the blocks moved, those before one that cannot be read
(12 R313). Until its turn comes, and while a frame's channel is re-homed, the issue waits (12 R312, R321). -/
def execTierFetch (k : IssueKey) (s : State) : Res :=
  .next (match s.issueAt k 6 1 with
    | none => s
    | some u =>
      if !s.tierTurn k 1 then s else
      match s.tierBlocks u with
      | none => (s.finishIssue k St.badParam 0).settleEvictions
      | some l =>
        let todo := l.filter (fun x => !x.present)
        if todo.any (fun x => s.frameStalls x.tenant x.block) then s
        else
          let (s, fits) := State.makeRoom u.tenant (sumNat (todo.map (fun x => x.bytes))) (l.map (fun x => x.block)) (s.tier.blocks.length + 1) s
          if !fits then (let (s, st) := s.noRoom u.tenant; (s.finishIssue k st 0).settleEvictions)
          else
            let (s, st, n) := s.fetchBlocks todo 0
            (s.finishIssue k st n).settleEvictions)

/-- Write dirty blocks home in order until one cannot be written; the status and how many went (12 R313, 13 R349). -/
def State.writeBlocks (s : State) : List TBlock → Nat → State × Nat × Nat
  | [], n => (s, St.ok, n)
  | x :: xs, n =>
    let (z, st) := if s.writebackRefused x then (s, St.sealed) else s.writeHome x
    if st ≠ St.ok then (if st = St.sealed then z.bump 0x000E0058 else z, st, n)
    else ((z.bump64 0x000D0008 1).updBlock x.tenant x.block (fun y => { y with dirty := false })).writeBlocks xs (n + 1)

/-- WRITEBACK: dirty blocks are written to their home and stay resident and clean; a refused writeback ends it with
MEDIA_SEALED, one that cannot be made with ABORTED_FAULT (12 R313, 13 R349). Until its turn comes, and while the flash is stopped, the issue waits
(12 R312, 13 R352). -/
def execTierWriteback (k : IssueKey) (s : State) : Res :=
  .next (match s.issueAt k 6 2 with
    | none => s
    | some u =>
      if !s.tierTurn k 2 then s else
      match s.tierBlocks u with
      | none => (s.finishIssue k St.badParam 0).settleEvictions
      | some l =>
        let dirty := l.filter (fun x => x.dirty)
        if s.flash.stopped && dirty.any (fun x => x.home ≠ 3) then s
        else
          let (s, st, n) := s.writeBlocks dirty 0
          (s.finishIssue k st n).settleEvictions)

/-! ### Quotas (12 R319) -/

/-- A tenant's limit on a tier. -/
def Tenant.quota (x : Tenant) (tier : Nat) : Quota := match tier with | 1 => x.t1 | 2 => x.t2 | _ => x.t3

/-- QUOTA_SET: one tier's limit for one tenant, and the T3 regions (12 R319, 18 R483, R494). -/
def execQuotaSet (cmd : Nat) (s : State) : Res :=
  .next (match s.cmdAt cmd 0x0303 0 with
    | none => s
    | some c =>
      let t := c.field 0x10 1
      let tier := c.field 0x11 1
      let n := c.field 0x12 2
      let limit := c.field 0x14 4
      let list := c.field 0x18 8
      let x := s.tenant t
      if x.reset.isSome then s.fail cmd St.tenantReset
      else if tier = 3 && n ≠ 0 && s.cxl.mode = .pcie then s.fail cmd St.unsupported
      else if t > 63 || !x.live || tier < 1 || tier > 3 || (tier ≠ 3 && (n ≠ 0 || list ≠ 0)) || n > 64 then s.fail cmd St.badParam
      else
        let sum := sumNat ((List.range 64).map (fun i => if i = t then limit else ((s.tenant i).quota tier).limit))
        if (tier = 1 && sum > s.tier.assignable) || (tier = 2 && sum * 65536 > s.variant.mediaBytes) then s.fail cmd St.badParam
        else
          let set (s : State) (rs : List (Nat × Nat)) : State :=
            (s.updTenant t (fun x => match tier with
              | 1 => { x with t1 := { x.t1 with limit := limit } }
              | 2 => { x with t2 := { x.t2 with limit := limit } }
              | _ => { x with t3 := { x.t3 with limit := limit }, regions := rs })).fail cmd St.ok
          if tier ≠ 3 then
            (if tier = 1 then ((set s []).updTier (fun z => { z with evicting := z.evicting.filter (· ≠ t) ++ [t] })).settleEvictions else set s [])
          else if n = 0 then set s []
          else
            match s.resolve c.tenant list (16 * n) 8 with
            | none => s.fail cmd St.badParam
            | some k =>
              let rs := (List.range n).map (fun i => (s.rdNat (k + 16 * i) 8, s.rdNat (k + 16 * i + 8) 8))
              let clash (r : Nat × Nat) : Bool := (List.range 64).any (fun i => i ≠ t &&
                (s.tenant i).regions.any (fun q => decide (r.1 < q.1 + q.2) && decide (q.1 < r.1 + r.2)))
              if s.poisoned k (16 * n) then s.fail cmd St.aborted
              else if rs.any (fun r => r.1 % 65536 ≠ 0 || r.2 % 65536 ≠ 0 || clash r) then s.fail cmd St.badParam
              else set s rs)

end Sys2Proof.Machine
end

