-- ==== Sys2Proof/Machine/Pipe.lean ====
section
/-!
DEFINITION. PIPE_QUERY and its stages: tokenize, embed, passage fetch, re-rank, pack and return (01 R20 to R28, 07 R181 to
R195).
-/
namespace Sys2Proof.Machine

/-! ### The pack control block (07 R189, R190) -/

/-- A segment entry. -/
structure PackSeg where
  kind : Nat
  pre : Nat
  post : Nat
  sep : Nat
  off : Nat
  count : Nat
  deriving DecidableEq, Repr

/-- Fields of the block. -/
def packN (b : List Byte) : Nat := fieldOf b 4 2
def packDeck (b : List Byte) : Nat := fieldOf b 0xC 4
def packFlag (b : List Byte) (i : Nat) : Bool := bitAt (fieldOf b 0x10 1) i
def packSegs (b : List Byte) : List PackSeg :=
  (List.range (fieldOf b 0x14 2)).map (fun i =>
    let o := 64 + 16 * i
    { kind := fieldOf b o 1, pre := fieldOf b (o + 2) 2, post := fieldOf b (o + 4) 2, sep := fieldOf b (o + 6) 2
      off := fieldOf b (o + 8) 4, count := fieldOf b (o + 12) 4 })

/-- Tokens of the pool. -/
def packPool (b : List Byte) (off n : Nat) : List Nat :=
  (List.range n).map (fun i => fieldOf b (64 + 16 * fieldOf b 0x14 2 + 4 * (off + i)) 4)

/-- Bytes of a block with its segments and pool. -/
def packBytes (b : List Byte) : Nat := 64 + 16 * fieldOf b 0x14 2 + 4 * fieldOf b 0x24 4

/-- TEXT tokens of the template. -/
def packText (b : List Byte) : Nat := sumNat ((packSegs b).map (fun g => if g.kind = 0 then g.count else 0))

/-- Whether a segment keeps its ranges. -/
def packSegOk (b : List Byte) (i : Nat) (g : PackSeg) : Bool :=
  let need := match g.kind with | 0 => g.count | 1 => g.pre + g.post + g.sep | _ => 0
  decide (g.kind ≤ 2) && zeroRange b (64 + 16 * i + 1) 1 && decide (g.off + need ≤ fieldOf b 0x24 4)
    && (if g.kind = 0 then decide (1 ≤ g.count) && decide (g.count ≤ 65536) else g.count == 0)
    && (if g.kind = 1 then decide (g.pre ≤ 64) && decide (g.post ≤ 64) && decide (g.sep ≤ 64)
        else g.pre == 0 && g.post == 0 && g.sep == 0)

/-- The checks of 07 R190 over the block itself, with the deck of PACK_DECK and the search k. -/
def packOk (b : List Byte) (deck : Option Deck) (k : Nat) : Bool :=
  match deck with
  | none => false
  | some d =>
    let gs := packSegs b
    decide (1 ≤ packN b) && decide (packN b ≤ 1024) && decide (packN b ≤ k) && decide (1 ≤ packMax b)
      && decide (packMax b ≤ packN b) && decide (1 ≤ packBudget b) && decide (packBudget b ≤ 131072)
      && decide (fieldOf b 0x10 1 < 16) && decide (fieldOf b 0x11 1 ≤ 16) && decide (1 ≤ fieldOf b 0x12 2)
      && decide (fieldOf b 0x12 2 ≤ 4096) && zeroRange b 0x16 2 && zeroRange b 0x28 24
      && (gs.filter (fun g => g.kind = 1)).length == 1 && decide ((gs.filter (fun g => g.kind = 2)).length ≤ 1)
      && (gs.zip (List.range gs.length)).all (fun x => packSegOk b x.2 x.1)
      && (packPool b 0 (fieldOf b 0x24 4)).all (fun t => decide (t < deckVocab d.image))
      && decide (64 + packMap b + 4 * packBudget b ≤ fieldOf b 0x20 4) && decide (packText b ≤ packBudget b)

/-- Read a pack control block with its segments and pool, or the status that ends the command (07 R189, 18 R468). -/
def State.packRead (s : State) (t a : Nat) : List Byte ⊕ Nat :=
  match s.resolve t a 64 1 with
  | none => .inr St.badParam
  | some k =>
    let b := s.rd k 64
    if s.poisoned k 64 then .inr St.aborted
    else if fieldOf b 0x14 2 < 1 || fieldOf b 0x14 2 > 16 || fieldOf b 0x24 4 > 65536 then .inr St.badParam
    else
      match s.resolve t a (packBytes b) 1 with
      | none => .inr St.badParam
      | some q => if s.poisoned q (packBytes b) then .inr St.aborted else .inl (s.rd q (packBytes b))

/-! ### Intake of PIPE_QUERY (01 R20 to R22, 18 R485) -/

/-- A pipeline query by its command. -/
def State.pipe? (s : State) (h : Nat) : Option Pipe := s.pipes.find? (fun p => p.cmd == h)

/-- Change a pipeline query. -/
def State.updPipe (s : State) (h : Nat) (f : Pipe → Pipe) : State := { s with pipes := updWhere (fun p => p.cmd == h) f s.pipes }

/-- PIPE_QUERY: every intake check; then the query is in flight, its tokenize stage due, and the contents of its output buffer are
undefined, a free value, until the output is written (00 R4, R10, 01 R20, R21, R26, 07 R190, R194, 18 R485). -/
def execPipeQuery (cmd : Nat) (s : State) : Res :=
  .next (match s.cmdAt cmd 0x0501 0 with
    | none => s
    | some c =>
      let t := c.tenant
      let k := c.field 0x14 2
      let fl := c.field 0x16 2
      let gen := bitAt fl 2
      let qn := c.field 0x48 4
      match s.collFor t cmd (c.field 0x10 2), s.resolve t (c.field 0x20 8) qn 1, s.filterFor t (c.field 0x28 8),
          s.packRead t (c.field 0x30 8), (if gen then s.genRead t (c.field 0x38 8) else .inl []) with
      | none, _, _, _, _ => s.fail cmd St.badParam
      | _, none, _, _, _ => s.fail cmd St.badParam
      | _, _, .inr st, _, _ => s.fail cmd st
      | _, _, _, .inr st, _ => s.fail cmd st
      | _, _, _, _, .inr st => s.fail cmd st
      | some x, some qk, .inl _, .inl pb, .inl gb =>
        let deck := s.deckFor t cmd (packDeck pb)
        let genDeck := ((s.modelFor t cmd (fieldOf gb 8 4)).filter (fun m => m.kind == 1)).map (fun m => mdlDeck m.image)
        let bad := (s.handFor t cmd (c.field 0x1A 1)).isNone || (s.handFor t cmd (c.field 0x1B 1)).isNone || qn < 1 || qn > 65536
          || c.field 0x1C 4 > 2 || !packOk pb deck k
          || (s.resolve t (fieldOf pb 0x18 8) (64 + packMap pb + 4 * packBudget pb) 64).isNone
          || (gen && (s.genBad t cmd gb || (genDeck.isSome && genDeck ≠ some (packDeck pb)))) || (!gen && c.field 0x38 8 ≠ 0)
        match s.searchTrouble x k (c.field 0x12 2) (c.field 0x18 2) (bitAt fl 1) with
        | some st => s.fail cmd (if bad then St.badParam else st)
        | none =>
          if bad then s.fail cmd St.badParam
          else if gen && s.tooWide (genParams gb).topK then s.fail cmd St.unitAbsent
          else if s.poisoned qk qn || s.noSeats then s.fail cmd St.aborted
          else
            let question := s.rd qk qn
            let p : Pipe :=
              { cmd := cmd, tenant := t, coll := x.number, embedHand := c.field 0x1A 1, rerankHand := c.field 0x1B 1
                policy := c.field 0x1C 1, question := question, packBlock := pb, genBlock := gb, tokens := [], candidates := []
                taken := 0, scratch := 0, lost := 0, snapshot := c.snapshot, queryCut := false, out := [], prompt := []
                partial' := false, seqs := [], stage := 1 }
            let k := (s.outKey p).getD 0
            let meets (q : Pipe) : Bool := match s.outKey q with
              | some j => decide (k < j + q.outBytes) && decide (j < k + p.outBytes)
              | none => false
            let p := { p with under := s.rd k p.outBytes, shared := has meets s.pipes }
            let s := { s with pipes := updWhere meets (fun q => { q with shared := true }) s.pipes ++ [p] }
            (s.updCmd cmd (fun c => { c with stage := 1 })).spoilOut p)

/-! ### Tokenize and embed (01 R20, R22, 18 R485) -/

/-- The embedding model and the cross-encoder of a query, while they may be used. -/
def State.embedModel (s : State) (p : Pipe) : Option Model :=
  ((s.coll? p.coll).bind (fun x => s.modelFor p.tenant p.cmd x.desc.embedModel)).filter (fun m => m.kind == 2)
def State.crossModel (s : State) (p : Pipe) : Option Model :=
  (s.modelFor p.tenant p.cmd (fieldOf p.packBlock 0 4)).filter (fun m => m.kind == 3)

/-- Go on with a stage of a query when nothing stands against it; otherwise the stage stalls or ends the command (01 R22, R24, 07 R193). -/
def State.onPipe (s : State) (h : Nat) (c : UCheck) (f : State → State) : State :=
  match c with
  | .ok => f s
  | .wait => s
  | .bad => s.failPipe h St.badParam
  | .failed st => s.failPipe h st
  | .poison => s.failPipe h St.aborted
  | .rejected => s.failPipe h St.aborted

/-- The tokenizer cuts texts in decks for a query: what stands against it (08 R214, 15 R399). -/
def State.cutCheck (s : State) (h : Nat) (cuts : List (Deck × Tokenized)) : UCheck :=
  if cuts.isEmpty then .ok
  else if s.unitOut 9 then .poison
  else worstCheck (cuts.map (fun x => s.deckCheck (.cmd h) x.1 (nodeLines x.1.image x.2.nodes)))

/-- The question is tokenized once in each deck its stages need, under POLICY (01 R22, 18 R485, 08 R204, R214). -/
def execQueryTokenize (cmd : Nat) (s : State) : Res :=
  .next (match s.pipe? cmd with
    | none => s
    | some p =>
      if p.stage ≠ 1 then s
      else
        let decks := dedup ((((s.embedModel p).map (fun m => mdlDeck m.image)).toList ++ ((s.crossModel p).map (fun m => mdlDeck m.image)).toList)
          ++ [packDeck p.packBlock])
        let ts := decks.filterMap (fun n => (s.deckFor p.tenant cmd n).map (fun d => (d, tokenizeAll d p.policy p.question)))
        s.onPipe cmd (s.cutCheck cmd ts) (fun s =>
          let s := ts.foldl (fun s x => s.countTokenized x.1 x.2) s
          if ts.any (fun x => x.2.rejected) then (s.bump 0x00090024).failPipe cmd St.inputInvalid
          else
            let s := s.updPipe cmd (fun p => { p with tokens := ts.map (fun x => (x.1.number, x.2.cuts.map (fun c => c.token))), stage := 2 })
            match s.embedModel p with | some m => s.noteReady p.embedHand m.number 0 | none => s))

/-- The embed hand finishes embedding: `vec` is the model's output, and the query enters the search; the stage stalls while the model is not
in T1 or its hand cannot take it (01 R20, R22, 05 R131; notes/assumptions/7.md). -/
def execEmbed (cmd : Nat) (vec : List Word) (s : State) : Res :=
  .next (match s.pipe? cmd, s.cmd? cmd with
    | some p, some c =>
      if p.stage ≠ 2 then s
      else
        match s.coll? p.coll, s.embedModel p with
        | some x, some m =>
          if s.noSeats then s.failPipe cmd St.aborted
          else
            s.onPipe cmd (s.objectCheck (.cmd cmd) m.tenant m.va.toNat m.bytes.length) (fun s =>
              if !s.handTakes p.embedHand m.number 0 then s
              else
                let s := s.useHand p.embedHand m.number 0
                let v := (vec ++ List.replicate x.desc.dim 0).take x.desc.dim
                match s.filterFor p.tenant (c.field 0x28 8) with
                | .inr st => s.failPipe cmd st
                | .inl f =>
                  let fl := c.field 0x16 2
                  (s.updPipe cmd (fun p => { p with stage := 3 })).addQuery
                    (newQuery { cmd := cmd, idx := 0 } p.tenant x v f (c.field 0x14 2) (c.field 0x12 2) (c.field 0x18 2) (bitAt fl 0)
                      (bitAt fl 1) p.snapshot (some p.embedHand)))
        | some _, none => s.failPipe cmd St.notResident
        | none, _ => s
    | _, _ => s)

/-! ### Passage fetch (07 R181 to R185) -/

/-- A passage's text as the tokenizer cuts it in a deck (07 R182). -/
def passageCuts (d : Deck) (it : Item) : Tokenized := tokenizeAll d 0 it.text

/-- Cut points of a passage: a mark that ends exactly after some tokens (07 R182). -/
def cutPoints (cs : List Cut) (marks : List Nat) : List (Nat × Nat) :=
  let ends := (cs.foldl (fun (acc : List (Nat × Nat) × Nat × Nat) c =>
    let n := acc.2.1 + 1
    let b := acc.2.2 + c.bytes
    (if c.cutAfter then acc.1 ++ [(n, b)] else acc.1, n, b)) ([], 0, 0)).1
  ends.filter (fun e => marks.contains e.2)

/-- The tokens of a passage in a deck, the record's ids where DECK names it, and its cut points, whose coverage always comes from the text
(07 R182; notes/assumptions/19.md says what follows when the number has passed to another deck). -/
def passageTokens (d : Deck) (it : Item) : List Nat × List (Nat × Nat) :=
  let cs := (passageCuts d it).cuts
  let ids := if it.deck = d.number then it.tokens else cs.map (fun c => c.token)
  (ids, (cutPoints cs it.marks).filter (fun x => decide (x.1 ≤ ids.length)))

/-- A candidate with its tokens in both decks (07 R182, R183). -/
def candidateOf (cross pack : Option Deck) (it : Item) : Candidate :=
  let p := match pack with | some d => passageTokens d it | none => ([], [])
  { id := it.id, textBytes := it.text.length, fingerprint := it.fingerprint
    cross := match cross with | some d => (passageTokens d it).1 | none => []
    tokens := p.1, cuts := p.2, score := 0, rank := 0, source := some it }

/-- The cuts the tokenizer makes for a passage: one a deck, none where the record's ids serve (07 R182). -/
def passageWork (cross pack : Option Deck) (it : Item) : List (Deck × Tokenized) :=
  ((dedup (cross.toList ++ pack.toList)).filter (fun d => it.deck ≠ d.number)).map (fun d => (d, passageCuts d it))

/-- Bytes of scratch a candidate takes: its record and the token arrays of both decks (07 R183). -/
def candidateBytes (it : Item) (c : Candidate) : Nat :=
  32 + it.text.length + 4 * it.tokens.length + 4 * it.marks.length + 4 * c.cross.length + 4 * c.tokens.length

/-- The tier engine reads the records of the candidates into scratch: lost ones are counted, the scratch is charged, and
with PREFETCH surplus records are wasted (07 R183 to R186, 01 R23). Demand fetches and earlier commands' passages go first (12 R312). `reads` names the records that had to be rebuilt or could not be read. -/
def execPassageFetch (cmd : Nat) (reads : List (Addr × ReadResult)) (s : State) : Res :=
  .next (match s.pipe? cmd, s.query? { cmd := cmd, idx := 0 } with
    | some p, some q =>
      match s.coll? p.coll with
      | none => s
      | some x =>
        if p.stage ≠ 3 || q.stage ≠ 5 || !s.passageTurn cmd then s
        else
          let n := packN p.packBlock
          let record (e : MEntry) : Option Item := (x.item? e.item).filter (fun it => !it.text.isEmpty)
          let final := q.merged.take n
          let early := if packFlag p.packBlock 2 && q.refine then (q.partials.flatMap (fun y => y.2.entries)).take n else []
          let items := final.filterMap record
          let fate (it : Item) (r : ReadResult) : Bool := has (fun x => x.1 == it.id && x.2 == r) reads
          let gone (it : Item) : Bool := fate it .lost || s.mediaLost (it.owns x.number false)
          let surplus := (early.filter (fun e => !has (fun f => f.index == e.index) final)).filterMap record
          let waste := (surplus.filter (fun it => !gone it)).length
          let good := items.filter (fun it => !gone it)
          let noText := final.length - items.length
          let cross := ((s.crossModel p).map (fun m => mdlDeck m.image)).bind (s.deckFor p.tenant cmd)
          let pack := s.deckFor p.tenant cmd (packDeck p.packBlock)
          let work := good.flatMap (passageWork cross pack)
          s.onPipe cmd (if s.unitOut 13 && !items.isEmpty then .poison else s.cutCheck cmd work) (fun s =>
            let s := ((items ++ surplus).filter gone).foldl (fun s it => s.countLost (it.owns x.number false)) s
            let s := ((s.bumpBy 0x000F0400 noText).bumpBy 0x000F0404 (items.length - good.length)).bumpBy 0x000F0418 waste
            let s := work.foldl (fun s w => s.countTokenized w.1 w.2) s
            let s := if q.recovered || good.any (fun it => fate it .rebuilt) then s.recovered cmd else s
            let cands := good.map (candidateOf cross pack)
            let scratch := roundUp (sumNat ((good.zip cands).map (fun c => candidateBytes c.1 c.2))) 65536
            if !(s.tenant p.tenant).t1.fits scratch then (s.failPipe cmd St.quota).settleEvictions
            else
              let s := s.updSearch (fun z => { z with queries := z.queries.filter (fun y => y.key ≠ q.key) })
              let s := match s.crossModel p with | some m => s.noteReady p.rerankHand m.number 2 | none => s
              ((s.chargeT1 p.tenant scratch).updPipe cmd (fun p => { p with
                candidates := cands, taken := final.length, scratch := scratch, lost := p.lost + noText + (items.length - good.length)
                partial' := p.partial' || decide (q.merged.length < q.k), crossDeck := cross.map (fun d => d.number), stage := 10 })).settleEvictions)
    | _, _ => s)

/-! ### Re-rank (07 R186 to R188, R193) -/

/-- Longest question a pair takes: PAIR_MAX / 2 − o tokens (07 R186). -/
def pairQuestion (m : List Byte) : Nat := mdlContext m / 2 - mdlOverhead m

/-- Passage tokens that fit a pair beside a question (07 R186). -/
def pairRoom (m : List Byte) (question : List Nat) : Nat := mdlContext m - mdlOverhead m - min question.length (pairQuestion m)

/-- A pair: lead, question, middle, passage, tail, the question and the passage cut to fit (07 R186). -/
def buildPair (m : List Byte) (question passage : List Nat) : List Nat :=
  mdlTemplate m 0 (mdlLead m) ++ question.take (pairQuestion m) ++ mdlTemplate m (mdlLead m) (mdlMiddle m)
    ++ passage.take (pairRoom m question) ++ mdlTemplate m (mdlLead m + mdlMiddle m) (mdlTail m)

/-- Where the cross-encoder's deck is not the one the query's texts were cut in, its model having been loaded since, the stage has the question
and the passages cut in it now: the query with their tokens, the cuts, and the scratch they take (01 R22, 07 R182, R183, R186). -/
def State.crossTokens (s : State) (p : Pipe) (m : Model) : Pipe × List (Deck × Tokenized) :=
  match s.deckFor p.tenant p.cmd (mdlDeck m.image) with
  | none => (p, [])
  | some d =>
    let q := tokenizeAll d p.policy p.question
    let asked := has (fun x => x.1 == d.number) p.tokens
    let cut := p.crossDeck == some d.number
    let again (c : Candidate) : Candidate := match c.source with | some it => { c with cross := (passageTokens d it).1 } | none => c
    let cands := p.candidates.map again
    let more := 4 * sumNat (cands.map (fun c => c.cross.length)) - 4 * sumNat (p.candidates.map (fun c => c.cross.length))
    let p' := { p with
      tokens := if asked then p.tokens else p.tokens ++ [(d.number, q.cuts.map (fun c => c.token))]
      candidates := if cut then p.candidates else cands
      scratch := if cut then p.scratch else roundUp (p.scratch + more) 65536
      crossDeck := some d.number }
    (p', (if asked then [] else [(d, q)])
      ++ (if cut then [] else (p.candidates.filterMap (fun c => c.source)).flatMap (passageWork (some d) none)))

/-- The rows of a pair: position ids from 0 (07 R187). -/
def pairRows (pair : Nat) (tokens : List Nat) : List SeqRow :=
  (tokens.zip (List.range tokens.length)).map (fun x => { token := x.1, pos := x.2, pair := pair })

/-- Place a pair into the first sequence with room for it, or a new one; sequences are padded to 64 tokens (07 R187). -/
def placePair (cap : Nat) (rows : List SeqRow) : List PairSeq → List PairSeq
  | [] => [{ rows := rows, padded := roundUp rows.length 64 }]
  | q :: qs =>
    if q.rows.length + rows.length ≤ cap then
      { rows := q.rows ++ rows, padded := roundUp (q.rows.length + rows.length) 64 } :: qs
    else q :: placePair cap rows qs

/-- Pairs in candidate order, packed first-fit into sequences of SEQ_PACK tokens (07 R187). -/
def packPairs (cap : Nat) (pairs : List (List Nat)) : List PairSeq :=
  (pairs.zip (List.range pairs.length)).foldl (fun qs p => placePair cap (pairRows p.2 p.1) qs) []

/-- The attention mask of a sequence: a token attends to the tokens of its own pair only (07 R187). -/
def SeqRow.attends (a b : SeqRow) : Bool := a.pair == b.pair

/-- A pair's score: the model head's output at its first token (07 R187); NaN where the head gives none. -/
def pairScore (qs : List PairSeq) (heads : List (List Word)) (pair : Nat) : Word :=
  let at' := (qs.zip heads).filterMap (fun x =>
    (indexWhere (fun (r : SeqRow) => r.pair == pair && r.pos == 0) x.1.rows).map (fun i => x.2.getD i 0x7FC00000))
  at'.headD 0x7FC00000

/-- A stock kernel that a stage runs faults: it is counted, and FLT_KFAULT holds its record, which is a free value (04 R113, 15 R416). -/
def State.stageFault (s : State) (t hand : Nat) : State :=
  let d := s.fresh
  let f : FaultRec :=
    { kind := 1 + Config.free d 0 % 6, ctx := Config.free d 1 % 64, rank := Config.free d 2, instr := BitVec.ofNat 32 (Config.free d 3),
      pc := BitVec.ofNat 64 (Config.free d 4), addr := BitVec.ofNat 64 (Config.free d 5) }
  (s.draw.updFlt (fun z => { z with kfault := some f, kfaultSrc := BitVec.ofNat 32 (2 ^ 31 + 2 ^ 16 + t * 2 ^ 8 + hand) })).fltBump
    0x000F0014 (holderId 7 t) 0 f.pc.toNat

/-- Candidates with their scores ranked, larger first, ties to the lower id (07 R188). -/
def rankCandidates (l : List Candidate) : List Candidate :=
  let before (a b : Candidate) : Bool :=
    (ofF32 b.score).lt (ofF32 a.score) || (!(ofF32 a.score).lt (ofF32 b.score) && decide (a.id < b.id))
  let ranked := sortBy before l
  (ranked.zip (List.range ranked.length)).map (fun c => { c.1 with rank := c.2 })

/-- The re-rank hand scores the pairs in their sequences: `scores` brings the model head's outputs, sequence by sequence and row by row, or
none when the stock kernel faulted. A NaN score loses its candidate; the rest are ranked, by the meld unit or, without it, by the seat
kernel; it also tells whether the meld unit had to repeat (07 R184, R186 to R188, R193, 06 R167, R178, R180; notes/assumptions/7.md). -/
def execRerank (cmd : Nat) (scores : RerankRun) (s : State) : Res :=
  .next (match s.pipe? cmd with
    | none => s
    | some p =>
      if p.stage ≠ 10 then s
      else
        match s.crossModel p with
        | none => s.failPipe cmd St.notResident
        | some m =>
          if s.noSeats then s.failPipe cmd St.aborted
          else
            let (p', work) := s.crossTokens p m
            s.onPipe cmd (worstCheck [s.objectCheck (.cmd cmd) m.tenant m.va.toNat m.bytes.length, s.cutCheck cmd work]) (fun s =>
              if !s.handTakes p.rerankHand m.number 2 then s
              else if work.any (fun w => w.2.rejected) then (s.bump 0x00090024).failPipe cmd St.inputInvalid
              else if !(s.tenant p.tenant).t1.fits (p'.scratch - p.scratch) then s.failPipe cmd St.quota
              else
                let s := (work.foldl (fun s w => s.countTokenized w.1 w.2) s).useHand p.rerankHand m.number 2
                let s := (s.chargeT1 p.tenant (p'.scratch - p.scratch)).updPipe cmd (fun _ => p')
                let p := p'
                let question := ((p.tokens.find? (fun x => x.1 == mdlDeck m.image)).map (fun x => x.2)).getD []
                let cut := decide (pairQuestion m.image < question.length)
                let cuts := (p.candidates.filter (fun c => decide (pairRoom m.image question < c.cross.length))).length
                let seqs := packPairs (fieldOf m.image 0x16 2) (p.candidates.map (fun c => buildPair m.image question c.cross))
                let s := (if cut then s.bump 0x000F041C else s).bumpBy 0x000F0420 cuts
                match scores.heads with
                | none => (s.stageFault p.tenant p.rerankHand).failPipe cmd St.aborted
                | some heads =>
                  let scored := (p.candidates.zip (List.range p.candidates.length)).map (fun c =>
                    { c.1 with score := pairScore seqs heads c.2 })
                  let good := scored.filter (fun c => !(ofF32 c.score).isNan)
                  let lost := scored.length - good.length
                  let s := s.bumpBy 0x000F0408 lost
                  let unit := !s.seatSearch && !scored.isEmpty
                  let s := if unit then (s.bump64 0x00080008 1).bump64 0x00080010 lost else s
                  let s := if unit && scores.shadow ≠ .agree then (s.bump 0x00080028).recovered cmd else s
                  if unit && scores.shadow = .failed then (s.bump 0x0008002C).failPipe cmd St.aborted
                  else
                    s.updPipe cmd (fun p => { p with
                      candidates := rankCandidates good, lost := p.lost + lost, queryCut := cut, seqs := seqs, stage := 11 })))

/-! ### Pack (07 R191 to R193) -/

/-- Set bits of a 64-bit number. -/
def popcount (v : Nat) : Nat := ((List.range 64).filter (fun i => bitAt v i)).length

/-- What filling the budget came to. -/
structure Filled where
  placed : List Placed
  fingerprints : List Addr
  room : Nat
  dup : Nat
  skip : Nat
  truncated : Bool
  deriving DecidableEq, Repr

/-- Place candidates in rank order (07 R191). -/
def fillBudget (b : List Byte) (g : PackSeg) : List Candidate → Filled → Filled
  | [], f => f
  | c :: cs, f =>
    if f.placed.length = packMax b then f
    else
      let near (p : Addr) : Bool := p ≠ 0 && decide (popcount (p ^^^ c.fingerprint).toNat ≤ fieldOf b 0x11 1)
      if packFlag b 3 && c.fingerprint ≠ 0 && f.fingerprints.any near then fillBudget b g cs { f with dup := f.dup + 1 }
      else
        let extra := g.pre + g.post + (if f.placed.isEmpty then 0 else g.sep)
        let cost := extra + c.tokens.length
        if cost ≤ f.room then
          fillBudget b g cs { f with
            placed := f.placed ++ [{ id := c.id, score := c.score, rank := c.rank, tokens := c.tokens, bytes := c.textBytes, truncated := false }]
            fingerprints := f.fingerprints ++ [c.fingerprint], room := f.room - cost }
        else
          let fit := (c.cuts.filter (fun x => decide (extra + x.1 ≤ f.room))).getLast?
          match fit with
          | some (t, n) =>
            if packFlag b 0 && t ≥ fieldOf b 0x12 2 then
              { f with
                placed := f.placed ++ [{ id := c.id, score := c.score, rank := c.rank, tokens := c.tokens.take t, bytes := n, truncated := true }]
                room := f.room - (extra + t), truncated := true }
            else fillBudget b g cs { f with skip := f.skip + 1 }
          | none => fillBudget b g cs { f with skip := f.skip + 1 }

/-- The passages of a PASSAGES segment: the tokens, and the citation entry of each with its start (07 R192). -/
def placePassages (b : List Byte) (g : PackSeg) : Bool → Nat → List Placed → List Nat × List Byte
  | _, _, [] => ([], [])
  | first, at', p :: ps =>
    let sep := if first then [] else packPool b (g.off + g.pre + g.post) g.sep
    let pre := packPool b g.off g.pre
    let post := packPool b (g.off + g.pre) g.post
    let start := at' + sep.length + pre.length
    let here := sep ++ pre ++ p.tokens ++ post
    let cite := leBytes 8 p.id.toNat ++ leBytes 4 p.score.toNat ++ leBytes 4 start ++ leBytes 4 p.tokens.length ++ leBytes 4 p.bytes
      ++ leBytes 2 p.rank ++ leBytes 2 (boolNat p.truncated) ++ leBytes 4 0
    let (ts, cs) := placePassages b g false (at' + here.length) ps
    (here ++ ts, cite ++ cs)

/-- The prompt in template order, its citation entries, and where the question starts (07 R192). -/
def buildPrompt (b : List Byte) (question : List Nat) (placed : List Placed) : List PackSeg → List Nat → List Nat × List Byte × Nat
  | [], ts => (ts, [], noWhich)
  | g :: gs, ts =>
    match g.kind with
    | 0 => buildPrompt b question placed gs (ts ++ packPool b g.off g.count)
    | 1 =>
      let (here, cites) := placePassages b g true ts.length placed
      let (all, more, q) := buildPrompt b question placed gs (ts ++ here)
      (all, cites ++ more, q)
    | _ =>
      let (all, cites, _) := buildPrompt b question placed gs (ts ++ question)
      (all, cites, ts.length)

/-- Pack, on the seats of the re-rank hand, places candidates under the budget and builds the prompt, the header and the citation map; an
unrepaired fault of its stock kernel ends the command (01 R20, 07 R191 to R193). -/
def execPack (cmd : PackRun) (s : State) : Res :=
  .next (match s.pipe? cmd.cmd with
    | none => s
    | some p =>
      if p.stage ≠ 11 then s
      else
        let b := p.packBlock
        let question := if has (fun g => g.kind == 2) (packSegs b) then
          ((p.tokens.find? (fun x => x.1 == packDeck b)).map (fun x => x.2)).getD [] else []
        let fixed := packText b + question.length
        if fixed > packBudget b then s.failPipe cmd.cmd St.badParam
        else if s.noSeats then s.failPipe cmd.cmd St.aborted
        else if !s.handSeated p.rerankHand then s
        else if cmd.faulted then (s.stageFault p.tenant p.rerankHand).failPipe cmd.cmd St.aborted
        else
          match (packSegs b).find? (fun g => g.kind == 1) with
          | none => s
          | some g =>
            let f := fillBudget b g p.candidates
              { placed := [], fingerprints := [], room := packBudget b - fixed, dup := 0, skip := 0, truncated := false }
            let order := if packFlag b 1 then f.placed.reverse else f.placed
            let (prompt, cites, qs) := buildPrompt b question order (packSegs b) []
            let s := ((s.bumpBy 0x000F040C f.dup).bumpBy 0x000F0410 f.skip).bumpBy 0x000F0414 (boolNat f.truncated)
            let header := leBytes 4 prompt.length ++ leBytes 2 f.placed.length
              ++ leBytes 2 (boolNat f.truncated + 2 * boolNat p.queryCut + 4 * boolNat (p.lost > 0)) ++ leBytes 2 p.taken
              ++ leBytes 2 f.dup ++ leBytes 2 f.skip ++ leBytes 2 p.lost ++ leBytes 4 qs ++ leBytes 4 question.length
              ++ leBytes 4 (packBudget b - prompt.length) ++ leBytes 4 (64 + packMap b) ++ leBytes 8 p.snapshot ++ leBytes 24 0
            s.updPipe cmd.cmd (fun p => { p with
              out := header ++ cites, prompt := prompt, partial' := p.partial' || decide (p.lost > 0), stage := 12 }))

/-! ### Return (01 R24 to R28) -/

/-- The output is written, what it does not take being left as it was at intake, and undefined where another command in flight had the same range
(07 R194, notes/assumptions/7.md); then the completion entry; with GENERATE the citation map is written and the prompt handed to
a generation request (01 R24 to R28, 07 R192). -/
def execPipeReturn (cmd : Nat) (s : State) : Res :=
  .next (match s.pipe? cmd with
    | none => s
    | some p =>
      if p.stage ≠ 12 then s
      else
        let b := p.packBlock
        match s.outKey p with
        | none => (s.dropPipe cmd).reject cmd
        | some k =>
          let s := (s.wr k p.under).wr k p.out
          let s := if p.genBlock.isEmpty then s.wr (k + 64 + packMap b) (p.prompt.flatMap (leBytes 4)) else s
          let s := if p.shared then s.spoilOut p else s
          let status := if p.partial' then St.part else St.ok
          if p.genBlock.isEmpty then (s.dropPipe cmd).complete cmd status 0 0 0
          else if s.genBad p.tenant cmd p.genBlock || p.prompt.isEmpty then ((s.spoilOut p).dropPipe cmd).fail cmd St.badParam
          else
            let s := (s.updPipe cmd (fun p => { p with stage := 13 })).genAdmit cmd p.tenant p.genBlock p.prompt status s.noSeats
            if (s.cmd? cmd).isNone then ((s.pipes.filter (fun p => p.cmd == cmd)).foldl State.spoilOut s).dropPipe cmd else s)

end Sys2Proof.Machine
end

