-- ==== Sys2Proof/Machine/Objects.lean ====
section
/-!
DEFINITION. Loading and evicting objects: models, decks, automata, collections and embedding tables (18 R483, R484, R572,
04 R124, 05 R127 to R130, 08 R196, 09 R219, 11 R274 to R277, 12 R304 to R318, R573, 14 R373, 20 R528). Where pages of the
tenant's address space are mapped is notes/assumptions/24.md.
-/
namespace Sys2Proof.Machine

/-! ### Placing an object (04 R114 to R116, 12 R310, R316) -/

/-- The objects a tenant has mapped: their addresses and lengths. -/
def State.mapped (s : State) (t : Nat) : List (Nat × Nat) :=
  (s.models.filter (fun x => x.tenant == t)).map (fun x => (x.va.toNat, x.bytes.length))
    ++ (s.decks.filter (fun x => x.tenant == t)).map (fun x => (x.va.toNat, x.image.length))
    ++ (s.automata.filter (fun x => x.tenant == t)).map (fun x => (x.va.toNat, x.image.length))
    ++ (s.colls.filter (fun x => x.tenant == t)).map (fun x => (x.va.toNat, x.desc.bytes))

/-- The next address for an object: past every object of the tenant, in the upper half, on 2 MiB. -/
def State.nextVa (s : State) (t : Nat) : Nat := (s.mapped t).foldl (fun a x => max a (roundUp (x.1 + x.2) (2 ^ 21))) (2 ^ 47)

/-- Map the pages that hold kernel code in the lower half, to run from (04 R124, R125). -/
def State.mapCode (s : State) (t va : Nat) (codes : List (Nat × Nat)) : State :=
  let pages := dedup (codes.flatMap (fun c => (List.range (ceilDiv (c.1 + c.2) 65536 - c.1 / 65536)).map (fun i => c.1 / 65536 + i)))
  pages.foldl (fun s i =>
    let e := s.ptEntry t 0 (va + 65536 * i)
    s.mapPage t (va - 2 ^ 47 + 65536 * i) (e ||| 16)) s

/-- Bytes of an object from an offset, cut into stored blocks: where each begins, how long it is, and the block (12 R314, R315). -/
def plainBlocks (draw va t off : Nat) (b : List Byte) : List (Nat × Nat × Stored) :=
  ((List.range (ceilDiv b.length 65536)).zip (tierBlocksOf draw (va + off) t b)).map (fun x =>
    (off + 65536 * x.1, min 65536 (b.length - 65536 * x.1), x.2))

/-- Weights from an offset as encoded blocks, each padded to 64 bytes. The element format of a block is not in the image and is a free value; 3
stands for a format that is stored RAW (12 R316, notes/assumptions/6.md). -/
def codedBlocks (draw va t : Nat) : Nat → Nat → List (List Byte) → List (Nat × Nat × Stored)
  | _, _, [] => []
  | i, off, w :: ws =>
    let data := block64 w
    let fmt := Config.free draw i % 4
    let b := if fmt = 3 then blockHeader 0 0 (va + off) t data data ++ data else wStore fmt (va + off) t data
    (off, (pad64 b).length, weightStored b data) :: codedBlocks draw va t (i + 1) (off + (pad64 b).length) ws

/-- The stored blocks of a model whose weights are encoded: what stands before the weights, the weights, what stands behind them (12 R316). -/
def codecBlocks (draw va t : Nat) (b : List Byte) : List (Nat × Nat × Stored) :=
  let w := fieldOf b 0x58 8
  let n := fieldOf b 0x60 8
  let coded := codedBlocks (draw + 1) va t 0 w (chunks 65536 (n / 65536 + 1) ((b.drop w).take n))
  plainBlocks draw va t 0 (b.take w) ++ coded
    ++ plainBlocks (draw + 2) va t (w + sumNat (coded.map (fun x => x.2.1))) (b.drop (w + n))

/-- An object's T1 bytes, from its stored blocks. -/
def t1Bytes (l : List (Nat × Nat × Stored)) : List Byte := l.flatMap (fun x => x.2.2.t1 x.2.1)

/-- An offset of the image as it lies in the object's T1 bytes. -/
def Model.place (m : Model) (off : Nat) : Nat :=
  if fieldOf m.image 0x58 8 < off then off + m.bytes.length - m.image.length else off

/-! ### Header checks (18 R484, R572, 10 R243, 07 R186) -/

/-- Whether the fields of a model header are in range for its kind; `draft` for the header of 18 R572. -/
def mdlFieldsOk (b : List Byte) (kind : Nat) (draft : Bool) : Bool :=
  let dim := fieldOf b 0x14 2
  let ctx := mdlContext b
  let seq := fieldOf b 0x16 2
  decide (128 ≤ b.length) && fieldOf b 0 4 == 0x4C444F4D && fieldOf b 4 2 == 1 && fieldOf b 6 1 == kind && zeroRange b 0x1F 1
    && zeroRange b 0x54 4 && zeroRange b 0x78 8
    && (if draft then fieldOf b 7 1 == 0 && fieldOf b 0x40 8 == 0 && mdlDraftOff b == 0 && zeroRange b 0x1E 1 && zeroRange b 0x20 32
        else phasesOk b)
    && decide (1 ≤ fieldOf b 0x50 4) && decide (fieldOf b 0x50 4 ≤ 64) && fieldOf b 0x58 8 % 65536 == 0
    && decide (fieldOf b 0x58 8 + fieldOf b 0x60 8 ≤ b.length) && (kernels b).all (kernelOk b)
    && (if kind = 1 then decide (1 ≤ ctx) && decide (1 ≤ fieldOf b 0x10 2) && decide (1 ≤ fieldOf b 0x12 1) && decide (fieldOf b 0x13 1 ≤ 1)
          && (dim == 64 || dim == 128 || dim == 256) && decide (fieldOf b 0x1E 1 ≤ 8)
          && zeroRange b (0x20 + 4 * fieldOf b 0x1E 1) (32 - 4 * fieldOf b 0x1E 1)
        else zeroRange b 0x10 6 && zeroRange b 0x1E 1 && zeroRange b 0x20 32 && mdlDraftOff b == 0)
    && (if kind = 3 then ctx % 64 == 0 && decide (64 ≤ ctx) && decide (ctx ≤ 4096) && seq % 64 == 0 && decide (ctx ≤ seq) && decide (seq ≤ 16384)
          && decide (fieldOf b 0x68 8 + 4 * mdlOverhead b ≤ b.length)
        else zeroRange b 0x16 8 && zeroRange b 0x68 8)
    && (if kind = 4 then mdlDeck b == 0xFFFFFFFF && ctx == 0 else kind == 1 || decide (1 ≤ ctx))

/-- Every check of a model image before signatures, given the decks of its tenant (18 R484, R572). -/
def mdlOk (b : List Byte) (kind : Nat) (decks : List Deck) : Bool :=
  let below (ids : List Nat) : Bool := match decks.find? (fun d => d.number == mdlDeck b) with
    | some d => ids.all (fun t => decide (t < deckVocab d.image))
    | none => false
  let d := mdlDraft b
  mdlFieldsOk b kind false && (kind == 4 || below (mdlEnds b ++ (if kind = 3 then mdlTemplate b 0 (mdlOverhead b) else [])))
    && (mdlDraftOff b == 0 || (mdlFieldsOk d 1 true && mdlDeck d == mdlDeck b && decide (mdlContext b ≤ mdlContext d)))

/-- Whether every STOCK kernel of an image carries a signature that verifies over its header and code (20 R528). -/
def signaturesOk (b : List Byte) : Bool :=
  (kernels b).all (fun k =>
    let n := 32 + k.codeSize
    !k.stock || (k.sigLen == 64 && Config.verifies 0 ((b.drop k.off).take n) ((b.drop (k.off + n)).take 64)))

/-- Where the code of an image's kernels lies. -/
def codeRanges (b : List Byte) : List (Nat × Nat) :=
  (kernels b).map (fun k => (k.off + 32, k.codeSize))
    ++ (if mdlDraftOff b = 0 then [] else (kernels (mdlDraft b)).map (fun k => (mdlDraftOff b + k.off + 32, k.codeSize)))

/-! ### MODEL_LOAD (18 R483, R484) -/

/-- The lowest number below a limit that no object of a kind holds. -/
def freeNumber (limit : Nat) (used : List Nat) : Option Nat := (List.range limit).find? (fun n => !used.contains n)

/-- The bytes of a load, or the status that ends it (18 R468, R483, 13 R337). -/
def State.loadBytes (s : State) (c : Cmd) : List Byte ⊕ (State × Nat) :=
  let src := c.field 0x18 8
  let len := c.field 0x20 8
  if bitAt (c.field 0x11 1) 2 then
    let mine (o : Owner) : Bool := (List.range (ceilDiv (src % 65536 + len) 65536)).any (fun i => isSpace c.tenant (src / 65536 + i) o)
    if src + len > 2 ^ 48 then .inr (s, St.badParam)
    else if s.mediaLost mine then .inr (s.countLost mine, St.aborted)
    else .inl (s.spaceBytes c.tenant src len)
  else
    match s.resolve c.tenant src len 1 with
    | none => .inr (s, St.badParam)
    | some k => if s.poisoned k len then .inr (s, St.aborted) else .inl (s.rd k len)

/-- What a load of an object that passed its own checks takes: its number, its stored blocks, which give its bytes in T1, and its T1
charge. -/
structure Loading where
  kind : Nat
  number : Nat
  tiered : Bool
  codec : Bool
  blocks : List (Nat × Nat × Stored)
  va : Nat
  t1 : Nat
  deriving DecidableEq, Repr

/-- The owners of an object's stored blocks, with the blocks. -/
def Loading.owned (l : Loading) : List (Owner × Stored) := l.blocks.map (fun x => (.object l.kind l.number x.1 x.2.1, x.2.2))

/-- Store an object's blocks in host memory, every one or none (12 R310). -/
def State.hostPuts (s : State) (t : Nat) (l : List (Owner × Stored)) : Option State :=
  l.foldl (fun s x => s.bind (fun s => let (z, ok) := s.hostPut x.1 t x.2; if ok then some z else none)) (some s)

/-- Charge, store and map an object, or the status that ends the load: T1 and T2 quota, a TIERED object's T3 region where T2
is short, then sealed media, which leave nothing of it stored (12 R310, R315, R318, 13 R349). -/
def State.install (s : State) (t : Nat) (l : Loading) : State ⊕ (State × Nat) :=
  let charge := sumNat (l.blocks.map (fun x => x.2.2.charge))
  let x := s.tenant t
  let far : Option State :=
    if l.tiered && !x.t2.fits charge && x.t3.fits charge && s.cxl.mode ≠ .pcie then s.hostPuts t l.owned else none
  let stored : State ⊕ (State × Nat) := match far with
    | some z => .inl z
    | none =>
      if !x.t2.fits charge then .inr (s, St.quota)
      else if s.mediaRefuses then .inr (s.bump 0x000E0058, St.sealed)
      else
        let (z, n) := s.mediaPuts t l.owned
        if n = l.blocks.length then .inl z
        else .inr ((z.mediaFree (fun o => has (fun x => x.1 == o) l.owned)).bump 0x000E0058, St.sealed)
  if !x.t1.fits l.t1 then .inr (s, St.quota)
  else
    match stored with
    | .inr r => .inr r
    | .inl z =>
      let b := t1Bytes l.blocks
      let pages := ceilDiv b.length 65536
      let z := (z.chargeT1 t l.t1).placePages t l.va b (!l.tiered) (s.homeOrder l.kind) pages
      if !l.tiered then .inl z
      else
        let bs := (List.range pages).map (fun i =>
          ({ tenant := t, block := l.va / 65536 + i, kind := l.kind, number := l.number
             bytes := if l.codec then min 65536 (b.length - 65536 * i) else 65536
             present := false, dirty := false, home := if far.isSome then 3 else 2, lastUse := 0 } : TBlock))
        .inl (z.updTier (fun z => { z with blocks := z.blocks ++ bs }))

/-- Complete a load with its number, or with the status that ended it. -/
def State.loaded (s : State) (h number : Nat) (r : State ⊕ (State × Nat)) (add : State → State) : State :=
  match r with
  | .inl s => (add s).complete h St.ok 0 number 0
  | .inr (s', st) => let _ := s; s'.fail h st

/-- A model of kinds 1 to 4. -/
def State.loadModel (s : State) (h t kind : Nat) (tiered codec : Bool) (b : List Byte) : State :=
  if !mdlOk b kind (s.decks.filter (fun d => d.tenant == t && d.evicting.isNone)) then s.fail h St.badParam
  else if !signaturesOk b || (mdlDraftOff b ≠ 0 && !signaturesOk (mdlDraft b)) then (s.bump 0x00120018).fail h St.security
  else
    match freeNumber 256 (s.models.map (fun m => m.number)) with
    | none => s.fail h St.quota
    | some n =>
      let va := s.nextVa t
      let blocks := if codec then codecBlocks s.fresh va t b else plainBlocks s.fresh va t 0 b
      let s := s.drawN 3
      let bytes := t1Bytes blocks
      let t1 := if tiered then 0 else if codec then bytes.length else roundUp bytes.length 65536
      s.loaded h n (s.install t { kind := kind, number := n, tiered := tiered, codec := codec, blocks := blocks, va := va, t1 := t1 })
        (fun s =>
          let m : Model := { number := n, kind := kind, tenant := t, image := b, bytes := bytes, tiered := tiered
                             va := BitVec.ofNat 64 va, t1Bytes := t1, evicting := none }
          ({ s with models := s.models ++ [m] } : State).mapCode t va ((codeRanges b).map (fun c => (m.place c.1, c.2))))

/-- A deck (08 R196). -/
def State.loadDeck (s : State) (h t : Nat) (tiered : Bool) (b : List Byte) : State :=
  if !deckOk b then s.fail h St.badParam
  else
    match freeNumber 128 (s.decks.map (fun d => d.number)) with
    | none => s.fail h St.quota
    | some n =>
      let va := s.nextVa t
      let t1 := if tiered then 0 else roundUp b.length 65536
      let blocks := plainBlocks s.fresh va t 0 b
      let s := s.draw
      s.loaded h n (s.install t { kind := 6, number := n, tiered := tiered, codec := false, blocks := blocks, va := va, t1 := t1 }) (fun s =>
        ({ s with decks := s.decks ++ [{ number := n, tenant := t, image := b, fffd := deckFffd b, va := BitVec.ofNat 64 va
                                         t1Bytes := t1, evicting := none }] } : State).pinDeck)

/-- An automaton (09 R219). -/
def State.loadAutomaton (s : State) (h t : Nat) (tiered : Bool) (b : List Byte) : State :=
  if !autOk b (s.decks.find? (fun d => d.number == autDeck b && d.tenant == t && d.evicting.isNone)) then s.fail h St.badParam
  else
    match freeNumber 256 (s.automata.map (fun d => d.number)) with
    | none => s.fail h St.quota
    | some n =>
      let va := s.nextVa t
      let t1 := if tiered then 0 else roundUp b.length 65536
      let blocks := plainBlocks s.fresh va t 0 b
      let s := s.draw
      s.loaded h n (s.install t { kind := 7, number := n, tiered := tiered, codec := false, blocks := blocks, va := va, t1 := t1 }) (fun s =>
        { s with automata := s.automata ++ [{ number := n, tenant := t, image := b, va := BitVec.ofNat 64 va, t1Bytes := t1
                                              evicting := none }] })

/-- A collection: BAD_PARAM, then UNIT_ABSENT on the 9706, then the numbers, the list directory and the quotas; it takes a
contiguous range of the directory, and its counters clear (05 R127 to R130, R133, R159). -/
def State.loadCollection (s : State) (h t : Nat) (tiered : Bool) (b : List Byte) : State :=
  let d := collDescOf b
  if !collDescOk b then s.fail h St.badParam
  else if s.variant = .v9706 && (d.farLimit ≠ 0 || d.t1ListBytes ≠ 0) then s.fail h St.unitAbsent
  else
    match freeNumber 64 (s.colls.map (fun x => x.number)) with
    | none => s.fail h St.quota
    | some n =>
      if s.dirLen + d.lists > 2 ^ 24 then s.fail h St.quota
      else
        let va := s.nextVa t
        let image := b.take d.bytes
        let t1 := if tiered then 0 else roundUp d.bytes 65536
        let blocks := plainBlocks s.fresh va t 0 image
        let s := s.draw
        s.loaded h n (s.install t { kind := 5, number := n, tiered := tiered, codec := false, blocks := blocks, va := va, t1 := t1 })
          (fun s =>
            let (s, base) := s.dirPlace d.lists
            let x : Collection := { number := n, tenant := t, desc := d, image := image, lists := [], items := [], published := 0
                                    nextEpoch := 1, epochs := [], appends := [], compacting := [], compactCmds := []
                                    compactSkipped := false, evicting := none, va := BitVec.ofNat 64 va, t1Bytes := t1
                                    dirBase := base }
            { s with colls := s.colls ++ [x], dirLen := s.dirLen + d.lists
                     ctr := s.ctr.filter (fun c => !(decide (collReg n 0 ≤ c.1) && decide (c.1 < collReg (n + 1) 0))) })

/-- A table as it is loaded: without rows, its slots dealt over its members, and its first generation that of an empty table (11 R274 to R280,
R296). -/
def EmbTable.start (t number : Nat) (d : List Byte) : EmbTable :=
  let g : EmbGen := { step := 0, remap := embMembers d, emptySlots := [], rows := [] }
  { number := number, tenant := t, desc := d, digest := embDigest d, remap := g.remap, emptySlots := [], rows := [], steps := [], applied := 0
    seen := [], sinceCkpt := 0, ckpt := g, ckptGen := 0, ckptDue := none, ckptNew := none, unbuilt := [], nextStep := 0, t1Bytes := 0
    remote := [] }

/-- An embedding table: its descriptor, the remap table over its members, and the checkpoint area of two generations, the
first of which is written empty (11 R274 to R280, R296, notes/assumptions/23.md). -/
def State.loadTable (s : State) (h t number : Nat) (b : List Byte) : State :=
  let d := b.take 64
  if !embDescOk (s.variant.links + 1) number d || (s.table? number).isSome then s.fail h St.badParam
  else
    let x := EmbTable.start t number d
    let blocks := x.genBlocks s.fresh 0 x.ckpt
    let s := s.draw
    if !(s.tenant t).t2.fits (2 * sumNat (blocks.map (fun x => x.2.charge))) then s.fail h St.quota
    else if s.mediaRefuses then (s.bump 0x000E0058).fail h St.sealed
    else
      let (z, n) := s.mediaPuts t blocks
      if n < blocks.length then ((z.mediaFree (fun o => has (fun b => b.1 == o) blocks)).bump 0x000E0058).fail h St.sealed
      else (z.updEmbed (fun y => { y with tables := y.tables ++ [x] })).complete h St.ok 0 number 0

/-- MODEL_LOAD: the object is read and checked, then loaded (18 R483, R484). -/
def execModelLoad (cmd : Nat) (s : State) : Res :=
  .next (match s.cmdAt cmd 0x0301 0 with
    | none => s
    | some c =>
      let kind := c.field 0x10 1
      let len := c.field 0x20 8
      let number := c.field 0x14 4
      if s.flash.stopped then s
      else if kind < 1 || kind > 8 || len < 64 || len > 2 ^ 40 || (kind ≠ 8 && number ≠ 0) then s.fail cmd St.badParam
      else
        match s.loadBytes c with
        | .inr (s, st) => s.fail cmd st
        | .inl b =>
          let tiered := bitAt (c.field 0x11 1) 0
          match kind with
          | 5 => s.loadCollection cmd c.tenant tiered b
          | 6 => s.loadDeck cmd c.tenant tiered b
          | 7 => s.loadAutomaton cmd c.tenant tiered b
          | 8 => s.loadTable cmd c.tenant number b
          | _ => s.loadModel cmd c.tenant kind tiered (bitAt (c.field 0x11 1) 1) b)

/-! ### Removing an object (12 R318, R321, 14 R373) -/

/-- Unmap an object and free its T1 and home storage; its charges are released once. -/
def State.unplace (s : State) (t kind number va len t1 : Nat) : State :=
  let mine (x : TBlock) : Bool := x.tenant == t && x.kind == kind && x.number == number
  let resident := sumNat ((s.tier.blocks.filter (fun x => mine x && x.present)).map (fun x => x.bytes))
  let gone (b : Nat) : Bool := decide (va / 65536 ≤ b) && decide (65536 * b < va + len)
  let owned (o : Owner) : Bool := match o with | .object k n _ _ => k == kind && n == number | _ => false
  let s := (s.freePages t va (ceilDiv len 65536)).releaseT1 t (t1 + resident)
  let s := s.updTier (fun z => { z with
    blocks := z.blocks.filter (fun x => !mine x), queue := z.queue.filter (fun q => !(q.1 == t && gone q.2))
    failed := z.failed.filter (fun f => !(f.tenant == t && gone f.block)) })
  (s.hostFree owned).mediaFree owned

/-- Free a model. -/
def State.freeModel (s : State) (n : Nat) : State :=
  match s.models.find? (fun m => m.number == n) with
  | none => s
  | some m =>
    { s.unplace m.tenant m.kind n m.va.toNat m.bytes.length m.t1Bytes with
      models := s.models.filter (fun x => x.number ≠ n)
      hands := s.hands.map (fun h => if h.model = some n then { h with slices := [] } else h) }

/-- Free a deck and its cached lines. -/
def State.freeDeck (s : State) (n : Nat) : State :=
  match s.decks.find? (fun m => m.number == n) with
  | none => s
  | some m =>
    { s.unplace m.tenant 6 n m.va.toNat m.image.length m.t1Bytes with
      decks := s.decks.filter (fun x => x.number ≠ n), deckCache := s.deckCache.filter (fun x => x.1 ≠ n) }

/-- Free an automaton and its cached masks (09 R230). -/
def State.freeAutomaton (s : State) (n : Nat) : State :=
  match s.automata.find? (fun m => m.number == n) with
  | none => s
  | some m =>
    { s.unplace m.tenant 7 n m.va.toNat m.image.length m.t1Bytes with
      automata := s.automata.filter (fun x => x.number ≠ n), maskCache := s.maskCache.filter (fun x => x.automaton ≠ n)
      imageBuf := s.imageBuf.filter (fun x => x.1 ≠ n), imageBad := s.imageBad.filter (fun x => x.1 ≠ n) }

/-- T1 bytes a collection's lists, resident vectors, tombstone blocks and rewrites hold beside its sections. -/
def Collection.listBytes (x : Collection) : Nat :=
  x.t1Lists + x.t1Tombs + sumNat (x.lists.map (fun y => (y.rewriting.map (fun r => r.t1)).getD 0))

/-- Free a collection: sections, lists, rewrites, old copies, items and their media. -/
def State.freeCollection (s : State) (n : Nat) : State :=
  match s.coll? n with
  | none => s
  | some x =>
    let t := x.tenant
    let pages := (x.lists.flatMap (fun y => y.pages ++ y.tombPages)).filter (· ≠ 0)
    let s := (s.unplace t 5 n x.va.toNat x.desc.bytes x.t1Bytes).releaseT1 t x.listBytes
    let s := (pages.foldl (fun s p => s.freePages t p 1) s).releaseT2 t (sumNat (x.lists.map (fun y => (y.rewriting.map (fun r => r.t2)).getD 0)))
    let s := (s.freeCopies (fun o => o.coll == n)).mediaFree (fun o => match o with
      | .seg c _ _ => c == n
      | .items c _ _ => c == n
      | _ => false)
    { s with colls := s.colls.filter (fun y => y.number ≠ n), dirLen := s.dirLen - x.desc.lists }

/-- Evict a table: open steps are discarded and counted, its rows, cache lines and checkpoints freed (11 R299). -/
def State.freeTable (s : State) (n : Nat) : State :=
  match s.table? n with
  | none => s
  | some t =>
    let lost := sumNat (t.steps.map (fun o => o.sums.length + o.rows.length))
    let s := ((s.bumpBy 0x000C003C lost).releaseT1 t.tenant t.t1Bytes).mediaFree (fun o => match o with | .table k _ _ => k == n | _ => false)
    s.updEmbed (fun z => { z with
      tables := z.tables.filter (fun x => x.number ≠ n), cache := z.cache.filter (fun x => x.1 ≠ n)
      cacheBad := z.cacheBad.filter (fun x => x.1 ≠ n) })

/-! ### MODEL_EVICT (14 R373, 08 R216, 09 R236, 10 R268) -/

/-- Unit issues of a tenant at a unit, which may still use an object of it. -/
def State.issuesAt (s : State) (t unit : Nat) : List IssueKey :=
  (s.issues.filter (fun u => u.tenant == t && u.unit == unit)).map (fun u => u.key)

/-- Whether a command past intake before another names an object (14 R373, 05 R157, 08 R216). -/
def State.names (s : State) (kind number h : Nat) (c : Cmd) : Bool :=
  let p := s.pipe? c.handle
  let pack (q : Pipe) (off : Nat) : Nat := fieldOf q.packBlock off 4
  let models (q : Pipe) : List Nat := pack q 0 :: (match s.coll? q.coll with | some x => [x.desc.embedModel] | none => [])
  let decks (q : Pipe) : List Nat :=
    pack q 0xC :: (s.models.filter (fun m => (models q).contains m.number)).map (fun m => mdlDeck m.image)
  let gen : Option GenParams := if c.opcode = 0x0601 && c.stage = 0 then
      (match s.genRead c.tenant (c.field 0x10 8) with | .inl b => some (genParams b) | .inr _ => none)
    else p.bind (fun q => if q.genBlock.isEmpty then none else some (genParams q.genBlock))
  let live := s.serving.reqs.find? (fun r => r.cmd == c.handle)
  let genModel := match live with | some r => some r.model | none => gen.map (fun g => g.model)
  let genAut := match live with | some r => r.automaton | none => gen.bind (fun g => g.automaton)
  decide (c.handle < h) && (match kind with
    | 5 => ((c.opcode == 0x0401 || c.opcode == 0x0402 || c.opcode == 0x0403 || c.opcode == 0x0404 || c.opcode == 0x0501)
        && c.field 0x10 2 == number)
    | 6 => (c.opcode == 0x0402 && c.field 0x18 4 == number) || (match p with | some q => (decks q).contains number | none => false)
    | 7 => genAut == some number
    | _ => (c.opcode == 0x0304 && c.field 0x14 4 == number) || genModel == some number || (match p with | some q => (models q).contains number | none => false))

/-- MODEL_EVICT: refused while a live request or a loaded object needs the object, otherwise the object takes no new user
and goes when the last has finished; a table goes at once (14 R373, 18 R484, 08 R216, 09 R236, 10 R268, 11 R299). -/
def execModelEvict (cmd : Nat) (s : State) : Res :=
  .next (match s.cmdAt cmd 0x0302 0 with
    | none => s
    | some c =>
      let kind := c.field 0x10 1
      let n := c.field 0x14 4
      let t := c.tenant
      let mark (is : List IssueKey) : Option Evict := some { cmd := cmd, issues := is }
      let wait (s : State) : State := s.updCmd cmd (fun c => { c with stage := 1 })
      match kind with
      | 5 =>
        if has (fun x => x.number == n && x.tenant == t && x.evicting.isNone) s.colls then
          wait (s.updColl n (fun x => { x with evicting := mark (s.issuesAt t 1) }))
        else s.fail cmd St.badParam
      | 6 =>
        let used := has (fun m => m.tenant == t && m.kind != 4 && mdlDeck m.image == n) s.models
          || has (fun a => a.tenant == t && autDeck a.image == n) s.automata
        if used || !has (fun x => x.number == n && x.tenant == t && x.evicting.isNone) s.decks then s.fail cmd St.badParam
        else wait { s with decks := updWhere (fun x => x.number == n) (fun x => { x with evicting := mark (s.issuesAt t 3 ++ s.issuesAt t 4) }) s.decks }
      | 7 =>
        let used := has (fun r => r.tenant == t && r.automaton == some n) s.serving.reqs
        if used || !has (fun x => x.number == n && x.tenant == t && x.evicting.isNone) s.automata then s.fail cmd St.badParam
        else wait { s with
          automata := updWhere (fun x => x.number == n) (fun x => { x with evicting := mark (s.issuesAt t 5) }) s.automata }
      | 8 =>
        match s.tableFor t n with
        | none => s.fail cmd St.badParam
        | some _ => (s.freeTable n).fail cmd St.ok
      | _ =>
        let used := has (fun r => r.tenant == t && r.model == n) s.serving.reqs
        let mine (x : Model) : Bool := x.number == n && x.tenant == t && x.kind == kind
        if has (fun x => mine x && x.evicting.isSome) s.models then s.fail cmd St.notResident
        else if used || kind < 1 || kind > 4 || !has mine s.models then s.fail cmd St.badParam
        else wait { s with models := updWhere (fun x => x.number == n) (fun x => { x with evicting := mark [] }) s.models })

/-- The eviction an object waits under. -/
def State.evictOf (s : State) (kind number : Nat) : Option Evict :=
  match kind with
  | 5 => (s.coll? number).bind (fun x => x.evicting)
  | 6 => (s.decks.find? (fun x => x.number == number)).bind (fun x => x.evicting)
  | 7 => (s.automata.find? (fun x => x.number == number)).bind (fun x => x.evicting)
  | _ => (s.models.find? (fun x => x.number == number && x.kind == kind)).bind (fun x => x.evicting)

/-- Free an object of a kind. -/
def State.freeObject (s : State) (kind number : Nat) : State :=
  match kind with
  | 5 => s.freeCollection number
  | 6 => s.freeDeck number
  | 7 => s.freeAutomaton number
  | 8 => s.freeTable number
  | _ => s.freeModel number

/-- EVICTION_COMPLETE: the last user of an evicted object has finished; it is freed and its MODEL_EVICT completes (14 R373). -/
def execEvictionComplete (kind number : Nat) (s : State) : Res :=
  .next (match s.evictOf kind number with
    | none => s
    | some e =>
      let users := s.cmds.any (s.names kind number e.cmd) || e.issues.any (fun k => (s.issue? k).isSome)
        || has (fun (q : Query) => kind == 5 && q.coll == number) s.search.queries
      if users then s else (s.freeObject kind number).fail e.cmd St.ok)

end Sys2Proof.Machine
end

