-- ==== Sys2Proof/Machine/Residency.lean ====
section
/-!
DEFINITION. Residency: T1 that a die cannot absorb is re-placed page by page, absent pages are fetched, and lines whose tags fail are repaired (12
R308, R309, R311, R312, 15 R400, R401). The choices are notes/assumptions/25.md and 27.md.
-/
namespace Sys2Proof.Machine

/-! ### Work that waits for what is repaired (01 R25, 12 R308) -/

/-- Mark the requests that a test picks. -/
def State.recoverReqs (s : State) (p : Request → Bool) : State :=
  s.updServing (fun z => { z with reqs := updWhere (fun r => r.ended.isNone && p r) (fun r => { r with stepRecovered := true, recovered := true }) z.reqs })

/-- Mark the pipelines, the unit issues and the queries that a test picks. -/
def State.recoverPipes (s : State) (p : Pipe → Bool) : State := (s.pipes.filter p).foldl (fun s q => s.recovered q.cmd) s
def State.recoverIssues (s : State) (p : UnitIssue → Bool) : State := { s with issues := updWhere p (fun u => { u with recovered := true }) s.issues }
def State.recoverQueries (s : State) (p : Query → Bool) : State :=
  s.updSearch (fun z => { z with queries := updWhere p (fun q => { q with recovered := true }) z.queries })

/-- Mark the work that waits for an object, which the state holds as the work that is using it (DESIGN CHOICE, notes/assumptions/25.md). -/
def State.recoverObject (s : State) (t kind n : Nat) : State :=
  match kind with
  | 5 => s.recoverQueries (fun q => q.coll == n)
  | 6 =>
    let deckOf (r : Request) : Option Nat := (s.models.find? (fun m => m.number == r.model)).map (fun m => mdlDeck m.image)
    ((s.recoverReqs (fun r => deckOf r == some n)).recoverPipes (fun p => p.tenant == t && p.stage == 1)).recoverIssues
      (fun u => u.tenant == t && ((u.unit == 3 || u.unit == 4) && fieldOf u.body 0 4 == n))
  | 7 => (s.recoverReqs (fun r => r.tenant == t && r.automaton == some n)).recoverIssues
      (fun u => u.tenant == t && u.unit == 5 && fieldOf u.body 0 4 == n)
  | _ =>
    let s := (s.invs.filter (fun v => v.tenant == t && v.model == n)).foldl (fun s v => s.recovered v.cmd) s
    (s.recoverReqs (fun r => r.tenant == t && r.model == n)).recoverPipes (fun p => p.tenant == t
      && ((p.stage == 2 && (s.embedModel p).map (fun m => m.number) == some n) || (p.stage == 10 && (s.crossModel p).map (fun m => m.number) == some n)))

/-- Mark the work that waits for a page. -/
def State.recoverPage (s : State) (t b : Nat) : State :=
  let s := (s.pageWaiters t b).foldl (fun s v => s.recovered v.cmd) s
  match s.pageHolds t b with
  | .object o => s.recoverObject t o.kind o.number
  | .seg c _ _ => s.recoverQueries (fun q => q.coll == c)
  | .tomb c _ _ => s.recoverQueries (fun q => q.coll == c)
  | .kv f => s.recoverReqs (fun r => r.pages.contains f)
  | .other => s

/-! ### Frames and pages (15 R401) -/

/-- The surviving die with the most free T1, if any has a free frame; ties go to the lowest number (15 R401). -/
def State.roomiest (s : State) : Option Nat :=
  (List.range 4).foldl (fun (best : Option Nat) d =>
    if s.dieFree d = 0 then best
    else match best with
      | none => some d
      | some b => if s.dieFree b < s.dieFree d then some d else best) none

/-- Whether an entry maps a frame of a die (04 R116). -/
def mapsFrame (home frame : Nat) (e : PtKey × Addr) : Bool :=
  e.1.level == 0 && entryT1 e.2.toNat && bits e.2.toNat 10 9 == home && bits e.2.toNat 51 16 == frame

/-- The frames of a die that pages are mapped to, the HDM window's apart. -/
def State.framesOf (s : State) (d : Nat) : List Nat :=
  dedup ((s.pt.filter (fun e => e.1.level == 0 && entryT1 e.2.toNat && bits e.2.toNat 10 9 == d && decide (65536 * bits e.2.toNat 51 16 < hdmBase))).map
    (fun e => bits e.2.toNat 51 16))

/-- The page of a tenant that stands for a frame, with what it holds. -/
def State.framePage (s : State) (d frame : Nat) : Option (Nat × Nat) :=
  (s.pt.find? (mapsFrame d frame)).map (fun e => (e.1.tenant, s.canon e.1.tenant e.1.path))

/-- An entry that maps another frame, absent or present. -/
def remapEntry (e : Addr) (home frame : Nat) (present : Bool) : Addr :=
  let w := e.toNat
  ptLeaf (bitAt w 2) (bitAt w 3) (bitAt w 4) (bitAt w 5) present 0 home (65536 * frame)

/-- Whether a page's content has no source: a dirty TIERED block, or what nothing else can give (12 R308). -/
def State.sourceless (s : State) (t b : Nat) : Bool :=
  s.pageHolds t b == .other || (match s.block? t b with | some x => x.present && x.dirty | none => false)

/-- A resident TIERED block without a frame is away, and its T1 bytes are free. -/
def State.blockAway (s : State) (t b : Nat) : State :=
  match s.block? t b with
  | some x => if x.present then s.dropBlock x else s
  | none => s

/-- Map the pages of a frame to a new frame of a die: absent where their content has a source, poisoned where it has none; a
resident TIERED block is absent again (15 R401). -/
def State.moveFrame (s : State) (d frame dest : Nat) : State :=
  match s.framePage d frame with
  | none => s
  | some (t, b) =>
    let lost := s.sourceless t b
    let s := if lost then s else s.blockAway t b
    let (s, home, new) := s.takeFrame [dest]
    let s : State := { s with pt := s.pt.map (fun e => if mapsFrame d frame e then (e.1, remapEntry e.2 home new lost) else e) }
    let s := s.updTier (fun z => { z with homed := z.homed.modify d (· - 65536) })
    if lost then s.poisonPage ((Space.t1 home).key (65536 * new)) else s

/-- A page without a free frame is absent where it was (15 R401). -/
def State.strandFrame (s : State) (d frame : Nat) : State :=
  match s.framePage d frame with
  | none => s
  | some (t, b) => (s.blockAway t b).setPresent t b false

/-- Re-place one frame (15 R401). -/
def State.replaceFrame (s : State) (d frame : Nat) : State :=
  match s.roomiest with
  | some dest => s.moveFrame d frame dest
  | none => s.strandFrame d frame

/-- A KV page is rebuilt from its request's token log where its pages of T1 now lie; those on a lost die stay absent (10 R246, 15 R401). -/
def State.rebuildFrame (s : State) (f : Nat) : State :=
  match s.frame? f with
  | none => s
  | some x =>
    let blocks := (List.range x.pages).map (fun i => x.va / 65536 + i)
    let there (s : State) (b : Nat) : Bool := !s.dieLost (bits (s.ptEntry x.tenant 0 (65536 * b)).toNat 10 9)
    let s := (blocks.filter (there s)).foldl (fun s b => (s.wrPage (s.frameKey x.tenant b) []).setPresent x.tenant b true) s
    let s := s.recomputeKv (s.frameImage x.tenant x.model) f
    let s := s.updFrame f (fun y => { y with die := bits (s.ptEntry x.tenant 0 x.va).toNat 10 9 })
    (s.bump 0x000B0078).recoverReqs (fun r => r.pages.contains f)

/-- Re-place what a test picks of a die's T1: mapped pages, KV pages, embedding rows (15 R401). Which rows and, for one channel,
which pages lie there is the module's own; `pick` is given a number for each. -/
def State.replaceT1 (s : State) (d : Nat) (pick pickRow : Nat → Bool) : State :=
  let l := (s.framesOf d).filter pick
  let kvs := dedup (l.filterMap (fun f => (s.framePage d f).bind (fun p => match s.pageHolds p.1 p.2 with | .kv x => some x | _ => none)))
  let s := kvs.foldl State.rebuildFrame (l.foldl (fun s f => s.replaceFrame d f) s)
  s.embed.tables.foldl (fun (s : State) (t : EmbTable) =>
    (t.rows.filter (fun r => pickRow (t.number * 2 ^ 50 + r.id))).foldl (fun (s : State) (r : EmbRow) => s.revertRow t.number r.id) s) s

/-! ### Accesses to absent pages (12 R311, 15 R401) -/

/-- An access to a page that was re-placed without a free frame: one is taken now, for which a resident TIERED block of the tenant makes room;
without one the access ends with ABORTED_FAULT (15 R401). -/
def State.demandReplaced (s : State) (t b : Nat) : State :=
  let w := (s.ptEntry t 0 (65536 * b)).toNat
  let d := bits w 10 9
  if !s.absentAt t b || !s.dieLost d then s
  else
    let s := match s.roomiest, s.victim t [] with
      | none, some x => s.evictBlock x
      | _, _ => s
    match s.roomiest with
    | some dest => s.moveFrame d (bits w 51 16) dest
    | none => (s.fltBump 0x000F0050 (holderId 7 t) 0 b).failFetch t b St.aborted

/-- DEMAND_FETCH: the first access to an absent page queues it for fetch, a re-placed page without a frame being given one first (12 R311 step 1,
15 R401). -/
def execDemandFetch (tenant block : Nat) (s : State) : Res :=
  .next (
    if !s.up then s
    else
      let b := s.canon tenant block
      let s := s.demandReplaced tenant b
      if s.dieLost (bits (s.ptEntry tenant 0 (65536 * b)).toNat 10 9) then s else s.queueFetch tenant b)

/-- A page at the head of its class is brought into T1: a TIERED block once the tenant's T1 holds it, a KV page computed anew, any other from its
source; a stored block that fails its checks is rebuilt from media or, in host memory, leaves its page poisoned (12 R311 steps 2 to 4, R314, R318,
13 R350, 15 R401). -/
def State.fetchPage (s : State) (t b : Nat) (checksPass : Bool) : State :=
  let done (s : State) : State := s.updTier (fun z => { z with queue := z.queue.filter (fun q => q ≠ (t, b)) })
  let mended (s : State) : State := if checksPass then s else s.recoverPage t b
  match s.block? t b, s.pageHolds t b with
  | some x, _ =>
    let (s, room) := State.makeRoom t x.bytes [] (s.tier.blocks.length + 1) s
    if !room then let (s, st) := s.noRoom t; s.failFetch t b st
    else if x.home = 3 then done (s.bringIn x (!checksPass || s.pageBad t b)).1
    else done ((mended s).bringIn x false).1
  | none, .kv f => done ((s.rebuildFrame f).wakePage t b)
  | none, .other => done (((s.setPresent t b true).poisonPage (s.frameKey t b)).wakePage t b)
  | none, _ => done ((mended s).fillPage t b)

/-- FETCH_COMPLETE of the demand fetch at the head of its class (12 R312); it waits while its frame's channels are re-homed, and ends its
waiters where the media lost the page (12 R321, 13 R329, R337). Evictions that were asked for follow when no fetch is left (12 R312). -/
def execFetchComplete (tenant block : Nat) (checksPass : Bool) (s : State) : Res :=
  let b := s.canon tenant block
  .next (
    if !s.up || s.tier.queue.head? ≠ some (tenant, b) then s
    else if !s.absentAt tenant b then (s.updTier (fun z => { z with queue := z.queue.filter (fun q => q ≠ (tenant, b)) })).settleEvictions
    else if s.frameStalls tenant b then s
    else if s.pageLost tenant b then ((s.countPageLost tenant b).failFetch tenant b St.aborted).settleEvictions
    else (s.fetchPage tenant b checksPass).settleEvictions)

/-! ### Tag failures (12 R308) -/

/-- What a T1 line holds (12 R308). Lines past the byte spaces stand for what the module keeps in its own form: embedding rows, ledger lines,
stock-kernel scratch, passage scratch and the flash map (notes/assumptions/25.md). -/
inductive LineHolds
  | page (tenant block : Nat)
  | row (table id : Nat)
  | ledger (line : Nat)
  | scratch (seat : Nat)
  | passages (cmd : Nat)
  | flashMap
  | other
  deriving DecidableEq, Repr

/-- What a line holds. -/
def State.lineHolds (s : State) (line : Nat) : LineHolds :=
  let key := 128 * line
  let off := key % 2 ^ 64
  match key / 2 ^ 64 with
  | 10 => .row (off / 2 ^ 56) (off % 2 ^ 56 / 128)
  | 11 => .ledger (off / 128)
  | 13 => .scratch (off / 128)
  | 14 => .passages (off / 128)
  | 15 => .flashMap
  | _ =>
    match s.pt.find? (fun e => e.1.level == 0 && entryT1 e.2.toNat && entryKey e.2.toNat == key / 65536 * 65536) with
    | some e => .page e.1.tenant (s.canon e.1.tenant e.1.path)
    | none => .other

/-- Poison a line (12 R308). -/
def State.poisonLine (s : State) (line : Nat) : State :=
  let s := (s.bump 0x000D0024).updTier (fun z => { z with poison := if z.poison.contains line then z.poison else z.poison ++ [line] })
  s.updFlt (fun f => { f with sticky := f.sticky ||| 0x80 })

/-- Repair a line of a page: its 64 KiB are read again from the home copy, a KV page is computed anew, and what has no sound copy is poisoned
(12 R308, 13 R329). -/
def State.repairPage (s : State) (line t b : Nat) : State :=
  match s.pageHolds t b with
  | .kv f => s.rebuildFrame f
  | .other => s.poisonLine line
  | _ =>
    if s.sourceless t b then s.poisonLine line
    else if s.pageLost t b then (s.countPageLost t b).poisonLine line
    else if s.pageBad t b then (s.bump 0x000D0028).poisonLine line
    else ((s.bump 0x000D001C).wrPage (s.frameKey t b) [(0, s.pageSource t b)]).recoverPage t b

/-- T1_LINE_REPAIR_DONE: a line whose tag failed is repaired by its content, and counted (12 R308); a line of the flash map is made again from
journal and trailers (13 R353). -/
def execT1LineRepairDone (line : Nat) (s : State) : Res :=
  .next (if !s.up then s
    else
      let s := s.bump 0x000D0018
      match s.lineHolds line with
      | .page t b => s.repairPage line t b
      | .row t id => s.revertRow t id
      | .ledger l => (s.bump 0x000D001C).recoverReqs (fun r => r.tenant == l / 8192 && r.account / 8 == l % 8192)
      | .scratch g =>
        match (s.seat g).inv.bind (fun n => s.inv? n) with
        | some v => if v.stock then ((s.bump 0x000D0020).rerunSeat g (2 ^ 15)).recovered v.cmd else s.poisonLine line
        | none => s.poisonLine line
      | .passages h => if (s.pipe? h).isSome then (s.bump 0x000D001C).recovered h else s.poisonLine line
      | .flashMap => s
      | .other => s.poisonLine line)

end Sys2Proof.Machine
end

