-- ==== Sys2Proof/Machine/Cancel.lean ====
section
/-!
DEFINITION. Moving, suspending and cancelling work: seats that stop at a boundary, save areas, FREE_HAND and the tenant reset
(14 R365 to R368, R379, 18 R491, 01 R27, 05 R152). The choices are notes/assumptions/22.md.
-/
namespace Sys2Proof.Machine

/-! ### Seats that stop (14 R365, R367) -/

/-- A seat stops: a tile under repair is the oldest set again, and its MDRAIN will issue again (14 R365). -/
def Seat.halted (x : Seat) : Seat :=
  match x.repair with
  | none => x
  | some r => { x with
      repair := none, sets := r.tile :: x.sets
      ctxs := x.ctxs.modify r.drain.ctx (fun k => { k with wait := .none }) }

/-- A seat without work. -/
def Seat.emptied (x : Seat) : Seat :=
  { x with
    ctxs := List.replicate 64 .idle, sets := [], queue := [], repair := none, inv := none, dmaLines := [], storedWords := []
    writes := [], mark := none, tail := ⟨none, false, none⟩ }

/-- Unit issues of a seat go on under another number (14 R365). -/
def State.renameSeat (s : State) (a b : Nat) : State :=
  let ren (k : IssueKey) : IssueKey := if k.seat = a then { k with seat := b } else k
  let evict (e : Option Evict) : Option Evict := e.map (fun v => { v with issues := v.issues.map ren })
  { s with
    issues := s.issues.map (fun u => { u with key := ren u.key })
    selections := s.selections.map (fun x => { x with key := ren x.key })
    search := { s.search with queries := s.search.queries.map (fun q => { q with issue := q.issue.map ren }) }
    embed := { s.embed with waiting := s.embed.waiting.map (fun w => { w with
      who := match w.who with | .issue k => .issue (ren k) | .cmd h => .cmd h }) }
    colls := s.colls.map (fun x => { x with evicting := evict x.evicting })
    decks := s.decks.map (fun x => { x with evicting := evict x.evicting })
    automata := s.automata.map (fun x => { x with evicting := evict x.evicting }) }

/-- Take every rank of an invocation off its seats: contexts, accumulators, matrix queues and the first `kept` bytes of the seat buffers (14 R366,
R367). -/
def State.liftInv (s : State) (n kept : Nat) : State :=
  match s.inv? n with
  | none => s
  | some v =>
    let saved := v.seats.map (fun g =>
      let x := (s.seat g).halted
      ({ ctxs := x.ctxs, sets := x.sets, queue := x.queue, sbuf := (s.sbuf g).filter (fun c => decide (c.1 < kept)), kept := kept
         die := g / 88 } : SavedSeat))
    let s := ((List.range v.seats.length).zip v.seats).foldl (fun s x =>
      (s.updSeat x.2 Seat.emptied).renameSeat x.2 (parkedSeat n x.1)) s
    s.updInv n (fun v => { v with saved := some saved, seats := [] })

/-- Put an invocation's ranks on seats, rank i on the i-th, loads that were in flight issued again, and let go on what can (14 R365, R366). -/
def State.dropInv (s : State) (n : Nat) (seats : List Nat) : State :=
  match s.inv? n with
  | none => s
  | some v =>
    let saved := v.saved.getD []
    let s := ((List.range seats.length).zip (seats.zip saved)).foldl (fun (s : State) (x : Nat × Nat × SavedSeat) =>
      let (g, y) := x.2
      let ctxs := y.ctxs.map (fun k => { k with loads := k.loads.map (s.loadAgain v.tenant v.stock) })
      let s := s.updSeat g (fun z => { z with
        ctxs := ctxs, sets := y.sets, queue := y.queue, repair := none, inv := some n, badWords := [], dmaLines := [], storedWords := [] })
      (s.setSbuf g (y.sbuf ++ (s.sbuf g).filter (fun c => decide (y.kept ≤ c.1)))).renameSeat (parkedSeat n x.1) g) s
    let s := s.updInv n (fun v => { v with saved := none, seats := seats })
    seats.foldl State.settleSeat (seats.foldl State.markSeat s)

/-- Bytes one suspended seat saves (14 R367), and the save reserve (12 R306). -/
def Invocation.saveBytes (v : Invocation) : Nat := v.seatCount * (32768 + 84480 + v.sbufBytes)
def Variant.saveReserve : Variant → Nat
  | .v9720 => 512 * 2 ^ 20
  | _ => 256 * 2 ^ 20

/-- Forget an invocation and its save area, and complete its command with a status unless it has one already (14 R368). -/
def State.cancelInv (s : State) (n st : Nat) : State :=
  match s.inv? n with
  | none => s
  | some v =>
    let s := if v.saved.isSome then s.updTier (fun z => { z with saveUsed := z.saveUsed - v.saveBytes }) else s
    let s := s.cancelIssues ((List.range v.seatCount).map (parkedSeat n))
    (s.stopInvocation n st).endInvocation n

/-- Suspend an invocation into the save reserve; one whose save does not fit is cancelled with QUOTA_EXCEEDED (14 R366, 12
R306). -/
def State.suspend (s : State) (n : Nat) : State :=
  match s.inv? n with
  | none => s
  | some v =>
    if s.tier.saveUsed + v.saveBytes > s.variant.saveReserve then (s.bump 0x000D0030).cancelInv n St.quota
    else
      let s := s.updTier (fun z => { z with saveUsed := z.saveUsed + v.saveBytes })
      (s.liftInv n v.sbufBytes).updHand v.hand (fun x => { x with suspends := min (x.suspends + 1) 0xFFFFFFFF })

/-- A suspended invocation resumes on seats (14 R366). -/
def State.resume (s : State) (n : Nat) (seats : List Nat) : State :=
  match s.inv? n with
  | none => s
  | some v => (s.updTier (fun z => { z with saveUsed := z.saveUsed - v.saveBytes })).dropInv n seats

/-! ### Commands that end early (14 R368, 05 R152) -/

/-- Whether a command past intake names a hand (14 R368, 18 R485, R487). -/
def State.usesHand (s : State) (h : Nat) (c : Cmd) : Bool :=
  match c.opcode with
  | 0x0304 => c.field 0x10 1 == h
  | 0x0401 => c.field 0x1A 1 == h && (bitAt (c.field 0x16 2) 1 || bitAt (c.field 0x16 2) 3 || s.seatSearch)
  | 0x0402 => c.field 0x12 1 == h
  | 0x0501 => c.field 0x1A 1 == h || c.field 0x1B 1 == h || (match s.pipe? c.handle with
      | some p => !p.genBlock.isEmpty && (genParams p.genBlock).hand == h
      | none => false)
  | 0x0601 => (match s.serving.reqs.find? (fun r => r.cmd == c.handle) with
      | some r => r.hand == h
      | none => (match s.genRead c.tenant (c.field 0x10 8) with | .inl b => (genParams b).hand == h | .inr _ => false))
  | _ => false

/-- A live request ends as under GEN_CANCEL (14 R368). -/
def State.stopRequest (s : State) (id : Nat) : State := s.stopRequestAs 6 St.ok id

/-- A command in flight ends with a status and leaves what a cancel leaves; its request, if it has one, ends with the reason
given (14 R368, 15 R390). -/
def State.endCmd (s : State) (reason rstatus st : Nat) (c : Cmd) : State :=
  match s.serving.reqs.find? (fun r => r.cmd == c.handle) with
  | some r => s.stopRequestAs reason rstatus r.id
  | none =>
    match s.invs.find? (fun v => v.cmd == c.handle) with
    | some v => s.cancelInv v.id st
    | none =>
      if c.opcode = 0x0402 && c.stage ≠ 0 then s.rollback (c.field 0x10 2) c.handle st
      else ((s.dropQueries (fun q => q.key.cmd == c.handle)).dropPipe c.handle).fail c.handle st

/-- A command that was running on a hand freed with FORCE ends with RETRY_LATER (14 R368). -/
def State.cancelCmd (s : State) (c : Cmd) : State := s.endCmd 6 St.ok St.retry c

/-- A command ends with ABORTED_FAULT (15 R390). -/
def State.abortCmd (s : State) (c : Cmd) : State := s.endCmd 8 St.aborted St.aborted c

/-! ### Freeing a hand (14 R368) -/

/-- A seat leaves its hand: IDLE, or still QUARANTINED (02 R31, R32). -/
def State.yieldSeat (s : State) (g : Nat) : State :=
  let on := s.steadyLoad
  s.updSeat g (fun x => { x.emptied with
    mode := if x.mode = .dealt then .idle else x.mode, hand := 0, saving := false, clearing := false, steady := { x.steady with on := on } })

/-- The hand of a request that outlives its own, waiting to write its final record: the number is no hand's. -/
def noHand : Nat := 255

/-- Free a hand: its work is cancelled, without records where its tenant is reset, its seats become IDLE, and the commands that waited for it
complete; a command taken in after the FREE_HAND and not begun is left, and ends with BAD_PARAM at its check (14 R368, R379, 10 R268). -/
def State.freeHand (s : State) (h : Nat) : State :=
  let x := s.hand h
  let later (c : Cmd) : Bool := match x.freeing with | some f => c.stage == 0 && decide (f.1 < c.handle) | none => false
  let reset := (s.tenant x.tenant).reset.isSome
  let s := ((s.serving.reqs.filter (fun r => reset && r.hand == h)).map (fun r => r.id)).foldl State.dropRequest s
  let s := (s.cmds.filter (fun c => s.usesHand h c && c.tenant == x.tenant && !later c)).foldl State.cancelCmd s
  let s := ((s.serving.reqs.filter (fun r => r.hand == h)).map (fun r => r.id)).foldl State.stopRequest s
  let s := s.updServing (fun z => { z with reqs := updWhere (fun r => r.hand == h) (fun r => { r with hand := noHand }) z.reqs })
  let s := ((s.invs.filter (fun v => v.hand == h)).map (fun v => v.id)).foldl (fun s n => s.cancelInv n St.retry) s
  let s := ((List.range 176).filter (fun g => (s.seat g).hand == h && ((s.seat g).saving || x.seats.contains g))).foldl State.yieldSeat s
  let s := x.seats.foldl State.yieldSeat s
  let s := s.updServing (fun z => { z with batches := z.batches.filter (fun b => b.hand ≠ h) })
  let s := s.updHand h (fun y => { y with
    valid := false, seats := [], pot := [], slices := [], resize := none, freeing := none, dealing := none, ready := [] })
  let s := match x.resize with | some r => r.cmds.foldl (fun s c => s.fail c St.retry) s | none => s
  match x.freeing with
  | some f => s.complete f.1 St.ok 0 h 0
  | none => s

/-- Whether a command past intake before a FREE_HAND still uses its hand (14 R368). -/
def State.handBusy (s : State) (h : Nat) : Bool :=
  let x := s.hand h
  has (fun c => c.tenant == x.tenant && s.usesHand h c && (match x.freeing with
      | some f => !(c.stage == 0 && decide (f.1 < c.handle))
      | none => true)) s.cmds || has (fun r => r.hand == h) s.serving.reqs
    || has (fun v => v.hand == h) s.invs || x.resize.isSome

/-! ### The tenant reset (18 R491, R494, 01 R27) -/

/-- The queue pair 0 as it was created, empty (18 R491 step 4). -/
def QPair.fresh (q : QPair) : QPair :=
  { q with sqHead := 0, sqTail := 0, cqTail := 0, cqHead := 0, phase := true, reserved := 0, deleting := none }

/-- The ranges an issue of the tokenizer, the detokenizer or a walker writes, each with its length and alignment (08 R205, R210, 09 R225 to
R228). -/
def issueTargets (u : UnitIssue) : List (Nat × Nat × Nat) :=
  let b := u.body
  (match u.unit, u.op with
    | 3, 1 => [(fieldOf b 0x18 8, 4 * fieldOf b 0x14 4, 4), (fieldOf b 0x20 8, 256, 64)]
    | 4, 1 => [(fieldOf b 0x18 8, fieldOf b 0x14 4, 1), (fieldOf b 0x20 8, 32, 32)]
    | 5, 1 => [(fieldOf b 8 8, 576, 64), (fieldOf b 0x10 8, 131072, 1)]
    | 5, 2 => [(fieldOf b 8 8, 576, 64)]
    | 5, 3 => [(fieldOf b 8 8, 576, 64), (fieldOf b 0x20 8, 576, 64)]
    | _, _ => []).filter (fun x => x.1 ≠ 0)

/-- An issue that a lane had taken stops when its tenant is reset: output and carry, record and mask are undefined (08 R216, 09 R235). -/
def State.stopIssue (s : State) (u : UnitIssue) : State :=
  if !s.inLane u then s
  else
    (issueTargets u).foldl (fun s x =>
      if s.unitCheck u .store x.1 x.2.1 x.2.2 = .ok then s.draw.wrTva u.tenant u.stock x.1 (freeBytes s.fresh x.2.1) else s) s

/-- Steps 2 to 4 of a tenant reset: hands, requests, ledger and objects go, queue pair 0 is re-created, or the tenant is
removed (18 R491). -/
def State.finishReset (s : State) (t : Nat) : State :=
  match (s.tenant t).reset with
  | none => s
  | some r =>
    let s := (s.issues.filter (fun u => u.tenant == t)).foldl State.stopIssue s
    let s := { s with issues := s.issues.filter (fun u => u.tenant ≠ t), selections := s.selections.filter (fun x => x.tenant ≠ t) }
    let s := ((List.range 64).filter (fun h => (s.hand h).valid && (s.hand h).tenant == t)).foldl State.freeHand s
    let s := ((s.serving.reqs.filter (fun q => q.tenant == t)).map (fun q => q.id)).foldl State.dropRequest s
    let s := s.dropQueries (fun q => q.tenant == t)
    let s := s.updEmbed (fun z => { z with waiting := z.waiting.filter (fun w => w.tenant ≠ t) })
    let s := ((s.models.filter (fun m => m.tenant == t)).map (fun m => m.number)).foldl State.freeModel s
    let s := ((s.automata.filter (fun m => m.tenant == t)).map (fun m => m.number)).foldl State.freeAutomaton s
    let s := ((s.decks.filter (fun m => m.tenant == t)).map (fun m => m.number)).foldl State.freeDeck s
    let s := ((s.colls.filter (fun m => m.tenant == t)).map (fun m => m.number)).foldl State.freeCollection s
    let s := ((s.embed.tables.filter (fun m => m.tenant == t)).map (fun m => m.number)).foldl State.freeTable s
    let s := s.updTenant t (fun x => { x with
      faulted := false, cause := 0, weight := 256, ledger := [], reset := none
      queues := (match x.queues with | q :: _ => [if r.leaveAbsent then none else q.map QPair.fresh] | [] => [none]) ++ List.replicate 15 none
      live := x.live && !r.leaveAbsent })
    let s := if r.leaveAbsent then { s with admin := { s.admin with active := false } } else s
    let s := if r.destroy then
        let s := s.mediaFree (fun o => match o with | .space k _ => k == t | _ => false)
        { s with tenants := s.tenants.set t .absent }
      else s.msix (32 * t + 16)
    let s := s.bump 0x00020034
    r.cmds.foldl (fun s c => s.complete c St.ok 0 0 0) s

/-- Whether a tenant holds a hand whose work must stop at a trick boundary. -/
def State.holdsSeats (s : State) (t : Nat) : Bool :=
  (List.range 64).any (fun h => let x := s.hand h; x.valid && x.tenant == t && x.dealing.isNone && !x.seats.isEmpty)

/-- Start or join a tenant reset (step 1): intake stops, the tenant is fenced, and its commands in flight post nothing more;
without a seated hand it ends at once (18 R491, R494, 01 R27). -/
def State.startReset (s : State) (t : Nat) (destroy leaveAbsent : Bool) (cmds : List Nat) : State :=
  match (s.tenant t).reset with
  | some r => s.updTenant t (fun x => { x with reset := some { r with
      destroy := r.destroy || destroy, leaveAbsent := r.leaveAbsent || leaveAbsent, cmds := r.cmds ++ cmds } })
  | none =>
    let s := s.updTenant t (fun x => { x with reset := some { destroy := destroy, leaveAbsent := leaveAbsent, cmds := cmds } })
    let s := s.fenceHolder (holderId 7 t)
    let mine := s.cmds.filter (fun c => c.tenant == t)
    let s := s.dropQueries (fun q => q.tenant == t && q.issue.isNone)
    let s := (mine.map (fun c => c.handle)).foldl (fun (s : State) h => (s.dropPipe h).dropCmd h) s
    let s := s.updEmbed (fun z => { z with waiting := z.waiting.filter (fun w =>
      !(w.tenant == t && (match w.who with | .cmd _ => true | .issue _ => false))) })
    if s.holdsSeats t then s else s.finishReset t

end Sys2Proof.Machine
end

