-- ==== Sys2Proof/Machine/Dealer.lean ====
section
/-!
DEFINITION. The Dealer: hands, placement, trick boundaries, models and phases, KERNEL_RUN, and the seats' steady-load mode
(14 R360 to R384, 02 R31, R32, R55 to R57, 04 R125, R126). The choices are notes/assumptions/22.md.
-/
namespace Sys2Proof.Machine

/-! ### Placement (14 R369) -/

/-- Seats any hand has reserved for its growth. -/
def State.reserved (s : State) : List Nat := s.hands.flatMap (fun x => match x.resize with | some r => r.grow | none => [])

/-- IDLE seats on the allowed dies that no other hand has reserved (14 R362, R369 key 1). -/
def State.pool (s : State) (dies : Nat) (own : List Nat) : List Nat :=
  let held := s.reserved.filter (fun g => !own.contains g)
  (List.range 176).filter (fun g => (s.seat g).mode = .idle && (dies % 4 == 0 || bitAt dies (g / 88)) && !s.dieLost (g / 88)
    && !held.contains g)

/-- Bytes of a model and of the KV frames of a hand's live requests that a die homes (14 R369 key 2). -/
def State.homedBytes (s : State) (h model d : Nat) : Nat :=
  match s.models.find? (fun m => m.number == model) with
  | none => 0
  | some m =>
    let frames := (s.serving.reqs.filter (fun r => r.hand == h && r.model == model)).flatMap (fun r => r.pages)
    65536 * s.modelHomes m d
      + frameBytes m.image * (s.serving.frames.filter (fun f => f.die == d && frames.contains f.frame)).length

/-- Rank of a candidate seat under the keys of 14 R369, the best first. -/
def State.seatKey (s : State) (h t : Nat) (model : Option Nat) (mine : List Nat) (g : Nat) : List Nat :=
  let d := g / 88
  let home (e : Nat) : Nat := match model with | some m => s.homedBytes h m e | none => 0
  let hot := (List.range 64).any (fun k => k ≠ h && (let x := s.hand k
    x.valid && x.tenant == t && model.isSome && x.model == model && has (fun y => y.1 == d) x.slices))
  let count (e : Nat) : Nat := (mine.filter (fun y => y / 88 == e)).length
  [boolNat (decide (home d < home (1 - d))), boolNat (!hot), boolNat (decide (count d < count (1 - d))),
    boolNat (!s.powered (quadDomain g)), g]

/-- Lexicographic order of keys. -/
def keyLt : List Nat → List Nat → Bool
  | a :: as, b :: bs => decide (a < b) || (a == b && keyLt as bs)
  | _, _ => false

/-- The best `n` candidates for a hand (14 R369). -/
def State.pickSeats (s : State) (h t : Nat) (model : Option Nat) (mine pool : List Nat) (n : Nat) : List Nat :=
  (sortBy (fun a b => keyLt (s.seatKey h t model mine a) (s.seatKey h t model mine b)) pool).take n

/-! ### DEAL_HAND and RESIZE_HAND (14 R361, R362, R379) -/

/-- Parameters of a hand command (18 R488). -/
structure HandParams where
  hand : Nat
  tenant : Nat
  lo : Nat
  hi : Nat
  dies : Nat
  force : Bool
  affinity : Nat
  deriving DecidableEq, Repr

def handParams (c : Cmd) : HandParams :=
  { hand := c.field 0x10 1, tenant := c.field 0x11 1, lo := c.field 0x12 2, hi := c.field 0x14 2, dies := c.field 0x16 1
    force := bitAt (c.field 0x17 1) 0, affinity := c.field 0x18 4 }

/-- Whether a parameter of a deal or a resize is out of range for the hand's owner (14 R361, R362). -/
def State.handBad (s : State) (owner cmd : Nat) (p : HandParams) : Bool :=
  p.force || p.lo < 1 || p.lo > 160 || p.hi < p.lo || p.hi > 160 || p.dies > 3 || (bitAt p.dies 1 && s.variant ≠ .v9720)
    || (p.affinity ≠ 0xFFFFFFFF && (s.modelFor owner cmd p.affinity).isNone && !s.modelLeaving owner cmd p.affinity)

/-- Seats a tenant's hands hold, growth in progress included, but for one hand (14 R360, R382). -/
def State.heldBy (s : State) (t but : Nat) : Nat :=
  sumNat ((List.range 64).map (fun k => let x := s.hand k
    if k ≠ but && x.valid && x.tenant = t then x.seats.length + (match x.resize with | some r => r.grow.length | none => 0) else 0))

/-- The seats a command gives: n and the candidates, or the status that ends it (14 R362). -/
def State.grant (s : State) (owner but : Nat) (p : HandParams) (cur own : List Nat) : (Nat × List Nat) ⊕ Nat :=
  let limit := (s.tenant owner).seatLimit
  let others := s.heldBy owner but
  if p.lo + others > limit then .inr St.quota
  else
    let pool := s.pool p.dies own
    let n := min p.hi (min (cur.length + pool.length) (limit - others))
    if n < p.lo then .inr St.retry else .inl (n, pool)

/-- The model placement follows: the hand's, else AFFINITY_MODEL (14 R369 key 2). -/
def placeModel (x : Hand) (affinity : Nat) : Option Nat :=
  match x.model with
  | some m => some m
  | none => if affinity = 0xFFFFFFFF then none else some affinity

/-- Whether a hand command names a model that is being evicted as its placement hint (14 R361, R373). -/
def State.affinityLeaves (s : State) (owner cmd : Nat) (p : HandParams) : Bool :=
  p.affinity ≠ 0xFFFFFFFF && s.modelLeaving owner cmd p.affinity

/-- Whether a DEAL_HAND or a growing RESIZE_HAND taken in earlier has yet to take its seats: the two are served in intake order (14 R379). -/
def State.dealsEarlier (s : State) (cmd : Nat) : Bool :=
  s.cmds.any (fun c => decide (c.handle < cmd) && c.stage == 0 && (c.opcode == 0x0901 || (c.opcode == 0x0902
    && (let x := s.hand (c.field 0x10 1); x.valid && decide (x.seats.length < c.field 0x14 2)))))

/-- DEAL_HAND: the lowest free hand number and the best seats, which are then cleared (14 R360 to R362, R383). -/
def execDealHand (cmd : Nat) (s : State) : Res :=
  .next (match s.cmdAt cmd 0x0901 0 with
    | none => s
    | some c =>
      let p := handParams c
      let owner := if c.tenant = 0 then p.tenant else c.tenant
      if c.tenant = 0 && owner ≠ 0 && owner ≤ 63 && (s.tenant owner).reset.isSome then s.fail cmd St.tenantReset
      else if (c.tenant ≠ 0 && p.tenant ≠ 0) || owner > 63 || !(s.tenant owner).live || s.handBad owner cmd p then s.fail cmd St.badParam
      else if s.affinityLeaves owner cmd p then s.fail cmd St.notResident
      else if s.dealsEarlier cmd then s
      else if s.noSeats then s.fail cmd St.aborted
      else
        match (List.range 64).find? (fun h => !(s.hand h).valid) with
        | none => s.fail cmd St.quota
        | some h =>
          match s.grant owner h p [] [] with
          | .inr st => s.fail cmd st
          | .inl (n, pool) =>
            let seats := sortBy (fun a b => decide (a < b)) (s.pickSeats h owner (placeModel .none p.affinity) [] pool n)
            let x : Hand := { Hand.none with
              valid := true, tenant := owner, seats := seats, dealing := some cmd, runTricks := s.dlr.runTricks
              trickKcyc := s.dlr.trickKcyc, parkLimit := s.serving.parkLimit, batchWait := s.serving.batchWait }
            let s := ((s.updHand h (fun _ => x)).dealPot h).bump 0x00030010
            let s := seats.foldl (fun s g => s.updSeat g (fun y => { y with mode := .dealt, hand := h, clearing := true })) s
            s.updCmd cmd (fun c => { c with stage := 1 }))

/-- The hand a RESIZE_HAND or FREE_HAND acts on, or the status that ends the command (14 R361, R362, 18 R494). -/
def State.handOf (s : State) (c : Cmd) (p : HandParams) : Hand ⊕ Nat :=
  let x := s.hand p.hand
  if p.tenant ≠ 0 || p.hand > 63 || !x.valid || (c.tenant ≠ 0 && x.tenant ≠ c.tenant) then .inr St.badParam
  else if c.tenant = 0 && x.tenant ≠ 0 && (s.tenant x.tenant).reset.isSome then .inr St.tenantReset
  else if x.dealing.isSome || x.freeing.isSome then .inr St.badParam
  else .inl x

/-- RESIZE_HAND: accepted with the seats it is to reach; an earlier one not yet in effect is replaced, and both complete
together; behind one in effect whose seats still save, it waits (14 R362, R379). -/
def execResizeHand (cmd : Nat) (s : State) : Res :=
  .next (match s.cmdAt cmd 0x0902 0 with
    | none => s
    | some c =>
      let p := handParams c
      match s.handOf c p with
      | .inr st => s.fail cmd st
      | .inl x =>
        if s.handBad x.tenant cmd p then s.fail cmd St.badParam
        else if s.affinityLeaves x.tenant cmd p then s.fail cmd St.notResident
        else if decide (x.seats.length < p.hi) && s.dealsEarlier cmd then s
        else if (match x.resize with | some r => r.applied | none => false) then s
        else if s.noSeats then s.fail cmd St.aborted
        else
          let old := match x.resize with | some r => r.grow | none => []
          match s.grant x.tenant p.hand p x.seats old with
          | .inr st => s.fail cmd st
          | .inl (n, pool) =>
            let grow := s.pickSeats p.hand x.tenant (placeModel x p.affinity) x.seats pool (n - x.seats.length)
            let cmds := (match x.resize with | some r => r.cmds | none => []) ++ [cmd]
            let s := s.updHand p.hand (fun x => { x with resize := some { cmds := cmds, target := n, grow := grow, applied := false } })
            let s := grow.foldl (fun s g => s.updSeat g (fun y => { y with clearing := true })) s
            s.updCmd cmd (fun c => { c with stage := 1 }))

/-- FREE_HAND: no new command may name the hand; a hand without seats is freed at once, any other at a boundary (14 R368). -/
def execFreeHand (cmd : Nat) (s : State) : Res :=
  .next (match s.cmdAt cmd 0x0903 0 with
    | none => s
    | some c =>
      let p := handParams c
      match s.handOf c p with
      | .inr st => s.fail cmd st
      | .inl x =>
        let s := (s.updHand p.hand (fun x => { x with freeing := some (cmd, p.force) })).updCmd cmd (fun c => { c with stage := 1 })
        if x.seats.isEmpty then s.freeHand p.hand else s)

/-! ### Changes at a boundary (14 R364, R366, R377) -/

/-- Pending resizes complete once in effect and once every leaving seat has been yielded (14 R362, R367). -/
def State.settleResize (s : State) (h : Nat) : State :=
  match (s.hand h).resize with
  | none => s
  | some r =>
    if !r.applied || (List.range 176).any (fun g => (s.seat g).saving && (s.seat g).hand == h) then s
    else
      let n := (s.hand h).seats.length
      r.cmds.foldl (fun s c => s.complete c St.ok 0 h n) (s.updHand h (fun x => { x with resize := none }))

/-- Stock work that runs on the hand's seats outside an invocation of KERNEL_RUN, replica by replica: decode steps under way, and the embed,
re-rank or prefill step of the model and phase the hand runs (01 R20, 02 R51, 10 R242; notes/assumptions/22.md). -/
def State.stockRuns (s : State) (h : Nat) : List (List Nat) :=
  let x := s.hand h
  match x.model.bind (fun n => s.models.find? (fun m => m.number == n)) with
  | none => []
  | some m =>
    let busy : Bool :=
      (x.phase == 0 && s.pipes.any (fun p => p.stage == 2 && p.embedHand == h && (s.embedModel p).map (fun y => y.number) == some m.number))
        || (x.phase == 2 && s.pipes.any (fun p => p.stage == 10 && p.rerankHand == h && (s.crossModel p).map (fun y => y.number) == some m.number))
        || (x.phase == 3 && has (fun r => r.model == m.number) (s.waitPrefill h))
    let steps := dedup ((s.serving.batches.filter (fun b => b.hand == h && b.running && b.model == m.number)).map (fun b => b.replica))
    (if busy then ((replicasOf m.image x.phase x.seats).head?).toList else [])
      ++ steps.filterMap (fun i => (replicasOf m.image 4 x.seats)[i]?)

/-- A stock invocation is cancelled and its command starts again from the beginning on the seats the hand then holds (14 R366). -/
def State.restartInv (s : State) (v : Invocation) : State :=
  let s := if v.saved.isSome then s.updTier (fun z => { z with saveUsed := z.saveUsed - v.saveBytes }) else s
  let s := s.cancelIssues (v.seats ++ (List.range v.seatCount).map (parkedSeat v.id))
  let s := v.seats.foldl (fun s g => s.updSeat g Seat.emptied) { s with invs := s.invs.filter (fun x => x.id ≠ v.id) }
  (s.updCmd v.cmd (fun c => { c with stage := 1 })).bump 0x0003001C

/-- An invocation whose seats leave: it moves onto free seats of the hand that stay, or restarts when it is stock, or is
suspended. The Bool says that it was suspended (14 R366). -/
def State.displace (s : State) (n : Nat) (stay : List Nat) : State × Bool :=
  match s.inv? n with
  | none => (s, false)
  | some v =>
    let free := stay.filter (fun g => (s.seat g).inv.isNone && (s.seat g).mode = .dealt && !(s.seat g).clearing)
    let lost := v.seats.filter (fun g => !stay.contains g)
    if lost.length ≤ free.length then
      let target := (v.seats.foldl (fun (a : List Nat × List Nat) g =>
        if stay.contains g then (a.1 ++ [g], a.2) else (a.1 ++ [a.2.headD g], a.2.tail)) ([], free)).1
      ((s.liftInv n sbufBytes).dropInv n target, false)
    else if v.stock then (s.restartInv v, false)
    else
      let s := s.suspend n
      (s, (s.inv? n).isSome)

/-- Stock runs that no longer fit on the seats that stay start again, each counted; those that fit move onto free seats (14 R366, R384). -/
def State.restartRuns (s : State) (runs : List (List Nat)) (stay : List Nat) : State :=
  let free := stay.filter (fun g => (s.seat g).inv.isNone && (s.seat g).mode = .dealt && !(s.seat g).clearing && !runs.any (fun r => r.contains g))
  (runs.foldl (fun (a : State × List Nat) r =>
    let lost := (r.filter (fun g => !stay.contains g)).length
    if lost ≤ a.2.length then (a.1, a.2.drop lost) else (a.1.bump 0x0003001C, a.2)) (s, free)).1

/-- Seats leave a hand: their work is displaced, a stock invocation that a swap saved and that no longer fits starts again, a seat with a save
to write stays DEALT until it is written, the others are yielded (14 R366, R367). -/
def State.shrink (s : State) (h : Nat) (leaving : List Nat) : State :=
  let stay := (s.hand h).seats.filter (fun g => !leaving.contains g)
  let runs := s.stockRuns h
  let s := (((s.updHand h (fun x => { x with seats := stay })).dealPot h).loadSlices h).dissolve h
  let s := s.restartRuns runs stay
  let s := (s.invs.filter (fun v => v.hand == h && v.stock && v.saved.isSome && decide (stay.length < v.seatCount))).foldl State.restartInv s
  let invs := s.invs.filter (fun v => v.hand == h && v.seats.any leaving.contains)
  let (s, saving) := invs.foldl (fun (a : State × List Nat) v =>
    let (s, sus) := a.1.displace v.id stay
    (s, if sus then a.2 ++ v.seats else a.2)) (s, [])
  leaving.foldl (fun s g =>
    if saving.contains g && (s.seat g).mode = .dealt then s.updSeat g (fun x => { x with saving := true }) else s.yieldSeat g) s

/-- Which seats leave first: those that run no invocation, then the highest numbers (14 R366). -/
def State.leavers (s : State) (h k : Nat) : List Nat :=
  let runs := s.stockRuns h
  let busy (g : Nat) : Bool := (s.seat g).inv.isSome || runs.any (fun r => r.contains g)
  (sortBy (fun a b => (!busy a && busy b) || (busy a == busy b && decide (b < a))) (s.hand h).seats).take k

/-- Shrinking to a pending resize's target (14 R364 step 1). -/
def State.stepShrink (s : State) (h : Nat) : State :=
  match (s.hand h).resize with
  | none => s
  | some r =>
    let n := (s.hand h).seats.length
    if r.applied || n < r.target then s
    else
      let s := s.shrink h (s.leavers h (n - r.target))
      s.updHand h (fun x => { x with resize := some { r with grow := [], applied := true }, otherTricks := 0 })

/-- The seat that replaces a quarantined one: a DARK kitty seat of its die, an IDLE seat of the die, an IDLE seat of the other
(14 R377); a lost die gives IDLE seats of the other die only (15 R402). -/
def State.spare (s : State) (g : Nat) : Option Nat :=
  let d := g / 88
  let seats (e : Nat) : List Nat := (List.range 88).map (fun i => 88 * e + i)
  let free (x : Nat) : Bool := (s.seat x).mode = .idle && !s.reserved.contains x && !s.dieLost (x / 88)
  ((if s.dieLost d then [] else (seats d).filter (fun x => x % 88 ≥ 80 && (s.seat x).mode = .dark))
    ++ (seats d).filter free ++ (seats (1 - d)).filter free).head?

/-- Replace one quarantined seat of a hand, with its rank and work, or shrink the hand by it (14 R377). A kitty seat whose quad has no
power leaves DARK only once the staggered start has given it power: the replacement then takes place at the next boundary (02 R31). -/
def State.replaceSeat (s : State) (h g : Nat) : State :=
  match s.spare g with
  | none => (s.shrink h [g]).bump 0x00030018
  | some r =>
    let kitty := (s.seat r).mode = .dark
    if kitty && !s.powered (quadDomain r) then s.askDomain (quadDomain r) else
    let s := if kitty then s.bump 0x00030014 else s
    let s := s.updSeat r (fun x => { x.emptied with
      mode := .dealt, hand := h, clearing := false, badWords := [], steady := { x.steady with on := s.steadyLoad } })
    let s := s.setSbuf r []
    let s := match (s.seat g).inv.bind (fun n => s.inv? n) with
      | some v => (s.liftInv v.id sbufBytes).dropInv v.id (v.seats.map (fun y => if y = g then r else y))
      | none => s
    let s := (((s.updHand h (fun x => { x with seats := sortBy (fun a b => decide (a < b)) (x.seats.map (fun y => if y = g then r else y)) })).dealPot h).loadSlices h).dissolve h
    s.updSeat g (fun x => { x.emptied with hand := 0 })

/-- Replacement of quarantined seats (14 R364 step 2). -/
def State.stepReplace (s : State) (h : Nat) : State :=
  ((s.hand h).seats.filter (fun g => (s.seat g).mode = .quarantined)).foldl (fun s g => s.replaceSeat h g) s

/-- Growth by reserved seats that have been cleared (14 R364 step 3). -/
def State.stepGrow (s : State) (h : Nat) : State :=
  match (s.hand h).resize with
  | none => s
  | some r =>
    let grow := r.grow.filter (fun g => (s.seat g).mode = .idle)
    if r.applied || grow.any (fun g => (s.seat g).clearing) then s
    else
      let s := (grow.foldl (fun s g => s.updSeat g (fun y => { y with mode := .dealt, hand := h })) s).dissolve h
      ((s.updHand h (fun x => { x with
        seats := sortBy (fun a b => decide (a < b)) (x.seats ++ grow), resize := some { r with grow := [], applied := true }
        otherTricks := 0 })).dealPot h).loadSlices h

/-- Work a hand has ready, by model and phase (14 R372). -/
def State.readyNow (s : State) (h : Nat) : List Ready :=
  let x := s.hand h
  let key (m : Nat) : Ready := { model := m, phase := if x.model = some m then x.phase else 7 }
  let kernels := (s.cmds.filter (fun c => c.opcode == 0x0304 && c.stage == 1 && c.field 0x10 1 == h && c.tenant == x.tenant
      && !has (fun v => v.cmd == c.handle) s.invs)).map (fun c => key (c.field 0x14 4))
    ++ (s.invs.filter (fun v => v.hand == h && (v.saved.isNone || decide (v.seatCount ≤ x.seats.length)))).map (fun v => key v.model)
  let pipes := s.pipes.filterMap (fun p =>
    if p.stage = 2 && p.embedHand = h then (s.embedModel p).map (fun m => ({ model := m.number, phase := 0 } : Ready))
    else if p.stage = 10 && p.rerankHand = h then (s.crossModel p).map (fun m => ({ model := m.number, phase := 2 } : Ready))
    else none)
  let gens := (s.waitPrefill h).map (fun r => ({ model := r.model, phase := 3 } : Ready))
    ++ (s.serving.reqs.filter (fun r => r.hand == h && (s.rowReady r || s.inStep r.id))).map (fun r =>
      ({ model := r.model, phase := 4 } : Ready))
  dedup (kernels ++ pipes ++ gens)

/-- The ready work in the order in which it became ready. -/
def State.readyOrder (s : State) (h : Nat) : List Ready :=
  let now := s.readyNow h
  let old := (s.hand h).ready.filter now.contains
  old ++ now.filter (fun r => !old.contains r)

/-- Suspended invocations of the hand's model resume where it holds seats enough (14 R366). -/
def State.stepResume (s : State) (h : Nat) : State :=
  (s.invs.filter (fun v => v.hand == h && v.saved.isSome)).foldl (fun s v =>
    let free := (s.hand h).seats.filter (fun g => (s.seat g).inv.isNone && (s.seat g).mode = .dealt && !(s.seat g).clearing)
    if (s.hand h).model == some v.model && decide (v.seatCount ≤ free.length) then s.resume v.id (free.take v.seatCount) else s) s

/-- Whether a resize of a hand that stood before takes effect at this boundary, so that the RUN_TRICKS count restarts (14 R379). -/
def State.resized (s : State) (before : Hand) (h : Nat) : Bool :=
  (match before.resize with | some r => !r.applied | none => false)
    && (match (s.hand h).resize with | some r => r.applied | none => true)

/-- A model swap or a phase switch: the current work is kept while it is ready, unless other work has been ready for
RUN_TRICKS tricks, a count that restarts where a resize took effect; the work it turns from waits anew, and the seats drop their slices and
load those of the new ranks; the first model of a hand is no swap (14 R364 step 4, R371, R372, R376, R379). -/
def State.stepSwitch (s : State) (h : Nat) (changed : Bool) : State :=
  let x := s.hand h
  let order := s.readyOrder h
  let current (r : Ready) : Bool := x.model == some r.model && x.phase == r.phase
  let others := order.filter (fun r => !current r)
  let tricks := if others.isEmpty || changed then 0 else x.otherTricks + 1
  let s := s.updHand h (fun x => { x with ready := order, otherTricks := tricks })
  match others with
  | [] => s
  | r :: _ =>
    if has current order && decide (tricks < x.runTricks) then s
    else
      let s := if x.model = some r.model then s.updHand h (fun x => { x with reshards := min (x.reshards + 1) 0xFFFFFFFF })
        else if x.model.isNone then s
        else
          let running := (s.invs.filter (fun v => v.hand == h && v.saved.isNone && v.model ≠ r.model)).map (fun v => v.id)
          running.foldl State.suspend (s.updHand h (fun x => { x with swaps := min (x.swaps + 1) 0xFFFFFFFF }))
      (s.updHand h (fun x => { x with
        model := some r.model, phase := r.phase, otherTricks := 0
        ready := order.filter (fun y => !current y) ++ order.filter current })).loadSlices h

/-- Invocations that faulted or must stop end at the boundary (04 R113). -/
def State.stepStops (s : State) (h : Nat) : State :=
  ((s.invs.filter (fun v => v.hand == h && (v.fault.isSome || v.stop.isSome))).map (fun v => v.id)).foldl (fun s n =>
    match s.inv? n with
    | some v => if v.saved.isSome then s.cancelInv n St.aborted else s.endInvocation n
    | none => s) s

/-- A hand's trick boundary is counted, and the values that take effect at it are taken (14 R363, R380, 10 R269, 02 R57, 03
R85). -/
def State.countBoundary (s : State) (h : Nat) : State :=
  let seats := (s.hand h).seats
  let s := s.updHand h (fun x => { x with
    tricks := min (x.tricks + 1) (2 ^ 64 - 1), runTricks := s.dlr.runTricks, trickKcyc := s.dlr.trickKcyc
    parkLimit := s.serving.parkLimit, batchWait := s.serving.batchWait })
  let s : State := { s with invs := updWhere (fun v => v.hand == h) (fun v => { v with boundaries := v.boundaries + 1 }) s.invs }
  let on := s.steadyLoad
  seats.foldl (fun s g => (s.updSeat g (fun x => { x with dmaLines := [], storedWords := [], steady := { x.steady with on := on } })).markSeat g) s

/-- TRICK_BOUNDARY: the boundary of a hand that holds seats, and the changes due in the order of 14 R364. -/
def execTrickBoundary (hand : Nat) (s : State) : Res :=
  .next (
    let x := s.hand hand
    if !x.valid || x.dealing.isSome || x.seats.isEmpty || !s.up then s
    else
      let s := (s.countBoundary hand).stepStops hand
      let free := match x.freeing with | some f => f.2 || !s.handBusy hand | none => false
      if (s.tenant x.tenant).reset.isSome then
        let s := s.freeHand hand
        if s.holdsSeats x.tenant then s else s.finishReset x.tenant
      else if free then s.freeHand hand
      else
        let before := s.hand hand
        let s := (s.stepShrink hand).stepReplace hand
        if (s.hand hand).freeing.isSome && (s.hand hand).seats.isEmpty then s.freeHand hand
        else
          let s := (s.stepGrow hand).settleResize hand
          (((s.stepSwitch hand (s.resized before hand)).stepResume hand).pollParked hand).boundaryBatches hand)

/-! ### Seats that become clear, and saves (02 R32, 14 R362, R367) -/

/-- A hand without seats grows at once when its new seats are clear: its first trick starts (14 R362). -/
def State.growEmpty (s : State) (h : Nat) : State :=
  if (s.hand h).valid && (s.hand h).seats.isEmpty then ((s.stepGrow h).settleResize h).stepResume h else s

/-- SEAT_CLEAR_DONE: the buffer is zero, the accumulators empty and every context idle; DEAL_HAND completes with its last
seat (02 R32, 14 R362). -/
def execSeatClearDone (seat : Nat) (s : State) : Res :=
  .next (
    if !(s.seat seat).clearing then s
    else
      let s := (s.setSbuf seat []).updSeat seat (fun x => { x.emptied with clearing := false, badWords := [] })
      let h := (s.seat seat).hand
      if (s.seat seat).mode = .dealt then
        match (s.hand h).dealing with
        | none => s
        | some c =>
          if (s.hand h).seats.any (fun g => (s.seat g).clearing) then s
          else (s.updHand h (fun x => { x with dealing := none })).complete c St.ok 0 h (s.hand h).seats.length
      else
        match (List.range 64).find? (fun k => match (s.hand k).resize with | some r => r.grow.contains seat | none => false) with
        | some k => s.growEmpty k
        | none => s)

/-- SEAT_SAVE_DONE: the seat is yielded (14 R367). -/
def execSeatSaveDone (seat : Nat) (s : State) : Res :=
  .next (
    if !(s.seat seat).saving then s
    else
      let h := (s.seat seat).hand
      (s.yieldSeat seat).settleResize h)

/-! ### KERNEL_RUN (04 R113, R125, R126, 18 R483) -/

/-- An image's kernel by its index. -/
def Model.kernel? (m : Model) (i : Nat) : Option Kernel := (kernels m.image)[i]?

/-- A context that starts a kernel: entry, argument, rank and seat count (04 R126). -/
def Ctx.start (pc arg : Addr) (rank count : Nat) : Ctx :=
  { Ctx.idle with
    mode := .running, pc := pc
    s := ((Ctx.idle.s.set 1 arg).set 2 (BitVec.ofNat 64 rank)).set 3 (BitVec.ofNat 64 count) }

/-- Start an invocation on seats of a hand: context 0 of every seat runs (04 R126). -/
def State.startInv (s : State) (c : Cmd) (m : Model) (k : Kernel) (seats : List Nat) : State :=
  let id := s.nextInv
  let pc := BitVec.ofNat 64 (m.va.toNat - 2 ^ 47 + m.place (k.off + 32) + k.entry)
  let arg := BitVec.ofNat 64 (c.field 0x20 8)
  let v : Invocation :=
    { id := id, tenant := c.tenant, hand := c.field 0x10 1, cmd := c.handle, model := m.number, kernel := c.field 0x18 4
      stock := k.stock, sbufBytes := k.sbuf, seats := seats, seatCount := seats.length
      barriers := List.replicate 16 { init := false, count := 0, phase := 0, arrived := 0 }, fault := none, stop := none
      saved := none, boundaries := 0, entry := pc, arg := arg }
  let s := { s with invs := s.invs ++ [v], nextInv := id + 1 }
  seats.foldl State.markSeat <| ((List.range seats.length).zip seats).foldl (fun (s : State) (x : Nat × Nat) => s.updSeat x.2 (fun y =>
    { y.emptied with inv := some id, ctxs := (List.replicate 64 Ctx.idle).set 0 (Ctx.start pc arg x.1 seats.length) })) s

/-- KERNEL_RUN: checked once, then run as soon as its hand runs its model and has seats free; it completes when the
invocation ends (04 R125, R126, 14 R371, R377, 18 R483). -/
def execKernelRun (cmd : Nat) (s : State) : Res :=
  .next (match s.cmd? cmd with
    | none => s
    | some c =>
      if c.opcode ≠ 0x0304 || c.stage > 1 || has (fun v => v.cmd == cmd) s.invs then s
      else
        let h := c.field 0x10 1
        let model := s.modelFor c.tenant cmd (c.field 0x14 4)
        let kernel := model.bind (fun m => m.kernel? (c.field 0x18 4))
        let known := if c.stage = 0 then (s.handFor c.tenant cmd h).isSome else true
        match model, kernel, s.resolve c.tenant (c.field 0x28 8) 32 32 with
        | some m, some k, some _ =>
          let x := s.hand h
          if !known then s.fail cmd St.badParam
          else if s.noSeats then s.fail cmd St.aborted
          else if !x.seats.isEmpty && x.seats.length < k.minSeats then s.fail cmd St.badParam
          else
            let phase := if x.model = some m.number then x.phase else 7
            let free := x.seats.filter (fun g => (s.seat g).inv.isNone && (s.seat g).mode = .dealt && !(s.seat g).clearing)
            let n := min x.seats.length k.maxSeats
            if !s.handTakes h m.number phase || n = 0 || free.length < n then (s.updCmd cmd (fun c => { c with stage := 1 })).noteReady h m.number phase
            else ((s.useHand h m.number phase).updCmd cmd (fun c => { c with stage := 1 })).startInv c m k (free.take n)
        | _, _, _ => s.fail cmd (if s.modelLeaving c.tenant cmd (c.field 0x14 4) then St.notResident else St.badParam))

/-! ### Registers (14 R380, R382, 02 R57, R62) -/

/-- DLR_CTRL: a field out of range makes the write ignored whole and sets ERR; new values apply from each hand's next boundary
(14 R380). -/
def execDlrCtrlWrite (v : Word) (s : State) : Res :=
  .next (
    let run := bits v.toNat 19 16
    let kcyc := bits v.toNat 8 0
    if !s.up then s
    else if run < 1 || kcyc < 32 || kcyc > 351 then { s with dlr := { s.dlr with err := true } }
    else { s with dlr := { err := s.dlr.err && !bitAt v.toNat 31, runTricks := run, trickKcyc := kcyc } })

/-- DLR_T_LIMIT: a SEAT_LIMIT above 160 is ignored (14 R382). -/
def execDlrTLimitWrite (tenant : Nat) (v : Word) (s : State) : Res :=
  .next (if !s.up || bits v.toNat 7 0 > 160 then s else s.updTenant tenant (fun x => { x with seatLimit := bits v.toNat 7 0 }))

/-- SEAT_MODE: the value is taken by seats in no hand at once, and by a hand's seats at its next boundary (02 R57). -/
def execSeatModeWrite (v : Word) (s : State) : Res :=
  .next (
    let on := bitAt v.toNat 0
    if !s.up then s else
    { s with
      steadyLoad := on
      seats := s.seats.map (fun x => if x.mode = .dealt then x else { x with steady := { x.steady with on := on } }) })

/-- Cells of a seat's array. -/
def arrayCells : Nat := 4096

/-- STEADY_LOAD_WINDOW: one window of 1,800 cycles with so many cells that work would use and a gap so long. Work issues no faster than
the throttles and, after a ramped-down gap or a throttle, than a rate that rises by a tenth a window; dummy MACs fill a shortfall below
90% of the running average as far as the throttles allow, and ramp down, the average with them, in a gap of 2 µs (02 R55, R56, 19 R514,
R516). What the manual leaves open within ±10% is a free value (notes/assumptions/22.md). -/
def execSteadyLoadWindow (seat activeCells gapCycles : Nat) (s : State) : Res :=
  .next (
    let x := s.seat seat
    let y := x.steady
    if !y.on || x.mode = .dark || x.mode = .quarantined || seat ≥ 176 then s
    else
      let level := s.power.issueLevel
      let limit := arrayCells * level / 16
      let draw := s.fresh
      let s := s.draw
      let within (lo hi i : Nat) : Nat := lo + Config.free draw i % (hi - lo + 1)
      let z : Steady :=
        if gapCycles ≥ 3600 then
          let dummy := min (y.dummy - within 1 409 0) limit
          { y with gapped := true, dummy := dummy, rate := 0, average := dummy }
        else
          let slow := y.gapped || decide (level < 16)
          let rate := min (if y.gapped then min 10 (y.rate + 1) else y.rate) (ceilDiv (10 * level) 16)
          let active := min activeCells (min limit (arrayCells * rate / 10))
          let lo := ceilDiv (9 * y.average) 10
          let hi := max lo (11 * y.average / 10)
          let dummy := if active < lo then min (within lo hi 0 - active) (limit - active) else 0
          let total := active + dummy
          { y with
            gapped := slow && decide (rate < 10), dummy := dummy, rate := rate
            average := within (min y.average total) (max y.average total) 1 }
      (s.updSeat seat (fun x => { x with steady := z })).bump64 (seatReg seat 0x38) (1800 * z.dummy))

end Sys2Proof.Machine
end

