-- ==== Sys2Proof/Machine/Registers.lean ====
section
/-!
DEFINITION. What every BAR0 register reads (21 R540 to R548, 00 R7, R8, R11, 02 R58 to R62, 03 R89 to R93, 05 R160 to R164, 08
R217, R218, 09 R236, R237, 10 R269 to R273, 11 R300 to R303, 12 R306, R322 to R324, 13 R354 to R359, 14 R380 to R384, 15 R412
to R417, 16 R436 to R441, 17 R460 to R463, 18 R465, R466, R471, R495, 19 R506, R517 to R523, 20 R538, R539, 23 R571).
-/
namespace Sys2Proof.Machine

/-- A number as a field at a bit position. -/
def at' (lo v : Nat) : Nat := 2 ^ lo * v

/-- Elements that satisfy a test. -/
def countWhere {α : Type} (p : α → Bool) (l : List α) : Nat := (l.filter p).length

/-! ### MOD_, PWR_ (00 R7, R8, 21 R544 to R547, 19 R517 to R523) -/

/-- PCI Device ID (00 R2). -/
def Variant.deviceId : Variant → Nat
  | .v9720 => 0x9720
  | .v9714 => 0x9714
  | .v9706 => 0x9706

/-- MOD_CAPS (00 R7). -/
def Variant.caps (v : Variant) : Nat :=
  at' 26 1 + at' 25 1 + at' 17 (match v with | .v9720 => 160 | _ => 80) + at' 12 v.nandPkgs
    + at' 6 (match v with | .v9720 => 32 | _ => 16) + v.links

/-- MOD_ID (21 R545). -/
def State.modId (s : State) : Nat := at' 16 s.variant.deviceId + at' 8 Config.stepping.toNat

/-- The MOD_ block (21 R544). -/
def State.modReg (s : State) : Nat → Nat
  | 0x00 => s.modId
  | 0x08 => s.variant.caps
  | 0x0C => s.variant.units
  | 0x10 => Config.serial.toNat % 2 ^ 32
  | 0x14 => Config.serial.toNat / 2 ^ 32
  | 0x18 => at' 8 (boolNat s.power.ready) + s.power.step
  | _ => 0

/-- Whether the 400 W and the 640 W limit hold (15 R404, R405, 19 R504). -/
def Flt.phaseLimit (f : Flt) : Bool := f.phasesLost.any (fun r => decide (r.2 ≥ 3))
def Flt.converterLimit (f : Flt) : Bool := decide (f.converters ≥ 2)

/-- The PWR_ block (19 R517 to R523). -/
def State.pwrReg (s : State) (off : Nat) : Nat :=
  let p := s.power
  match off with
  | 0x00 => at' 31 (boolNat p.capErr) + at' 16 p.activeW + p.capW
  | 0x04 => at' 15 (boolNat p.cfgDefault) + at' 14 (boolNat s.flt.phaseLimit) + at' 13 (boolNat s.flt.converterLimit)
      + at' 12 (boolNat (decide (p.capLevel < 16))) + at' 11 (boolNat (decide (p.dip ≠ 0))) + p.issueLevel
  | 0x08 => at' 16 p.millivolts + p.watts
  | 0x0C => at' 10 (boolNat p.resetTrip) + at' 9 (boolNat p.resetFoldBrown) + at' 8 (boolNat p.resetBrown) + at' 4 p.prevKind + p.kind
  | 0x10 => at' 31 (boolNat p.wakeValid) + at' 8 p.wakeCause + p.wakeLink
  | 0x30 => s.counter 0x00010030
  | 0x34 => s.counter 0x00010034
  | 0x38 => p.commits
  | _ =>
    if 0x20 ≤ off && off < 0x30 then
      sumNat ((List.range 32).map (fun i => at' i (boolNat (s.powered (8 * (off - 0x20) + i) && decide (8 * (off - 0x20) + i < 98)))))
    else 0

/-! ### CMD_, DLR_ (18 R465, R466, R471, 14 R380 to R383) -/

/-- TENANT_STATE and CMD_T_STATE (18 R471). -/
def State.tenantState (s : State) (t : Nat) : Nat :=
  let x := s.tenant t
  at' 31 (boolNat x.faulted) + at' 30 (boolNat x.reset.isSome) + at' 29 (boolNat x.live) + at' 16 x.cause
    + sumNat ((List.range 16).map (fun q => at' q (boolNat (s.queue t q).isSome)))

/-- The CMD_ block. -/
def State.cmdReg (s : State) (off : Nat) : Nat :=
  let a := s.admin
  match off with
  | 0x00 => at' 31 (boolNat a.enable) + at' 30 (boolNat a.active) + at' 29 (boolNat a.err) + at' 24 a.entriesLog2.toNat + a.pasid.toNat
  | 0x04 => a.sqBase.toNat % 2 ^ 32
  | 0x08 => a.sqBase.toNat / 2 ^ 32
  | 0x0C => a.cqBase.toNat % 2 ^ 32
  | 0x10 => a.cqBase.toNat / 2 ^ 32
  | _ =>
    if 0x28 ≤ off && off ≤ 0x38 then s.counter (0x00020000 + off)
    else if 0x1000 ≤ off && off < 0x1100 then s.tenantState ((off - 0x1000) / 4)
    else 0

/-- Dealable seats of an M-die (14 R378). -/
def State.dealable (s : State) (d : Nat) : Nat :=
  min 80 (countWhere (fun g => s.variant.seatFitted g && (s.seat g).mode ≠ .quarantined) ((List.range 88).map (fun i => 88 * d + i)))

/-- DARK seats left in the kitty of an M-die (14 R381). -/
def State.kittyLeft (s : State) (d : Nat) : Nat :=
  countWhere (fun g => s.variant.seatFitted g && (s.seat g).mode = .dark) ((List.range 8).map (fun i => 88 * d + 80 + i))

/-- Seats that a tenant's hands hold (14 R382). -/
def State.heldSeats (s : State) (t : Nat) : Nat := sumNat ((s.hands.filter (fun x => x.valid && x.tenant == t)).map (fun x => x.seats.length))

/-- The per-hand block (14 R383). -/
def State.handReg (s : State) (h off : Nat) : Nat :=
  let x := s.hand h
  match off with
  | 0x00 => if x.valid then at' 16 x.seats.length + at' 8 x.tenant + at' 2 x.phase
      + at' 1 (boolNat (has (fun v => v.hand == h && v.saved.isSome && !v.stock && decide (x.seats.length < v.seatCount)) s.invs)) + 1 else at' 2 x.phase
  | 0x04 => x.model.getD 0xFFFFFFFF
  | 0x10 => x.swaps
  | 0x14 => x.reshards
  | 0x18 => x.suspends
  | _ => 0

/-- The DLR_ block. -/
def State.dlrReg (s : State) (off : Nat) : Nat :=
  match off with
  | 0x00 => at' 31 (boolNat s.dlr.err) + at' 16 s.dlr.runTricks + s.dlr.trickKcyc
  | 0x04 => at' 16 (s.dealable 1) + at' 8 (s.dealable 0) + s.dealable 0 + s.dealable 1
  | 0x08 => at' 24 (s.kittyLeft 1) + at' 20 (s.kittyLeft 0)
      + at' 12 (countWhere (fun x => x.mode = .idle) s.seats) + countWhere (fun x => x.valid) s.hands
  | _ =>
    if 0x10 ≤ off && off ≤ 0x1C then s.counter (0x00030000 + off)
    else if 0x1000 ≤ off && off < 0x1100 then at' 16 (s.heldSeats ((off - 0x1000) / 4)) + (s.tenant ((off - 0x1000) / 4)).seatLimit
    else if 0x2000 ≤ off && off < 0x2800 then s.handReg ((off - 0x2000) / 32) (off % 32)
    else 0

/-! ### SEAT_, AUD_ (02 R58 to R62, 03 R89 to R93) -/

/-- SEAT_MODE.STEADY_ACTIVE (02 R57). -/
def State.steadyActive (s : State) : Bool :=
  s.power.ready && s.seats.all (fun x => x.mode = .dark || x.mode = .quarantined || x.steady.on == s.steadyLoad)

/-- SEAT_STATE's code of a mode (02 R60). -/
def SeatMode.code : SeatMode → Nat
  | .dark => 0 | .idle => 1 | .dealt => 2 | .quarantined => 3

/-- The per-seat SEAT_ block but for its pairs. -/
def State.seatBlock (s : State) (g off : Nat) : Nat :=
  if !s.variant.seatFitted g then 0
  else
    let x := s.seat g
    match off with
    | 0x00 => at' 10 (boolNat (decide (g % 88 ≥ 80))) + at' 8 (g / 88) + g % 88
    | 0x04 => at' 16 (if x.mode = .quarantined then 3 else min 2 x.strikes.length) + (if x.mode = .dealt then at' 8 x.hand else 0) + x.mode.code
    | 0x28 => s.counter (0x00040000 + 0x100 * g + 0x28)
    | 0x2C => s.counter (0x00040000 + 0x100 * g + 0x2C)
    | _ => 0

/-- The SEAT_ block. -/
def State.seatRegs (s : State) (off : Nat) : Nat :=
  if off < 0xB000 then s.seatBlock (off / 0x100) (off % 0x100)
  else if off = 0x1F000 then at' 1 (boolNat s.steadyActive) + boolNat s.steadyLoad
  else 0

/-- AUD_PROBE_STATE (03 R93). -/
def Engine.stateReg (e : Engine) : Nat :=
  at' 4 (if e.mode = .quarantined then 3 else min 2 e.strikes.length)
    + (match e.mode with | .dark => 0 | .active => 1 | .quarantined => 3)

/-- The AUD_ block. -/
def State.audReg (s : State) (off : Nat) : Nat :=
  match off with
  | 0x00 => at' 8 (boolNat s.audCtrl.tolErr) + s.audCtrl.tolShift
  | 0x04 => at' 31 (boolNat s.audLast.valid) + at' 28 s.audLast.kind + at' 20 s.audLast.unit + at' 14 s.audLast.row + at' 8 s.audLast.col
  | 0x08 => at' 31 (boolNat s.audInject.arm) + at' 21 s.audInject.seat + at' 15 s.audInject.row + at' 9 s.audInject.col
      + at' 4 s.audInject.bit
  | 0x10 => s.counter 0x00060010
  | 0x14 => if s.variant = .v9720 then s.counter 0x00060014 else 0
  | _ =>
    if 0x1000 ≤ off && off < 0x2600 then
      (if s.variant.seatFitted ((off - 0x1000) / 0x20) then s.counter (0x00060000 + off) else 0)
    else if 0x3000 ≤ off && off < 0x3120 && s.variant ≠ .v9706 then
      (match off % 0x10 with
        | 0x8 => s.counter (0x00060000 + off)
        | 0xC => match s.search.engines[(off - 0x3000) / 0x10]? with | some e => e.stateReg | none => 0
        | _ => 0)
    else if 0x4000 ≤ off && off < 0x4010 && s.variant ≠ .v9706 then s.counter (0x00060000 + off)
    else 0

/-! ### Units (05 to 11) -/

/-- SRCH_STATUS (05 R161, 15 R403). -/
def State.srchStatus (s : State) : Nat :=
  if s.flt.sLost then 0
  else
    let busy (exact : Bool) : Bool := s.search.engines.any (fun e => e.work.any (fun w => w.exact == exact))
      || s.search.farWork.any (fun j => j.exact == exact && !j.queries.isEmpty)
    at' 17 (boolNat (busy true)) + at' 14 s.search.closed.length + at' 13 (boolNat (busy false))
      + (match s.search.collecting with | some b => b.queries.length | none => 0)

/-- The per-collection block but for its pairs (05 R163, R164). -/
def State.collBlock (s : State) (c off : Nat) : Nat :=
  match off with
  | 0x00 => match s.coll? c with
    | some x => at' 8 x.tenant + at' 1 (boolNat (!x.compacting.isEmpty || has (fun l => l.rewriting.isSome) x.lists)) + 1
    | none => 0
  | 0x04 => match s.coll? c with
    | some x => if s.variant = .v9706 then 0 else countWhere (fun y => y.place = .far) x.lists
    | none => 0
  | _ => if off ≥ 0x20 then s.counter (collReg c off) else 0

/-- The SRCH_ block (05 R159 to R164). -/
def State.srchReg (s : State) (off : Nat) : Nat :=
  if 0x1000 ≤ off && off < 0x2000 then s.collBlock ((off - 0x1000) / 0x40) (off % 0x40)
  else if s.variant = .v9706 then 0
  else
    match off with
    | 0x00 => at' 31 (boolNat s.search.err) + at' 13 s.search.window + s.search.batchMax
    | 0x04 => s.srchStatus
    | _ => if 0x30 ≤ off && off ≤ 0x40 then s.counter (0x00070000 + off) else 0

/-- The MELD_ block (06 R180). -/
def State.meldReg (s : State) (off : Nat) : Nat :=
  if s.variant ≠ .v9706 && 0x20 ≤ off && off ≤ 0x2C then s.counter (0x00080000 + off) else 0

/-- The TOK_ block (08 R217, R218). -/
def State.tokReg (s : State) (off : Nat) : Nat :=
  if 0x20 ≤ off && off ≤ 0x30 then s.counter (0x00090000 + off)
  else if 0x1000 ≤ off && off < 0x1200 then
    (match s.decks.find? (fun d => d.number == (off - 0x1000) / 4) with
      | some d => at' 16 d.fffd.length + at' 8 d.tenant + 1
      | none => 0)
  else 0

/-- The GRM_ block (09 R236, R237). -/
def State.grmReg (s : State) (off : Nat) : Nat :=
  if 0x20 ≤ off && off ≤ 0x34 then s.counter (0x000A0000 + off)
  else if 0x1000 ≤ off && off < 0x1400 then
    (match s.automata.find? (fun d => d.number == (off - 0x1000) / 4) with
      | some a => at' 16 (autDeck a.image % 128) + at' 8 a.tenant + at' 1 (autKind a.image % 2) + 1
      | none => 0)
  else 0

/-- The SRV_ block (10 R269 to R273). -/
def State.srvReg (s : State) (off : Nat) : Nat :=
  match off with
  | 0x00 => at' 31 (boolNat s.serving.ctrlErr) + at' 8 s.serving.parkLimit + s.serving.batchWait
  | 0x04 => at' 31 (boolNat s.serving.specErr) + at' 8 s.serving.retry + s.serving.throttleRun
  | 0x08 => at' 16 (countWhere (fun r => r.isParked) s.serving.reqs) + s.serving.reqs.length
  | _ =>
    if 0x40 ≤ off && off ≤ 0x78 then s.counter (0x000B0000 + off)
    else if 0x1000 ≤ off && off < 0x1100 then (s.tenant ((off - 0x1000) / 4)).weight
    else 0

/-- The per-table block but for its pairs (11 R302). -/
def State.embBlock (s : State) (n off : Nat) : Nat :=
  match off, s.table? n with
  | 0x00, some t => at' 16 (countWhere (fun m => m == s.me) t.remap) + at' 8 t.tenant + at' 2 (boolNat !t.emptySlots.isEmpty)
      + at' 1 (boolNat t.ckptNew.isSome) + 1
  | _, _ => 0

/-- The EMB_ block (11 R300 to R303). -/
def State.embReg (s : State) (off : Nat) : Nat :=
  match off with
  | 0x00 => at' 31 (boolNat s.embed.err) + s.embed.sketchShift
  | 0x04 => at' 16 (sumNat (s.embed.tables.map (fun t => t.steps.length))) + min 512 (ceilDiv s.combineUsed (2 ^ 20))
  | _ =>
    if 0x28 ≤ off && off ≤ 0x54 then s.counter (0x000C0000 + off)
    else if 0x1000 ≤ off && off < 0x3000 then s.embBlock ((off - 0x1000) / 0x20) (off % 0x20)
    else 0

/-! ### TIER_, FLS_, FLT_ (12, 13, 15) -/

/-- TIER_SPARE_STATE of a die (12 R309, R322). -/
def State.spareState (s : State) (d : Nat) : Nat :=
  let n := s.variant.channels d
  if n = 0 then 0
  else
    let x := s.tier.dies.getD d { lost := [], homing := [], beyond := 0 }
    let absorbed := x.lost.length - x.beyond
    let most := if n = 32 then 2 else 1
    let mib := if absorbed = 0 then 0 else if n = 32 && absorbed = 1 then 479 else 990
    at' 8 mib + at' 2 (boolNat (decide (absorbed ≥ most))) + (absorbed - x.homing.length)

/-- The TIER_ block (12 R306, R322 to R324). -/
def State.tierReg (s : State) (off : Nat) : Nat :=
  if 0x18 ≤ off && off ≤ 0x34 then s.counter (0x000D0000 + off)
  else if off = 0x40 then s.tier.assignable
  else if 0x100 ≤ off && off < 0x110 then s.spareState ((off - 0x100) / 4)
  else if 0x1000 ≤ off && off < 0x1800 then
    (let x := s.tenant ((off - 0x1000) / 0x20)
     match off % 0x20 with
     | 0x00 => x.t1.limit
     | 0x04 => ceilDiv x.t1.used 65536
     | 0x08 => x.t2.limit
     | 0x0C => ceilDiv x.t2.used 65536
     | 0x10 => x.t3.limit
     | 0x14 => ceilDiv x.t3.used 65536
     | _ => 0)
  else 0

/-- FLS_HEALTH (13 R357). -/
def State.flsHealth (s : State) : Nat :=
  let f := s.flash
  let erases := sumNat ((f.blks.filter (fun b => b.use ≠ .retired && (f.die (b.num / 4096)).1 = .good)).map (fun b => b.erases))
  at' 24 (min 255 (100 * erases / (3000 * max f.goodBlocks 1))) + at' 16 (min 100 (100 * f.bufferUsed / max s.variant.bufferBlocks 1))
    + countWhere (fun d => d.1 = .rebuilding || d.1 = .failed) f.dies

/-- FLS_DIE (13 R358). -/
def State.flsDie (s : State) (d : Nat) : Nat :=
  let x := s.flash.die d
  match x.1 with
  | .notFitted => 3
  | .good => at' 16 x.2 + at' 8 (d / 8)
  | .rebuilding => at' 16 x.2 + at' 8 (d / 8) + 1
  | .failed => at' 16 x.2 + at' 8 (d / 8) + 2

/-- The FLS_ block (13 R354 to R359). -/
def State.flsReg (s : State) (off : Nat) : Nat :=
  let f := s.flash
  match off with
  | 0x00 => s.flsStatus
  | 0x04 => at' 31 (boolNat f.ctrlErr) + at' 24 f.foldHigh + at' 16 f.foldLow + at' 4 f.hotVisits + f.bgShare
  | 0x08 => at' 31 (boolNat f.patErr) + at' 24 f.patBlocks + at' 16 f.relocBits + f.aonStep
  | 0x0C => at' 20 f.passes + f.patNext
  | 0x10 => s.flsHealth
  | 0x38 => min f.holdupFlush 0xFFFFFFFF
  | _ =>
    if 0x3C ≤ off && off ≤ 0x60 then s.counter (0x000E0000 + off)
    else if 0x1000 ≤ off && off < 0x1400 then s.flsDie ((off - 0x1000) / 4)
    else 0

/-- FLT_STATUS (15 R412). -/
def State.fltStatus (s : State) : Nat :=
  let f := s.flt
  at' 18 f.clusterB.kitty + at' 16 f.clusterA.kitty + at' 8 f.fwResets + at' 5 (boolNat f.t1Reduced) + at' 4 (boolNat f.sLost)
    + at' 3 (boolNat f.m1Lost) + at' 2 (boolNat f.m0Lost) + at' 1 (boolNat f.standbyOk) + boolNat f.activeB

/-- A change of FLT_STATUS raises vector 31 (17 R447). -/
def State.announceFlt (s old : State) : State := if !s.power.ready || s.fltStatus = old.fltStatus then s else s.msix 31

/-- The FLT_ block (15 R412 to R417, 07 R195). -/
def State.fltReg (s : State) (off : Nat) : Nat :=
  let f := s.flt
  match off with
  | 0x00 => s.fltStatus
  | 0x04 => f.sticky.toNat
  | 0x08 => at' 16 f.lastHolder.toNat + f.lastGen.toNat
  | 0x0C => at' 31 (boolNat f.injArm) + at' 28 f.injKind.toNat + at' 16 f.injTarget.toNat
  | 0x120 => f.kfaultSrc.toNat
  | _ =>
    if (0x10 ≤ off && off ≤ 0x1C) || (0x28 ≤ off && off ≤ 0x50) || (0x400 ≤ off && off ≤ 0x420) then s.counter (0x000F0000 + off)
    else if 0x100 ≤ off && off < 0x120 then (match f.kfault with | some k => leNat ((k.toBytes.drop (off - 0x100)).take 4) | none => 0)
    else 0

/-! ### LNK_, HIF_, SEC_, DMP_ (16, 17, 20, 23) -/

/-- The coordinator: the lowest member of the set that this module does not consider lost (16 R429). -/
def State.coordinator (s : State) : Nat :=
  ((List.range 37).find? (fun m => s.cell.members.getLsbD m && !s.cell.lostMembers.contains m)).getD s.me

/-- LNK_STATUS (16 R438). -/
def State.lnkStatus (s : State) : Nat :=
  at' 16 s.coordinator + at' 8 (boolNat s.cell.isolated) + countWhere s.cell.members.getLsbD (List.range 37)

/-- A change of LNK_STATUS raises vector 31 (17 R447). -/
def State.announceLnk (s old : State) : State := if !s.power.ready || s.lnkStatus = old.lnkStatus then s else s.msix 31

/-- LNK_L_STATE's code of a mode (16 R440). -/
def LinkMode.code : LinkMode → Nat
  | .notFitted => 0 | .idle => 1 | .training => 2 | .up => 3 | .degraded => 4 | .rejected => 5 | .duplicate => 6 | .down => 7

/-- LNK_L_STATE (16 R440). -/
def Link.stateReg (l : Link) : Nat :=
  if l.mode = .notFitted then 0
  else
    (if 3 ≤ l.mode.code && l.mode.code ≤ 6 then at' 16 l.peer else 0) + at' 12 (boolNat l.spare)
      + at' 10 (boolNat l.laneA + boolNat l.laneB + boolNat l.spare) + l.mode.code

/-- The LNK_ block (16 R436 to R441). -/
def State.lnkReg (s : State) (off : Nat) : Nat :=
  let c := s.cell
  let cell (err en : Bool) (m : BitVec 6) (id : BitVec 16) : Nat := at' 31 (boolNat err) + at' 24 (boolNat en) + at' 16 m.toNat + id.toNat
  match off with
  | 0x00 => cell c.err c.enable c.member c.cellId
  | 0x04 => cell false c.actEnable c.actMember c.actCellId
  | 0x08 => s.lnkStatus
  | 0x0C => c.epoch
  | 0x10 => c.members.toNat % 2 ^ 32
  | 0x14 => c.members.toNat / 2 ^ 32
  | 0x18 => at' 30 (boolNat c.knockErr)
  | _ =>
    if 0x20 ≤ off && off ≤ 0x38 then s.counter (0x00100000 + off)
    else if 0x1000 ≤ off && off < 0x1480 then
      (match c.links[(off - 0x1000) / 0x20]? with
        | some l => if l.mode = .notFitted then 0 else if off % 0x20 = 0 then l.stateReg else s.counter (0x00100000 + off)
        | none => 0)
    else 0

/-- HIF_LINK's code of a mode (17 R460). -/
def cxlModeCode : CxlMode → Nat
  | .cxl31 => 0 | .cxl20 => 1 | .pcie => 2

/-- The HIF_ block with the MSI-X pending bits and table (17 R446, R447, R460 to R463). -/
def State.hifReg (s : State) (off : Nat) : Nat :=
  let c := s.cxl
  let pcie : Bool := c.mode = .pcie
  match off with
  | 0x00 => at' 8 (cxlModeCode c.mode) + at' 3 c.width + c.rate
  | 0x04 => if pcie then 0 else at' 31 (boolNat c.err) + at' 30 (boolNat c.short) + at' 16 c.activeGib + c.sizeGib
  | 0x0C => if pcie then 0 else at' 31 (boolNat c.flip.isSome) + at' 30 (boolNat c.flipErr) + c.devicePages.length
  | _ =>
    if 0x10 ≤ off && off ≤ 0x24 then s.counter (0x00110000 + off)
    else if 0x1000 ≤ off && off < 0x1100 then
      sumNat ((List.range 32).map (fun i => at' i (boolNat (c.pendingVec.contains (8 * (off - 0x1000) + i)))))
    else if 0x8000 ≤ off then
      (if off % 16 = 12 then boolNat !(c.unmasked.contains ((off - 0x8000) / 16)) else sparseGet 0 ((off - 0x8000) / 4) c.msixTable)
    else 0

/-- The image in the slot that is not active, when it is staged (20 R526, R534). -/
def Security.stagedImage (x : Security) : Option FwImage := if x.staged then (if x.activeSlot then x.slot0 else x.slot1) else none

/-- The SEC_ block (20 R538, R539). -/
def State.secReg (s : State) (off : Nat) : Nat :=
  let x := s.sec
  match off with
  | 0x00 => at' 31 (boolNat x.debugUnlocked) + at' 30 (boolNat x.erasing) + at' 29 (boolNat x.opkeyFused) + at' 16 x.svnFuse
      + at' 9 (boolNat x.probation) + at' 8 (boolNat x.staged) + boolNat x.activeSlot
  | 0x04 => match x.running with | some i => i.version | none => 0
  | 0x08 => match x.stagedImage with | some i => i.version | none => 0
  | 0x0C => at' 30 (boolNat x.debugErr)
  | 0x10 => x.nonce.toNat % 2 ^ 32
  | 0x14 => x.nonce.toNat / 2 ^ 32
  | _ => if 0x18 ≤ off && off ≤ 0x20 then s.counter (0x00120000 + off) else 0

/-- The DMP_ block but for its pair (23 R571). -/
def State.dmpReg (s : State) (off : Nat) : Nat :=
  let d := s.dump
  if !d.valid then 0
  else
    match off with
    | 0x00 => at' 8 d.cause + at' 1 (boolNat d.reduced) + 1
    | 0x0C => d.image.length
    | _ => 0

/-! ### Pairs (02 R61) -/

/-- The 64-bit value of the pair whose _LO register lies at an offset; none where no pair lies there. -/
def State.pair (s : State) (off : Nat) : Option Nat :=
  let o := off % 0x10000
  let live (l : List Nat) : Option Nat := if l.contains o then some (s.counter off) else none
  match off / 0x10000 with
  | 2 => live [0x20]
  | 3 => if 0x2000 ≤ o && o < 0x2800 && o % 32 = 8 then some (s.hand ((o - 0x2000) / 32)).tricks else none
  | 4 =>
    let g := o / 0x100
    if o ≥ 0xB000 || !s.variant.seatFitted g then none
    else if [0x08, 0x10, 0x18, 0x20].contains (o % 0x100) then some (s.counter off)
    else if [0x30, 0x38].contains (o % 0x100) then some (s.counter off / 4096)
    else none
  | 6 => if 0x3000 ≤ o && o < 0x3120 && o % 16 = 0 && s.variant ≠ .v9706 then some (s.counter off) else none
  | 7 =>
    if 0x1000 ≤ o && o < 0x2000 then
      (let c := (o - 0x1000) / 0x40
       match o % 0x40 with
       | 0x08 => some (match s.coll? c with | some x => x.published | none => 0)
       | 0x10 => some (s.counter off)
       | 0x18 => some (if s.variant = .v9706 then 0 else s.counter off)
       | _ => none)
    else if s.variant = .v9706 then none
    else live [0x10, 0x18, 0x20, 0x28]
  | 8 => if s.variant = .v9706 then none else live [0x00, 0x08, 0x10, 0x18]
  | 9 => live [0x00, 0x08, 0x10, 0x18]
  | 10 => live [0x00, 0x08, 0x10, 0x18]
  | 11 => live [0x10, 0x18, 0x20, 0x28, 0x30, 0x38]
  | 12 =>
    if 0x1000 ≤ o && o < 0x3000 then
      (let t := s.table? ((o - 0x1000) / 0x20)
       match o % 0x20 with
       | 0x08 => some (match t with | some x => x.applied | none => 0)
       | 0x10 => some (match t with | some x => x.ckpt.step | none => 0)
       | 0x18 => some (match t with | some x => x.rows.length | none => 0)
       | _ => none)
    else live [0x10, 0x18, 0x20]
  | 13 => live [0x00, 0x08, 0x10]
  | 14 =>
    match o with
    | 0x20 => some s.flash.hostBytes
    | 0x28 => some s.flash.nandBytes
    | 0x30 => some s.flash.erases
    | _ => none
  | 15 => live [0x20]
  | 19 => if o = 4 then some (if s.dump.valid then s.dump.seq else 0) else none
  | _ => none

/-! ### BAR0 (21 R540, R541, R543, 19 R506) -/

/-- A register that is no part of a pair. -/
def State.plainReg (s : State) (off : Nat) : Nat :=
  let o := off % 0x10000
  match off / 0x10000 with
  | 0 => s.modReg o
  | 1 => s.pwrReg o
  | 2 => s.cmdReg o
  | 3 => s.dlrReg o
  | 4 => s.seatRegs o
  | 5 => s.seatRegs (0x10000 + o)
  | 6 => s.audReg o
  | 7 => s.srchReg o
  | 8 => s.meldReg o
  | 9 => s.tokReg o
  | 10 => s.grmReg o
  | 11 => s.srvReg o
  | 12 => s.embReg o
  | 13 => s.tierReg o
  | 14 => s.flsReg o
  | 15 => s.fltReg o
  | 16 => s.lnkReg o
  | 17 => s.hifReg o
  | 18 => s.secReg o
  | 19 => s.dmpReg o
  | 20 => Config.cxlComponent o
  | _ => 0

/-- What a read of a doorbell page in BAR2 returns: TENANT_STATE; the write-only registers and reserved offsets read 0 (00 R13, 18 R469). -/
def State.bar2Reg (s : State) (off : Nat) : Word :=
  if off < 0x40000 && off % 0x1000 = 0x84 then BitVec.ofNat 32 (s.tenantState (off / 0x1000)) else 0

/-- What an aligned 32-bit read of BAR0 returns; `live` shows a _HI register's own value in place of the latched one. -/
def State.reg (s : State) (live : Bool) (off : Nat) : Word :=
  if off ≥ 2 ^ 26 || off % 4 ≠ 0 then 0
  else if off ≥ 0x10000 && !s.power.ready then 0xFFFFFFFF
  else
    match s.pair off with
    | some v => BitVec.ofNat 32 v
    | none =>
      match (if 4 ≤ off then s.pair (off - 4) else none) with
      | some v => BitVec.ofNat 32 (if live then v / 2 ^ 32 else sparseGet 0 off s.latch)
      | none => BitVec.ofNat 32 (s.plainReg off)

end Sys2Proof.Machine
end

