-- ==== Sys2Proof/Machine/Reset.lean ====
section
/-!
DEFINITION. What each reset keeps and loses, the persistent settings, and the bring-up sequence (19 R505 to R512, 17 R458, 15
R402, R403, 12 R306, 13 R333, 20 R527, 02 R31, R57, 03 R83, 14 R378). The choices are notes/assumptions/28.md.
-/
namespace Sys2Proof.Machine

/-! ### The persistent configuration block (19 R511, R512) -/

/-- The settings in force after a reset, and whether no copy is valid (19 R512). -/
def State.persistent (s : State) : Settings × Bool :=
  let a := s.power.copyA
  let b := s.power.copyB
  match a.crcOk, b.crcOk with
  | true, true => (if b.seq < a.seq then a.settings else b.settings, false)
  | true, false => (a.settings, false)
  | false, true => (b.settings, false)
  | false, false => (Settings.shipped s.variant, true)

/-- Every host-written setting takes its value from the persistent block (19 R511). -/
def State.applySettings (s : State) : State :=
  let c := s.persistent.1
  { s with
    steadyLoad := c.steadyLoad
    seats := s.seats.map (fun x => { x with steady := { x.steady with on := c.steadyLoad } })
    audCtrl := { s.audCtrl with tolShift := c.tolShift }
    dlr := { s.dlr with runTricks := c.runTricks, trickKcyc := c.trickKcyc }
    search := { s.search with window := c.window, batchMax := c.batchMax }
    serving := { s.serving with parkLimit := c.parkLimit, batchWait := c.batchWait, retry := c.retry, throttleRun := c.throttleRun }
    embed := { s.embed with sketchShift := c.sketchShift }
    flash := { s.flash with
      foldHigh := c.foldHigh, foldLow := c.foldLow, hotVisits := c.hotVisits, bgShare := c.bgShare, patBlocks := c.patBlocks
      relocBits := c.relocBits, aonStep := c.aonStep }
    cell := { s.cell with enable := c.cellEnable, member := c.cellMember, cellId := c.cellId }
    cxl := { s.cxl with sizeGib := c.hdmGib }
    power := { s.power with capW := c.capW } }

/-- The limits committed for a tenant number, if any (12 R320, 14 R382). -/
def State.committed (s : State) (t : Nat) : Option Limits := (s.persistent.1.limits.find? (fun x => x.1 == t)).map (fun x => x.2)

/-! ### Losing every tenant (17 R458, 19 R508, R510) -/

/-- Every tenant is lost with its queues, hands, requests and ledger, and nothing is posted; its objects stay under its number
with their charges (17 R458, 19 R510). -/
def State.loseTenants (s : State) : State :=
  let s := { s with cmds := [] }
  let s := (s.serving.reqs.map (fun r => r.id)).foldl State.dropRequest s
  let s := (s.pipes.map (fun p => p.cmd)).foldl State.dropPipe s
  let s := s.dropQueries (fun _ => true)
  let s := (s.invs.map (fun v => v.id)).foldl (fun s n => s.cancelInv n St.aborted) s
  let s := s.colls.foldl (fun s x => x.epochs.foldl (fun s e => s.rollback x.number e.cmd St.aborted) s) s
  { s with
    admin := .initial, rr := 63, issues := [], selections := [], pipes := []
    tenants := s.tenants.map (fun x => { Tenant.absent with t1 := ⟨0, x.t1.used⟩, t2 := ⟨0, x.t2.used⟩, t3 := ⟨0, x.t3.used⟩ })
    hands := s.hands.map (fun x => { x with
      valid := false, seats := [], pot := [], slices := [], resize := none, freeing := none, dealing := none, ready := [] })
    seats := s.seats.map (fun x => { x.emptied with
      mode := if x.mode = .dealt then .idle else x.mode, hand := 0, clearing := false, saving := false })
    colls := s.colls.map (fun x => { x with nextEpoch := x.published + 1, epochs := [], appends := [], compactCmds := [], evicting := none })
    models := s.models.map (fun x => { x with evicting := none })
    decks := s.decks.map (fun x => { x with evicting := none })
    automata := s.automata.map (fun x => { x with evicting := none })
    serving := { s.serving with batches := [] }
    embed := { s.embed with waiting := [] }
    tier := { s.tier with saveUsed := 0 } }

/-- PWR_RESET is written at every reset (19 R520). -/
def Power.record (p : Power) (kind : Nat) (trip foldBrown : Bool) : Power :=
  { p with
    kind := kind
    prevKind := if kind ≤ 2 then 0 else p.kind
    resetBrown := decide (kind = 2), resetFoldBrown := foldBrown, resetTrip := trip }

/-- CXL hot reset, link-down and FLR: kinds 6 to 8 (17 R458, 19 R508, R509). -/
def State.hostReset (s : State) (kind : Nat) : State :=
  let s := (s.loseTenants.applySettings).updPower (fun p => p.record kind false false)
  s.updCxl (fun c => { c with unmasked := [], pendingVec := [], msixTable := [] })

/-! ### Losing T1 (19 R507, R509) -/

/-- A seat after a hard reset: as shipped; a module reset keeps quarantines, those of a lost die too, and the kitty seats already dealt in
(02 R31, 14 R378). -/
def State.seatAfter (s : State) (keep : Bool) (g : Nat) : Seat :=
  let x := s.seat g
  if keep && x.mode = .quarantined then Seat.cleared .quarantined s.steadyLoad
  else if keep && g % 88 ≥ 80 && x.mode ≠ .dark && x.mode ≠ .quarantined then Seat.cleared .idle s.steadyLoad
  else Seat.shipped s.variant g s.steadyLoad

/-- An engine after a hard reset (03 R93, 19 R509). -/
def State.engineAfter (s : State) (keep : Bool) (e : Nat) : Engine :=
  let x := Engine.shipped s.variant e
  match s.search.engines[e]? with
  | some y => if keep then { x with mode := y.mode } else x
  | none => x

/-- A table after its T1 is lost: its rows are those of the current checkpoint, to be rebuilt one by one as they are needed (11 R296, R297). -/
def EmbTable.reverted (t : EmbTable) : EmbTable :=
  { t with
    rows := t.ckpt.rows, remap := t.ckpt.remap, emptySlots := t.ckpt.emptySlots, unbuilt := t.ckpt.rows.map (fun r => r.id), steps := []
    applied := t.ckpt.step, seen := [], sinceCkpt := 0, ckptDue := none, ckptNew := none, nextStep := t.ckpt.step + 1, remote := [] }

/-- A table goes back to its current generation; what was written of the next one is freed (11 R296, R297). -/
def State.revertTable (s : State) (t : EmbTable) : State :=
  (s.mediaFree (fun o => match o with | .table k g _ => k == t.number && g != t.ckptGen | _ => false)).putTable t.reverted

/-- Compaction under way is lost: what its copies were charged is released (05 R156). -/
def State.dropRewrites (s : State) : State :=
  s.colls.foldl (fun s x =>
    let rs := x.lists.filterMap (fun l => l.rewriting)
    ((s.releaseT1 x.tenant (sumNat (rs.map (fun r => r.t1)))).releaseT2 x.tenant (sumNat (rs.map (fun r => r.t2)))).updColl x.number (fun y =>
      { y with compacting := [], lists := y.lists.map (fun l => { l with rewriting := none }) })) s

/-- T1 loses its contents: every page is absent, to be filled again from its home, and TIERED blocks hold no T1 (01 R22, 12 R310, 19 R507). -/
def State.emptyT1 (s : State) : State :=
  let s := (s.tier.blocks.filter (fun x => x.present)).foldl (fun s x => s.releaseT1 x.tenant x.bytes) s
  { s with
    pt := s.pt.map (fun e => if e.1.level = 0 && entryT1 e.2.toNat then (e.1, e.2 &&& BitVec.ofNat 64 (2 ^ 64 - 257)) else e)
    tier := { s.tier with blocks := s.tier.blocks.map (fun x => { x with present := false, dirty := false }) } }

/-- What the flash keeps where a reset takes the controller's SRAM: the hold-up flush has saved the journal buffer and the parity of open
stripes, and no group or page goes on being filled (13 R335, R352, 19 R509). -/
def State.flashKept (s : State) : Flash :=
  let f := if s.flash.journal.isEmpty && s.flash.openStripes = 0 then s.flash else s.holdup.flash
  { f with ctrlErr := false, patErr := false, folding := false, bufGroup := none, qlcGroup := none, pack := none, patEarly := [] }

/-- Everything a hard reset loses: tenants, T1 contents, SRAM, volatile registers; `keep` for a module reset (19 R509). -/
def State.wipe (s : State) (keep : Bool) : State :=
  let s := s.loseTenants
  let s := ((s.emptyT1.freeCopies (fun _ => true)).dropRewrites).embAlone (fun _ => true)
  let s := s.embed.tables.foldl State.revertTable s
  let c := s.persistent.1
  let s' : State := { s with
    dlr := { err := false, runTricks := c.runTricks, trickKcyc := c.trickKcyc }
    hands := List.replicate 64 .none
    steadyLoad := c.steadyLoad
    audCtrl := { tolErr := false, tolShift := c.tolShift }
    audLast := { valid := false, kind := 0, unit := 0, row := 0, col := 0 }
    audInject := { arm := false, seat := 0, row := 0, col := 0, bit := 0 }
    search := { Search.idle s.variant c with engines := (List.range 18).map (s.engineAfter keep) }
    deckCache := [], maskCache := [], imageBuf := [], imageBad := [], potBad := []
    serving := .idle c
    embed := { Embed.idle c with tables := s.embed.tables }
    tier := { Tier.idle with
      blocks := s.tier.blocks, homed := s.tier.homed, nextFrame := s.tier.nextFrame, hostBlocks := s.tier.hostBlocks }
    flash := s.flashKept
    flt := { Flt.initial with
      sticky := if keep then s.flt.sticky else 0
      phasesLost := s.flt.phasesLost, converters := s.flt.converters }
    cell := { Cell.initial s.variant c with former := s.cell.former }
    cxl := { Cxl.initial c with perst := s.cxl.perst }
    sec := { s.sec with
      debugUnlocked := keep && s.sec.debugUnlocked, erasing := false, running := none, debugErr := false, scope := if keep then s.sec.scope else 0
      token := List.replicate 128 0, opkeyReg := List.replicate 32 0, spdmStep := 0, session := 0 }
    mgmt := { Mgmt.initial with straps := s.mgmt.straps, smbAddr := s.mgmt.smbAddr, sensors := s.mgmt.sensors, jtag := s.mgmt.jtag }
    dump := if keep then s.dump else { s.dump with eventSeq := 0, events := [] }
    ctr := [], latch := []
    mem := s.mem.filter (fun x => !(decide (x.1 < Space.hostPhys.key 0)
      || (decide ((Space.seat 0).key 0 ≤ x.1) && decide (x.1 < (Space.host 0).key 0)))) }
  ({ s' with seats := (List.range 176).map (fun g => ({ s with steadyLoad := c.steadyLoad } : State).seatAfter keep g) }).applySettings

/-- The start of a hard reset, kinds 1 to 5: what is lost is lost, PWR_RESET is written, and bring-up is due (19 R505, R509,
R520, 20 R536). -/
def State.hardReset (s : State) (kind : Nat) (trip foldBrown : Bool) : State :=
  let keep := decide (4 ≤ kind)
  let s := s.wipe keep
  let s := if kind = 1 then
      { s with flt := { s.flt with phasesLost := [], converters := 0 }, sec := { s.sec with failures := 0 } }
    else s
  let c := s.persistent
  let limit := min s.variant.maxWatts (min (if s.flt.phaseLimit then 400 else 1000) (if s.flt.converterLimit then 640 else 1000))
  s.updPower (fun p => { p.record kind trip foldBrown with
    phase := .bringUp, step := 0, ready := false, capErr := false, activeW := limit, capLevel := 16
    uvLevel := if keep then p.uvLevel else 16, thermalLevel := 16, dip := if keep then p.dip else 0, cfgDefault := c.2
    millivolts := 0, watts := 0, domains := [68], switches := [], cooled := false, heldReset := none
    wakeValid := if kind ≤ 2 then false else p.wakeValid
    wakeCause := if kind ≤ 2 then 0 else p.wakeCause, wakeLink := if kind ≤ 2 then 0 else p.wakeLink })

/-- The module is off but for its always-on domain: every volatile part is lost, and nothing answers (19 R500, R513, 22 R560, 23
R565). -/
def State.darken (s : State) (ph : Phase) (keep : Bool) : State :=
  (s.wipe keep).updPower (fun p => { p with phase := ph, ready := false, step := 0, domains := [68], switches := [] })

/-! ### Bring-up (19 R505) -/

/-- The domains of the variant (19 R498). -/
def Variant.hasDomain : Variant → Nat → Bool
  | .v9720, d => decide (d < 98)
  | .v9714, d => decide (d < 98) && !((decide (24 ≤ d) && decide (d ≤ 47)) || d == 77 || d == 78 || (decide (85 ≤ d) && decide (d ≤ 88))
      || d == 92 || d == 93 || d == 95 || d == 97)
  | .v9706, d => decide (d < 98) && !((decide (24 ≤ d) && decide (d ≤ 67)) || (decide (76 ≤ d) && decide (d ≤ 78))
      || (decide (83 ≤ d) && decide (d ≤ 88)) || (decide (92 ≤ d) && decide (d ≤ 95)))

/-- Whether a domain is on at READY: everything but the kitty quads, unless a seat of theirs is out of the kitty, and the engines
that are DARK (19 R499, R505 step 6, 02 R31). -/
def State.domainAtReady (s : State) (d : Nat) : Bool :=
  s.variant.hasDomain d &&
    (if d < 22 then (List.range 4).any (fun i => (s.seat (4 * d + i)).mode ≠ .dark)
     else if 24 ≤ d && d < 46 then (List.range 4).any (fun i => (s.seat (88 + 4 * (d - 24) + i)).mode ≠ .dark)
     else if 48 ≤ d && d ≤ 67 then
       !s.flt.sLost && (if d ≤ 65 then (match s.search.engines[d - 48]? with | some e => e.mode ≠ .dark | none => false) else true)
     else if d = 94 || d = 95 then !s.flt.sLost
     else true)

/-- Whether an image is valid, and whether only its SVN failed (20 R525, R527). -/
def Security.imageOk (x : Security) (b : List Byte) : Bool × Bool :=
  let len := fieldOf b 0x0C 4
  let key := (b.drop 0xB0).take 64
  let shape := fieldOf b 0 4 == 0x57464D55 && b.length == 256 + len && decide (len ≤ 2 ^ 26 - 256) && zeroRange b 0x0A 2
    && zeroRange b 0xF0 16 && decide (fieldOf b 9 1 ≤ 1) && decide (fieldOf b 8 1 ≤ 64)
  let signed := b.take 0x30
  let cosigned := bitAt (fieldOf b 9 1) 0
  let plain := cosigned || (zeroRange b 0x70 128)
  let op := if x.opkeyFused then
      cosigned && (sha256 key == x.opkeyHash) && Config.verifies 1 (key ++ signed) ((b.drop 0x70).take 64)
    else true
  let rest := shape && plain && (b.drop 0x10).take 32 == sha256 (b.drop 256) && Config.verifies 0 signed ((b.drop 0x30).take 64) && op
  (rest && decide (x.svnFuse ≤ fieldOf b 8 1), rest && !decide (x.svnFuse ≤ fieldOf b 8 1))

/-- The image record of an image's bytes. -/
def FwImage.ofBytes (b : List Byte) : FwImage :=
  { version := fieldOf b 4 4, svn := fieldOf b 8 1, digest := (b.drop 0x10).take 32, cosigned := bitAt (fieldOf b 9 1) 0, bytes := b }

/-- Whether the image in a slot is valid. The image a module carries from manufacture is (notes/assumptions/5.md); an empty slot is
not. -/
def Security.slotOk (x : Security) (i : Option FwImage) : Bool × Bool :=
  match i with
  | none => (false, false)
  | some i => if i.bytes.isEmpty then (decide (x.svnFuse ≤ i.svn) && !x.opkeyFused, !decide (x.svnFuse ≤ i.svn) && !x.opkeyFused) else x.imageOk i.bytes

/-- Count a slot that is not valid (20 R527). -/
def State.countInvalid (s : State) (r : Bool × Bool) : State := if r.1 then s else if r.2 then s.bump 0x0012001C else s.bump 0x00120018

/-- Secure boot, step 3: the active slot, else the other, else nothing (20 R527). -/
def State.secureBoot (s : State) : State × Bool :=
  let x := s.sec
  let act := if x.activeSlot then x.slot1 else x.slot0
  let alt := if x.activeSlot then x.slot0 else x.slot1
  let ra := x.slotOk act
  if ra.1 then (s.updSec (fun x => { x with running := act }), true)
  else
    let s := s.countInvalid ra
    let rb := x.slotOk alt
    if rb.1 then (s.updSec (fun x => { x with running := alt, activeSlot := !x.activeSlot, staged := false }), true)
    else (s.countInvalid rb, false)

/-- Step 4: T1 trains and the window is placed and zeroed; assignable T1 follows (12 R306, 17 R450). -/
def State.placeWindow (s : State) : State :=
  let usable := sumNat ((List.range 4).map (fun d => if s.dieLost d then 0 else s.variant.channels d * channelPages))
  let reserve := sumNat ((List.range 4).map s.variant.reservePages)
  let want := 16384 * s.cxl.sizeGib
  let hRoom := s.variant.channels 3 * channelPages - s.variant.reservePages 3
  let limits := sumNat (s.persistent.1.limits.map (fun l => l.2.t1))
  let short := decide (hRoom < want) || decide (usable < reserve + want + limits)
  let gib := if short then 0 else s.cxl.sizeGib
  let s := s.updCxl (fun c => { c with activeGib := gib, short := short, devicePages := [] })
  s.updTier (fun z => { z with assignable := usable - reserve - 16384 * gib })

/-- Reading the checkpoint slot and the journal counts as reads of their blocks (13 R347). -/
def State.readSlots (s : State) : State :=
  let v := s.variant
  let blocks := pinnedRange v.flashDies (ckptFrom s.flash.ckptSlot) 4 ++ pinnedRange v.flashDies journalFrom 4
  if !s.flash.ckptNamed then s
  else s.updFlash (fun f => { f with blks := f.blks.map (fun b => if blocks.contains b.num then { b with reads := b.reads + b.pages.length } else b) })

/-- What a torn journal loses beside the map: stored blocks none of whose records stand, with their charges, blocks retired since, and epochs
published since; blocks whose TRIM is discarded stand again (13 R328, R333). -/
def State.undo (s : State) (k : Ckpt) (kept : List JRec) : State :=
  let f := s.flash
  let first := f.ckpt.seq + kept.length
  let stands (e : Extent) : Bool := decide (e.seq < f.ckpt.seq)
    || e.lpns.all (fun l => kept.any (fun r => r.kind == 0 && r.a == l && decide (e.seq ≤ r.seq)))
  let gone := f.extents.filter (fun e => !stands e)
  let back := (f.trimmed.filter (fun t => decide (first ≤ t.1) && stands t.2)).map (fun t => t.2)
  let wrong (b : Blk) : Bool := b.use = .retired && !k.retired.contains b.num && (f.die (b.num / 4096)).1 = .good
  let again (b : Blk) : Blk := if wrong b then { b with use := if b.pages.isEmpty then .free else if 1023 < b.pages.length then .qlc else .buffer } else b
  let s := s.updFlash (fun f => { f with
    extents := f.extents.filter stands ++ back, trimmed := f.trimmed.filter (fun t => decide (t.1 < first)), blks := f.blks.map again
    dies := (f.dies.zip (List.range f.dies.length)).map (fun d => (d.1.1, d.1.2 - (f.blks.filter (fun b => wrong b && b.num / 4096 == d.2)).length)) })
  let s := gone.foldl (fun s e => s.releaseT2 e.tenant e.stored.charge) s
  let s := back.foldl (fun s e => s.chargeT2 e.tenant e.stored.charge) s
  s.colls.foldl (fun s x =>
    let e := ((k.epochs.find? (fun y => y.1 == x.number)).map (fun y => y.2)).getD 0
    if x.published ≤ e then s
    else (s.dropEpochs x.number ((List.range (x.published - e)).map (fun i => e + 1 + i))).updColl x.number (fun y =>
      { y with published := e, nextEpoch := e + 1 })) s

/-- Each page the map names is checked against its block's trailer; a mismatch marks it LOST (13 R333). -/
def State.checkTrailers (s : State) : State :=
  let f := s.flash
  let wrong := f.map.filter (fun x => match x.2 with | .at p => (f.blk (p / 4096)).pages[p % 4096]? ≠ some x.1 | .lost => false)
  s.updFlash (fun f => (wrong.map (fun x => x.1)).foldl Flash.lose f)

/-- Step 5: the current checkpoint is loaded and every record after it is replayed, up to the first whose CRC fails or whose SEQ breaks the
sequence; `tornAt` is a record that does not read back as it was written. What follows is discarded; the replayed state is then written as a new
checkpoint, so that the next SEQ, which is never reused, begins a sequence again (13 R330, R333; the last is DESIGN CHOICE,
notes/assumptions/19.md). -/
def State.replay (s : State) (tornAt : Option Nat) : State :=
  let f := s.flash
  let read := match tornAt with
    | some n => f.durable.modify n (fun r => { r with crc := (r.crc + 1) % 2 ^ 32 })
    | none => f.durable
  let kept := soundRecords f.ckpt.seq read
  let k := kept.foldl Ckpt.apply f.ckpt
  let torn := decide (kept.length < read.length)
  let s := s.readSlots.updFlash (fun f => { f with map := k.map, sealed := k.sealed, patNext := k.patNext, passes := k.passes, stopped := false })
  let s := (if torn then (s.undo k kept).bump 0x000E0060 else s).checkTrailers
  let s := if torn then s.checkpoint else s
  s.updFlash (Flash.settle s.variant)

/-- The bring-up sequence to READY: the reset record stands, firmware is verified, T1 trains, media are replayed, units come up; a
warning holds domains off, so bring-up waits (19 R505, R516). Without a valid image it stops after step 2 (20 R527). -/
def State.bringUp (s : State) (o : BringUp) : State :=
  if s.power.phase ≠ .bringUp || s.power.dip ≠ 0 || (s.power.kind = 4 && s.cxl.perst) then s
  else
    let s := s.updMgmt (fun m => { m with smbAddr := 0x4C + m.straps % 4, aliveStopped := false })
    let s := s.updCxl (fun c => { c with configReady := !c.perst })
    let on (ds : List Nat) (s : State) : State := s.updPower (fun p => { p with domains := sortBy (fun a b => decide (a < b)) (dedup (p.domains ++ ds)) })
    let s := on [79, 96] s
    let (s, ok) := s.secureBoot
    if !ok then s.updPower (fun p => { p with phase := .bootStopped, step := 2 })
    else
      let s := s.updFlt (fun f => { f with sLost := s.variant ≠ .v9706 && !o.sDieStarts })
      let s := (s.placeWindow).replay o.tornAt
      let s := on ((List.range 98).filter s.domainAtReady) s
      let s := s.updCxl (fun c => { c with memActive := true })
      s.updPower (fun p => { p with phase := .running, step := 7, ready := true })

/-- BRING_UP (19 R505). -/
def execBringUp (o : BringUp) (s : State) : Res := .next (s.bringUp o)

end Sys2Proof.Machine
end

