-- ==== Sys2Proof/Machine/Dump.lean ====
section
/-!
DEFINITION. Fatal errors, the state dump and its readers (23 R564 to R571). Where a section's bytes are the module's own they are
free values (notes/assumptions/29.md).
-/
namespace Sys2Proof.Machine

/-! ### The image (23 R567, R568) -/

/-- A section before it is placed: kind, unit, bytes. -/
structure Section where
  kind : Nat
  unit : Nat
  bytes : List Byte
  deriving DecidableEq, Repr

/-- Free bytes, `part` apart from every other part of one draw. -/
def freePart (draw part n : Nat) : List Byte := (List.range n).map (fun i => BitVec.ofNat 8 (Config.free draw (2 ^ 32 * part + i)))

/-- An event record; its always-on cycles are a free value (23 R568). -/
def Event.toBytes (draw : Nat) (e : Event) : List Byte :=
  leBytes 8 e.seq ++ leBytes 8 (Config.free draw (2 ^ 40 + e.seq)) ++ leBytes 2 e.code ++ leBytes 2 e.holder ++ leBytes 1 e.status
    ++ leBytes 3 0 ++ leBytes 8 e.arg

/-- The domain of the H-die unit, link groups or flash quarter that a unit section names (19 R498). -/
def sectionDomain : Nat → Nat
  | 8 => 75 | 9 => 71 | 10 => 72 | 11 => 73 | 12 => 74 | 13 => 96 | 14 => 89 | 16 => 80
  | u => 58 + u

/-- Unit sections of a full dump: units fitted and powered (23 R567). -/
def State.unitSections (s : State) : List Nat :=
  ([8, 9, 10, 11, 12, 13, 14].filter s.fitted ++ [16, 17, 18, 19, 20]).filter (fun u => s.powered (sectionDomain u))

/-- Die sections: dies fitted and powered; a lost die cannot be read, and its section has no bytes (23 R567). -/
def State.dieSections (s : State) (draw : Nat) : List Section :=
  ((List.range 4).filter (fun d => s.variant.channels d ≠ 0 && s.powered (90 + 2 * d))).map (fun d =>
    { kind := 1, unit := d, bytes := if s.dieLost d then [] else freePart draw d 65536 })

/-- The register snapshot; a reduced one holds the always-on PWR_ block (23 R567). -/
def State.snapshotSection (s : State) (draw : Nat) (reduced : Bool) : Section :=
  { kind := 3, unit := 0
    bytes := (List.range 0x54000).flatMap (fun i =>
      if reduced && !(decide (0x10000 ≤ 4 * i) && decide (4 * i < 0x20000)) then freePart draw (64 + i) 4
      else leBytes 4 (s.reg true (4 * i)).toNat) }

/-- The event log: the last 4,096 events, oldest first, in 128 KiB (23 R567, R568). -/
def State.eventSection (s : State) (draw : Nat) : Section :=
  let b := s.dump.events.flatMap (Event.toBytes draw)
  { kind := 4, unit := 0, bytes := b ++ List.replicate (131072 - b.length) 0 }

/-- The sections of a dump for a cause (23 R564, R567). -/
def State.dumpSections (s : State) (draw cause : Nat) : List Section :=
  if cause ≥ 3 then [s.snapshotSection draw true, s.eventSection draw]
  else
    s.dieSections draw ++ s.unitSections.map (fun u => { kind := 2, unit := u, bytes := freePart draw (8 + u) 16384 })
      ++ [s.snapshotSection draw false, s.eventSection draw,
          { kind := 5, unit := 0, bytes := if cause = 2 then [] else freePart draw 40 (2 ^ 22) }]

/-- Section entries and bytes from an offset on, each section on a 4 KiB boundary (23 R567). -/
def placeSections : List Section → Nat → List Byte × List Byte
  | [], _ => ([], [])
  | x :: xs, off =>
    let pad := roundUp x.bytes.length 4096 - x.bytes.length
    let (t, b) := placeSections xs (off + x.bytes.length + pad)
    (leBytes 1 x.kind ++ leBytes 1 x.unit ++ leBytes 2 0 ++ leBytes 4 x.bytes.length ++ leBytes 4 off ++ leBytes 4 (crc32c x.bytes) ++ t,
      x.bytes ++ List.replicate pad 0 ++ b)

/-- The 256-byte header with a CRC field (23 R567). -/
def State.dumpHeader (s : State) (draw cause : Nat) (fromT1 : Bool) (sections total crc : Nat) : List Byte :=
  leBytes 4 0x504D5544 ++ leBytes 2 1 ++ leBytes 1 cause ++ leBytes 1 (boolNat (decide (3 ≤ cause)) + 2 * boolNat fromT1)
    ++ leBytes 8 (s.dump.seq + 1) ++ leBytes 8 Config.serial.toNat ++ leBytes 4 s.modId
    ++ leBytes 4 (match s.sec.running with | some i => i.version | none => 0) ++ leBytes 8 (Config.free draw (2 ^ 41))
    ++ leBytes 4 sections ++ leBytes 4 total ++ leBytes 4 crc ++ List.replicate 204 0

/-- The dump of a fatal event (23 R567). -/
def State.dumpImage (s : State) (cause : Nat) (fromT1 : Bool) : List Byte :=
  let draw := s.fresh
  let secs := s.dumpSections draw cause
  let head := roundUp (256 + 16 * secs.length) 4096
  let (table, body) := placeSections secs head
  let crc := crc32c (s.dumpHeader draw cause fromT1 secs.length (head + body.length) 0 ++ table)
  s.dumpHeader draw cause fromT1 secs.length (head + body.length) crc ++ table ++ List.replicate (head - 256 - 16 * secs.length) 0 ++ body

/-! ### A fatal event (23 R564 to R566) -/

/-- The always-on domain runs and may find a cause: not without supply, and not when the module has stopped already. -/
def State.alwaysOn (s : State) : Bool :=
  s.power.phase ≠ .unpowered && s.power.phase ≠ .brownOut && s.power.phase ≠ .fatal

/-- The four steps of a fatal event: the dump replaces the one before it, ALIVE holds low, and every domain but 68 is off. They are
one step here, so no reset arrives before step 3 ends (23 R565, R566). -/
def State.fatal (s : State) (cause : Nat) : State :=
  if !s.alwaysOn || cause < 1 || 5 < cause || (cause ≤ 2 && s.power.phase ≠ .running) then s
  else
    let fromT1 := s.power.phase = .running && decide (cause ≤ 2) && (match s.tier.dies[3]? with | some d => d.lost.isEmpty | none => false)
    let image := s.dumpImage cause fromT1
    let s := s.draw
    let s := s.updDump (fun d => { d with valid := true, reduced := decide (3 ≤ cause), cause := cause, seq := d.seq + 1, image := image })
    let s := s.updFlash (fun f => f.writePinned (pinnedRange s.variant.flashDies dumpFrom 2) (ceilDiv image.length 16384))
    (s.darken .fatal true).updMgmt (fun m => { m with alive := false, aliveStopped := true })

/-- FATAL_ERROR (23 R564, R565). -/
def execFatalError (cause : Nat) (s : State) : Res := .next (s.fatal cause)

/-- ROM_CHECK: every 2^24 always-on cycles; a mismatch is fatal (23 R564). -/
def execRomCheck (same : Bool) (s : State) : Res := .next (if same then s else s.fatal 3)

/-! ### Reading the dump (23 R569, R570) -/

/-- Bytes of the dump from an offset on, cut at its end. -/
def Dump.bytes (d : Dump) (off n : Nat) : List Byte := if d.valid then (d.image.drop off).take n else []

/-- DUMP_READ (23 R569). -/
def execDumpRead (cmd : Nat) (s : State) : Res :=
  .next (match s.cmdAt cmd 0x0A01 0 with
    | none => s
    | some c =>
      let off := c.field 0x10 8
      let len := c.field 0x18 4
      if off % 64 ≠ 0 || len % 64 ≠ 0 || len < 64 || 2 ^ 24 < len then s.fail cmd St.badParam
      else
        match s.resolve c.tenant (c.field 0x20 8) len 1 with
        | none => s.fail cmd St.badParam
        | some k =>
          if !s.dump.valid then s.fail cmd St.notReady
          else if s.dump.image.length ≤ off then s.fail cmd St.badParam
          else
            let b := s.dump.bytes off len
            (s.wr k b).complete cmd St.ok b.length 0 0)

/-- Whether the management processor answers SMBus (22 R552, R554). -/
def State.smbusServed (s : State) : Bool := s.alwaysOn && s.power.phase ≠ .bringUp || s.power.phase = .fatal

/-- DUMP_INFO: the header over SMBus; nothing without a valid dump (23 R570). -/
def execDumpInfo (s : State) : Res := .next (if s.smbusServed then s.emit (.pldm (s.dump.bytes 0 256)) else s)

/-- DUMP_CHUNK: 256 bytes at an offset over SMBus (23 R570). -/
def execDumpChunk (off : Nat) (s : State) : Res := .next (if s.smbusServed then s.emit (.pldm (s.dump.bytes off 256)) else s)

end Sys2Proof.Machine
end

