-- ==== Sys2Proof/Machine/Failure.lean ====
section
/-!
DEFINITION. Failure and recovery: firmware cores and clusters, fences, unit hangs, T1 channels, dies, phases and converters,
injection (15 R391 to R415). The choices are notes/assumptions/26.md, 27.md and 31.md.
-/
namespace Sys2Proof.Machine

/-- An event that the management sideband reports: it awaits collection, and SMBALERT# is asserted (22 R552, R555). -/
def State.pldmEvent (s : State) (kind : Nat) : State :=
  (s.updMgmt (fun m => { m with events := m.events ++ [kind], alert := true })).emit (.pldmEvent kind)

/-- Whether firmware runs. -/
def State.fwRuns (s : State) : Bool := s.power.phase = .running

/-- Set a bit of FLT_STICKY (15 R413). -/
def State.stick (s : State) (bit : BitVec 8) : State := s.updFlt (fun f => { f with sticky := f.sticky ||| bit })

/-! ### Firmware cores and clusters (15 R395 to R398, 20 R534) -/

/-- A takeover or a firmware reset in probation reverts the active slot and empties the new image's (20 R534). -/
def State.revertProbation (s : State) : State :=
  if !s.sec.probation then s
  else s.updSec (fun x => { x with
    probation := false, activeSlot := !x.activeSlot, running := if x.activeSlot then x.slot0 else x.slot1
    slot0 := if x.activeSlot then x.slot0 else none, slot1 := if x.activeSlot then none else x.slot1 })

/-- Commands whose step a new active cluster runs again carry RECOVERED; which ones were in a step is a free value (15 R397, 18
R479). -/
def State.rerunSteps (s : State) : State :=
  let draw := s.fresh
  { s.draw with cmds := s.cmds.map (fun c => if Config.free draw c.handle % 2 = 1 then { c with recovered := true } else c) }

/-- Both clusters are reset and resume from the log; the second failure in a row is fatal (15 R398). -/
def State.fwReset (s : State) : State :=
  if s.flt.failedResets ≥ 2 then s.fatal 1
  else
    (((s.updFlt (fun f => { f with
      fwResets := min 255 (f.fwResets + 1), failedResets := f.failedResets + 1, standbyOk := false })).stick 2).revertProbation).rerunSteps

/-- A cluster hangs: the standby takes over, or both are reset; a hung standby is reset alone (15 R397, R398). -/
def State.clusterHang (s : State) (b : Bool) : State :=
  let s := s.fenceHolder (holderId 5 (boolNat b))
  if s.flt.activeB ≠ b then s.updFlt (fun f => { f with standbyOk := false })
  else if s.flt.standbyOk then
    let s := s.updFlt (fun f => { f with activeB := !f.activeB, standbyOk := false })
    (((s.fltBump 0x000F0034 (holderId 5 (boolNat b)) 0 0).stick 1).revertProbation).rerunSteps
  else s.fwReset

/-- A cluster by name. -/
def Flt.cluster (f : Flt) (b : Bool) : Cluster := if b then f.clusterB else f.clusterA

/-- Change a cluster. -/
def Flt.setCluster (f : Flt) (b : Bool) (c : Cluster) : Flt := if b then { f with clusterB := c } else { f with clusterA := c }

/-- A firmware core misses its watchdog point: it is fenced, and a kitty core takes its work, or the others do; fewer than four
are a hang (15 R396). -/
def State.coreFault (s : State) (b : Bool) (core : Nat) : State :=
  let s := s.fenceHolder (holderId 4 (8 * boolNat b + core))
  let c := s.flt.cluster b
  if c.kitty > 0 then
    (s.updFlt (fun f => f.setCluster b { c with kitty := c.kitty - 1 })).fltBump 0x000F0038 (holderId 4 (8 * boolNat b + core)) 0 0
  else
    let s := s.updFlt (fun f => f.setCluster b { c with inUse := c.inUse - 1 })
    if c.inUse - 1 < 4 then s.clusterHang b else s

/-- CORE_WATCHDOG (15 R396). -/
def execCoreWatchdog (cluster core : Nat) (s : State) : Res :=
  .next (if !s.fwRuns || cluster > 1 || core > 7 then s else (s.coreFault (cluster == 1) core).announceFlt s)

/-- CLUSTER_WATCHDOG (15 R397, R398). -/
def execClusterWatchdog (cluster : Nat) (s : State) : Res :=
  .next (if !s.fwRuns || cluster > 1 then s else (s.clusterHang (cluster == 1)).announceFlt s)

/-- CLUSTER_READY: a cluster that was reset, or came up, is ready as standby (15 R397). -/
def execClusterReady (cluster : Nat) (s : State) : Res :=
  .next (
    if !s.fwRuns || cluster > 1 || s.flt.activeB = (cluster == 1) then s
    else (s.updFlt (fun f => { f with standbyOk := true, failedResets := 0 })).announceFlt s)

/-! ### Unit hangs (15 R399, R403) -/

/-- The unit code of an issue as its bit of MOD_UNIT_PRESENT (00 R8, 04 R109). -/
def issueBit : Nat → Nat
  | 1 => 4 | 2 => 6 | 3 => 9 | 4 => 9 | 5 => 10 | 6 => 13 | _ => 12

/-- Issues of the units whose bit a test accepts end with a status, and their work is dropped. -/
def State.endIssues (s : State) (p : Nat → Bool) (status : Nat) : State :=
  let ks := (s.issues.filter (fun u => p (issueBit u.unit))).map (fun u => u.key)
  let s := s.dropQueries (fun q => match q.issue with | some k => ks.contains k | none => false)
  let s : State := { s with selections := s.selections.filter (fun x => !ks.contains x.key) }
  let s := s.updEmbed (fun z => { z with waiting := z.waiting.filter (fun w =>
    match w.who with | .issue k => !ks.contains k | .cmd _ => true) })
  ks.foldl (fun s k => s.finishIssue k status 0) s

/-- Search goes on without the S-die's units: issues, filtered queries and queries past 00 R4's limits end with UNIT_ABSENT; the
others start again on the seats (15 R403). -/
def State.searchOnSeats (s : State) : State :=
  let s := s.endIssues (fun b => b == 4 || (b == 6 && (s.flt.sLost || s.unitOut 6))) St.unitAbsent
  let big (q : Query) : Bool := match s.coll? q.coll with | some x => decide (q.keep x.desc > 1024) | none => false
  let live := s.search.queries.filter (fun q => q.stage < 4)
  let out := (live.filter (fun q => !(filterTerms q.filter).isEmpty || big q)).map (fun q => q.key)
  let s := s.endQueries out St.unitAbsent
  State.settleCopies <| s.updSearch (fun z => { z with
    collecting := none, closed := [], exactWaiting := z.exactWaiting.filter (fun k => has (fun q => q.key == k && q.full) z.queries)
    stalled := [], uncached := [], farWork := []
    engines := z.engines.map (fun e => { e with work := [], tables := [] })
    queries := z.queries.map (fun q =>
      if q.stage ≠ 2 || q.full then q
      else { q with
        stage := 1, probes := if q.exact then q.probes else q.ranking.take q.probed, partials := [], merged := [], farLate := 0
        late := false, duplicates := 0, unsent := [], recovered := true }) })

/-- Lanes of a unit (08 R213, 09 R231; notes/assumptions/26.md). -/
def unitLanes : Nat → Nat
  | 9 => 8 | 10 => 4 | _ => 1

/-- Fence a unit's lanes; the S-die's probe engines are holders of their own, and its other units hold no leases (15 R391). -/
def State.fenceUnit (s : State) (unit : Nat) : State :=
  if unit = 4 then ((List.range 18).filter (fun e => match s.search.engines[e]? with | some x => x.mode = .active | none => false)).foldl
    (fun s e => s.fenceHolder (holderId 1 e)) s
  else if unit < 8 then s
  else (List.range (unitLanes unit)).foldl (fun s l => s.fenceHolder (holderId 3 (16 * unit + l))) s

/-- The unit beside the seats that a query's stage waits for, by its bit: the tokenizer or, at the passage fetch, the tier engine
(01 R20). -/
def State.stageUnit (s : State) (p : Pipe) : Option Nat :=
  if p.stage = 1 then some 9
  else if p.stage = 3 && has (fun q => q.key == { cmd := p.cmd, idx := 0 } && q.stage == 5) s.search.queries then some 13
  else none

/-- Mark what waits on a unit that was reset and given its work again: issues, queries in search, pipeline stages, generation requests and
exchanges (15 R399, 01 R25, 18 R479). -/
def State.unitRecovered (s : State) (unit : Nat) : State :=
  let s := { s with issues := updWhere (fun u => issueBit u.unit == unit) (fun u => { u with recovered := true }) s.issues }
  let s := (s.pipes.filter (fun p => s.stageUnit p == some unit)).foldl (fun s p => s.recovered p.cmd) s
  let far := s.search.farWork.flatMap (fun j => j.queries)
  let hit (q : Query) : Bool := if unit = 8 then far.contains q.key else decide (unit < 8) && q.stage == 2
  let s := s.updSearch (fun z => { z with queries := updWhere hit (fun q => { q with recovered := true }) z.queries })
  let s := if unit = 11 then s.updServing (fun z => { z with reqs := updWhere (fun r => r.ended.isNone) (fun r => { r with recovered := true, stepRecovered := true }) z.reqs }) else s
  if unit = 12 then (s.embed.waiting.map (fun w => w.who)).foldl State.recoveredWaiter s else s

/-- A unit's domain is switched off and on: its SRAM caches lose their lines (15 R393, R399; that it takes no step of its own is DESIGN CHOICE,
notes/assumptions/26.md). -/
def State.powerCycle (s : State) (unit : Nat) : State :=
  match unit with
  | 4 => s.updSearch (fun z => { z with engines := z.engines.map (fun e => { e with tables := [] }) })
  | 9 => { s with deckCache := [] }
  | 10 => { s with maskCache := [], imageBuf := [], imageBad := [] }
  | 12 => s.updEmbed (fun z => { z with cache := [], cacheBad := [], sketch := [], accesses := 0 })
  | _ => s

/-- Leases that a FENCE message reclaims: intake slots of a seat whose work is gone, cached lines of a unit, a peer's entries of open steps, what a
tenant's cancelled work holds, and the pot shares of an M-die; a slot whose issuer lives is kept, its issue given to the unit again (15 R392, R393,
notes/assumptions/26.md). -/
def State.reclaim (s : State) (holder : Nat) : State :=
  let n := holder % 4096
  match holder / 4096 with
  | 0 => if (s.seat n).inv.isSome then { s with issues := updWhere (fun u => u.key.seat == n) (fun u => { u with recovered := true }) s.issues }
    else s.cancelIssues [n]
  | 1 => s.updSearch (fun z => { z with engines := z.engines.modify n (fun e => { e with tables := [] }) })
  | 3 => if n % 16 = 0 then s.powerCycle (n / 16) else s
  | 6 => s.shedSender n
  | 7 =>
    let s := (s.invs.filter (fun v => v.tenant == n && v.saved.isSome)).foldl (fun s v => s.cancelInv v.id St.aborted) s
    let s := (s.serving.reqs.filter (fun r => r.tenant == n && r.ended.isNone)).foldl (fun s r => s.stopRequestAs 8 St.aborted r.id) s
    s.cancelIssues (dedup ((s.issues.filter (fun u => u.tenant == n)).map (fun u => u.key.seat)))
  | 8 => { s with hands := s.hands.map (fun h => { h with
      pot := h.pot.filter (fun k => k / 80 ≠ n), slices := h.slices.filter (fun x => x.1 ≠ n) }) }
  | _ => s

/-- Whether a unit holds queued work. -/
def State.unitBusy (s : State) (unit : Nat) : Bool :=
  has (fun u => issueBit u.unit == unit) s.issues || (unit == 4 && has (fun q => q.stage == 2) s.search.queries)
    || (unit == 6 && !s.selections.isEmpty) || (unit == 11 && !s.serving.reqs.isEmpty) || (unit == 12 && !s.embed.waiting.isEmpty)
    || (unit == 8 && has (fun j => !j.queries.isEmpty) s.search.farWork) || has (fun p => s.stageUnit p == some unit) s.pipes
    || ((unit == 5 || unit == 7) && has (fun e => !e.work.isEmpty) s.search.engines)

/-- A unit goes out of service: the work of an S-die unit is handled as for the lost die, that of an H-die unit ends with
ABORTED_FAULT (15 R399). -/
def State.unitOutOf (s : State) (unit : Nat) : State :=
  let s := s.updFlt (fun f => { f with units := f.units.map (fun p => if p.unit = unit then { p with out := true } else p) })
  if 4 ≤ unit && unit ≤ 7 then s.searchOnSeats
  else
    let s := s.endIssues (fun b => b == unit) St.aborted
    let s := (s.serving.reqs.filter (fun r => r.ended.isNone && (unit == 11 || (unit == 10 && r.automaton.isSome)))).foldl
      (fun s r => s.stopRequestAs 8 St.aborted r.id) s
    let s := if unit = 12 then (s.embed.waiting.map (fun w => w.who)).foldl (fun s w => s.completeWaiter w St.aborted 0 0)
        (s.updEmbed (fun z => { z with waiting := [] })) else s
    let s := if unit = 9 then (s.pipes.filter (fun p => p.stage = 1)).foldl (fun s p => s.failPipe p.cmd St.aborted) s else s
    if unit = 8 then s.endQueries (dedup (s.search.farWork.flatMap (fun j => j.queries))) St.aborted else s

/-- A hung unit is fenced, reset, and given its work again from the copied descriptors; hung again within 2^24 cycles of its reset,
it goes out. Whether the second hang falls within is a free value (15 R399). -/
def State.unitHang (s : State) (unit : Nat) : State :=
  if !s.fitted unit || unit < 4 || unit > 14 || s.unitOut unit || !s.unitBusy unit || (unit ≤ 7 && s.flt.sLost) then s
  else
    let before := has (fun p => p.unit == unit) s.flt.units
    let again := before && Config.free s.fresh 0 % 2 = 1
    let s := (s.draw).fenceUnit unit
    let s := if before then s else s.updFlt (fun f => { f with units := f.units ++ [{ unit := unit, out := false }] })
    if again then s.unitOutOf unit
    else
      (((s.fltBump 0x000F003C (holderId 3 (16 * unit)) 0 0).stick 0x10).powerCycle unit).unitRecovered unit

/-- UNIT_WATCHDOG (15 R399). -/
def execUnitWatchdog (unit : Nat) (s : State) : Res := .next (if s.fwRuns then (s.unitHang unit).announceFlt s else s)

/-! ### Fences (15 R392, R393) -/

/-- FENCE: a home reclaims leases of lower generations; a fence of a generation already passed is refused (15 R392). -/
def execFence (holder generation : BitVec 16) (s : State) : Res :=
  .next (
    let h := holder.toNat
    let g := generation.toNat
    if !s.fwRuns || h / 4096 > 8 then s
    else if s.generation h < g then (s.fenceTo h g).reclaim h
    else if g < s.generation h then s.fltBump 0x000F0030 h 0 g
    else s)

/-! ### T1 channels (12 R309, 15 R400, R401) -/

/-- Poison lines (12 R308). -/
def State.poisonLines (s : State) (ls : List Nat) : State :=
  let new := (dedup ls).filter (fun l => !s.tier.poison.contains l)
  if new.isEmpty then s
  else ((s.bumpBy 0x000D0024 new.length).updTier (fun z => { z with poison := z.poison ++ new })).stick 0x80

/-- Lines of a channel that does not answer and that have no source: of the window, and of T1 frames whose content has none. Which
lines those are is a free value (15 R400, notes/assumptions/27.md). -/
def State.silentLines (s : State) (d draw : Nat) : List Nat :=
  let window := if d = 3 then s.cxl.activeGib * 2 ^ 23 else 0
  let w := if window = 0 then [] else
    (List.range (Config.free draw 1 % (window + 1))).map (fun i => Space.hdm.key 0 / 128 + Config.free draw (2 + 2 * i) % window)
  let frames := (s.framesOf d).filter (fun f => match s.framePage d f with | some p => s.sourceless p.1 p.2 | none => true)
  w ++ frames.flatMap (fun f => ((List.range 512).filter (fun i => Config.free draw (3 + 2 * (512 * f + i)) % 2 = 1)).map (fun i =>
    ((Space.t1 d).key (65536 * f)) / 128 + i))

/-- T1 of a die shrinks by so many channels (15 R401, 12 R306). -/
def State.reduceT1 (s : State) (channels : Nat) : State :=
  (s.updTier (fun z => { z with
    assignable := z.assignable - channels * channelPages, lostBytes := z.lostBytes + channels * channelPages * 65536 })).updFlt
      (fun f => { f with t1Reduced := true })

/-- A T1 channel is lost: its die absorbs it, or its pages are re-placed (12 R309, 15 R400, R401). -/
def State.loseChannel (s : State) (channel : Nat) (answers : Bool) : State :=
  let d := channel / 32
  let n := s.variant.channels d
  let x := s.tier.dies.getD d { lost := [], homing := [], beyond := 0 }
  if channel % 32 ≥ n || s.dieLost d || x.lost.contains channel then s
  else
    let draw := s.fresh
    let s := s.draw
    let s := (s.fltBump 0x000F0040 (holderId 8 d) 0 channel).stick 8
    let s := if answers then s else s.poisonLines (s.silentLines d draw)
    if x.lost.length - x.beyond < (if n = 32 then 2 else 1) then
      s.updTier (fun z => { z with dies := z.dies.modify d (fun x => { x with lost := x.lost ++ [channel], homing := x.homing ++ [channel] }) })
    else
      let s := s.updTier (fun z => { z with dies := z.dies.modify d (fun x => { x with lost := x.lost ++ [channel], beyond := x.beyond + 1 }) })
      let draw := s.fresh
      (s.draw.reduceT1 1).replaceT1 d (fun f => Config.free draw (2 * f) % 2 = 1) (fun r => Config.free draw (2 * r + 1) % 2 = 1)

/-- CHANNEL_LOSS (15 R400). -/
def execChannelLoss (channel : Nat) (answers : Bool) (s : State) : Res :=
  .next (if s.fwRuns then (s.loseChannel channel answers).announceFlt s else s)

/-- Accesses that waited for a channel to be re-homed issue again, on seats and in save areas (04 R118, R122, 14 R379). -/
def State.wakeHoming (s : State) : State := s.wakeWaits (fun _ => true) (fun w => w == .homing)

/-- CHANNEL_REHOME_DONE: every line of the channel has a new home (15 R400). -/
def execChannelRehomeDone (channel : Nat) (s : State) : Res :=
  .next ((s.updTier (fun z => { z with dies := z.dies.map (fun x => { x with homing := x.homing.filter (fun c => c ≠ channel) }) })).wakeHoming)

/-! ### Dies (15 R402, R403) -/

/-- Commands that need a seat (15 R402). -/
def State.needsSeats (s : State) (c : Cmd) : Bool :=
  match c.opcode with
  | 0x0304 => true
  | 0x0402 => true
  | 0x0501 => true
  | 0x0601 => true
  | 0x0901 => true
  | 0x0902 => true
  | 0x0401 => bitAt (c.field 0x16 2) 1 || bitAt (c.field 0x16 2) 3 || s.seatSearch
  | _ => false

/-- No seat is left: what needs one ends with ABORTED_FAULT (15 R402). -/
def State.abortSeatWork (s : State) : State :=
  let s := (s.cmds.filter s.needsSeats).foldl State.abortCmd s
  { s with hands := s.hands.map (fun x =>
      if x.dealing.isSome then { x with valid := false, seats := [], pot := [], slices := [], dealing := none }
      else { x with resize := none }) }

/-- Work of a seat that is gone: a stock invocation restarts, any other ends with ABORTED_FAULT (15 R402 step 3). -/
def State.breakInv (s : State) (v : Invocation) : State :=
  if v.stock then (s.restartInv v).recovered v.cmd else s.cancelInv v.id St.aborted

/-- Work of hands with seats on the die runs its step again and carries RECOVERED: decode steps, embedding and re-ranking, and searches that run
on the seats (01 R25, 15 R402, R403, 10 R268). -/
def State.repeatSteps (s : State) (d : Nat) : State :=
  let hit (h : Nat) : Bool := (s.hand h).valid && (s.hand h).seats.any (fun g => g / 88 == d)
  let reqs := s.serving.reqs.filter (fun r => hit r.hand && s.inStep r.id)
  let s' := reqs.foldl (fun s r => s.updReq r.id (fun r => { r with stepRecovered := true, recovered := true })) s
  let s' := if s.seatSearch then s'.recoverQueries (fun q => q.stage < 4 && (match q.hand with | some h => hit h | none => false)) else s'
  (s.pipes.filter (fun p => (p.stage = 2 && hit p.embedHand) || ((p.stage = 10 || p.stage = 11) && hit p.rerankHand))).foldl
    (fun s p => s.recovered p.cmd) s'

/-- An M-die is lost (15 R402). -/
def State.loseDie (s : State) (d : Nat) : State :=
  let seats := (List.range 88).map (fun i => 88 * d + i)
  let s := seats.foldl (fun s g => s.fenceHolder (holderId 0 g)) s
  let s := (s.fenceHolder (holderId 8 d)).reclaim (holderId 8 d)
  let s := (s.fltBump 0x000F004C (holderId 8 d) 0 d).stick 4
  let s := s.repeatSteps d
  let hit (v : Invocation) : Bool := v.seats.any (fun g => g / 88 == d) || (match v.saved with
    | some l => l.any (fun x => x.die == d)
    | none => false)
  let s := (s.invs.filter hit).foldl State.breakInv s
  let saving := dedup ((seats.filter (fun g => (s.seat g).saving)).map (fun g => (s.seat g).hand))
  let s := seats.foldl (fun s g => s.updSeat g (fun x => { x.emptied with
    mode := .quarantined, hand := 0, strikes := [0, 0, 0], clearing := false, saving := false, badWords := [] })) s
  let s := s.updFlt (fun f => if d = 0 then { f with m0Lost := true } else { f with m1Lost := true })
  let s := saving.foldl State.settleResize s
  let x := s.tier.dies.getD d { lost := [], homing := [], beyond := 0 }
  let s := (s.updTier (fun z => { z with dies := z.dies.modify d (fun x => { x with homing := [] }) })).wakeHoming
  let draw := s.fresh
  let s := ((s.draw).reduceT1 (s.variant.channels d - x.beyond)).replaceT1 d (fun _ => true) (fun r => Config.free draw r % 2 = 1)
  let s := (List.range 64).foldl (fun (s : State) h =>
    match (s.hand h).dealing with
    | some c => if (s.hand h).seats.any (fun g => (s.seat g).clearing) then s
        else (s.updHand h (fun x => { x with dealing := none })).complete c St.ok 0 h (s.hand h).seats.length
    | none => s) (if s.noSeats then s.abortSeatWork else s)
  s

/-- DIE_LOSS (15 R402). -/
def execDieLoss (die : Nat) (s : State) : Res :=
  .next (if !s.fwRuns || die > 1 || !s.variant.seatFitted (88 * die) || s.dieLost die then s else (s.loseDie die).announceFlt s)

/-- The S-die is lost (15 R403). -/
def State.loseSDie (s : State) : State :=
  let s := s.fenceHolder (holderId 8 2)
  let s := (s.fltBump 0x000F004C (holderId 8 2) 0 2).stick 4
  let s := s.updFlt (fun f => { f with sLost := true })
  let s := s.searchOnSeats
  let s : State := { s with colls := s.colls.map (fun (x : Collection) => { x with
    lists := x.lists.map (fun y => if y.place = .cached then { y with place := .t1 } else y) }) }
  let x := s.tier.dies.getD 2 { lost := [], homing := [], beyond := 0 }
  let s := (s.updTier (fun z => { z with dies := z.dies.modify 2 (fun x => { x with homing := [] }) })).wakeHoming
  let draw := s.fresh
  ((s.draw).reduceT1 (s.variant.channels 2 - x.beyond)).replaceT1 2 (fun _ => true) (fun r => Config.free draw r % 2 = 1)

/-- S_DIE_LOSS (15 R403). -/
def execSDieLoss (s : State) : Res :=
  .next (if !s.fwRuns || s.variant = .v9706 || s.flt.sLost then s else (s.loseSDie).announceFlt s)

/-- BRIDGE_RETRAIN: the credits of both ends begin anew; the state keeps none of them (15 R393, notes/assumptions/8.md). -/
def execBridgeRetrain (_dieA _dieB : Nat) (s : State) : Res := .next s

/-! ### SRAM upsets (15 R386) -/

/-- A bit of SRAM may flip while the module runs: a word of a seat buffer or a pot, a cached row, a stored mask or an image line; what flips, if
anything, is a free value (15 R386; that it falls on a step without a command is DESIGN CHOICE, notes/assumptions/46.md). Deck lines, hot-list words
and the meld unit's SRAM fail as operands of the commands that read them. -/
def State.upset (s : State) : State :=
  if !s.up then s
  else
    let d := s.fresh
    let s := s.draw
    let n := Config.free d 1
    match Config.free d 0 % 6 with
    | 0 =>
      let g := n % 176
      let w := 4 * (Config.free d 2 % 524288)
      if s.variant.seatFitted g && (s.seat g).mode ≠ .dark then
        s.updSeat g (fun x => { x with badWords := if x.badWords.contains w then x.badWords else x.badWords ++ [w] })
      else s
    | 1 =>
      let w := (Space.pot (n % 2)).key (4 * (Config.free d 2 % 25165824))
      { s with potBad := if s.potBad.contains w then s.potBad else s.potBad ++ [w] }
    | 2 => s.updEmbed (fun z => { z with cacheBad := match z.cache[n % max z.cache.length 1]? with
        | some x => if z.cacheBad.contains x then z.cacheBad else z.cacheBad ++ [x]
        | none => z.cacheBad })
    | 3 => { s with maskCache := s.maskCache.modify (n % max s.maskCache.length 1) (fun e => { e with parityBad := true }) }
    | 4 => { s with imageBad := match s.imageBuf[n % max s.imageBuf.length 1]? with
        | some x => if s.imageBad.contains x then s.imageBad else s.imageBad ++ [x]
        | none => s.imageBad }
    | _ => s

/-! ### Power parts (15 R404, R405) -/

/-- A limit on the power cap takes hold (15 R404, R405, 19 R504). -/
def State.lowerCap (s : State) (w : Nat) : State := s.updPower (fun p => { p with activeW := min p.activeW w })

/-- PHASE_LOSS: two per rail change nothing; a third lowers the cap to 400 W (15 R404). -/
def execPhaseLoss (rail : Nat) (s : State) : Res :=
  .next (
    if !s.fwRuns then s
    else
      let n := sparseGet 0 rail s.flt.phasesLost + 1
      let s := ((s.fltBump 0x000F0044 0 0 rail).stick 0x20).pldmEvent 0x20
      let s := s.updFlt (fun f => { f with phasesLost := sparsePut 0 rail n f.phasesLost })
      if n ≥ 3 then s.lowerCap 400 else s)

/-- CONVERTER_LOSS: of the four, the second lowers the cap to 640 W (15 R405). -/
def execConverterLoss (s : State) : Res :=
  .next (
    if !s.fwRuns || s.flt.converters ≥ 4 then s
    else
      let s := (s.fltBump 0x000F0048 0 0 0).stick 0x40
      let s := s.updFlt (fun f => { f with converters := f.converters + 1 })
      if s.flt.converters ≥ 2 then s.lowerCap 640 else s)

/-! ### Injection (15 R415) -/

/-- Cause the event an armed FLT_INJECT names, once; a target out of range and a reserved kind have no effect (15 R415). -/
def State.inject (s : State) (kind target : Nat) : State :=
  match kind with
  | 1 => if target = 0 then s.clusterHang s.flt.activeB else s
  | 2 => if target % 16 < unitLanes (target / 16) then s.unitHang (target / 16) else s
  | 3 => if target < 128 then s.draw.loseChannel target (Config.free s.fresh 0 % 2 = 1) else s
  | 4 => if target < 16 then s.coreFault (target / 8 == 1) (target % 8) else s
  | _ => s

/-- FLT_INJECT: writes count only while debug is unlocked for injection; an armed event is caused at once, and ARM clears (15 R415,
20 R535). -/
def execFltInjectWrite (v : Word) (s : State) : Res :=
  .next (
    if !s.up || !s.sec.debugUnlocked || !s.sec.scope.getLsbD 0 then s
    else
      let kind := bits v.toNat 30 28
      let target := bits v.toNat 27 16
      let s' := s.updFlt (fun f => { f with injArm := false, injKind := BitVec.ofNat 3 kind, injTarget := BitVec.ofNat 12 target })
      if bitAt v.toNat 31 then (s'.inject kind target).announceFlt s else s')

end Sys2Proof.Machine
end

