-- ==== Sys2Proof/Machine/Links.lean ====
section
/-!
DEFINITION. Links and the cell: training, frames that arrive, lanes and spares, heartbeats, membership, and the LNK_ writes (16 R418
to R441). The choices are notes/assumptions/32.md.
-/
namespace Sys2Proof.Machine

/-! ### Membership (16 R429 to R432) -/

/-- A MEMBERSHIP message (16 R429). -/
def membershipBytes (epoch : Nat) (members : BitVec 64) (change subject : Nat) : List Byte :=
  leBytes 4 epoch ++ leBytes 8 members.toNat ++ leBytes 1 change ++ leBytes 1 subject

/-- A member has left the set: it is fenced, its slots pass on, and messages for it are dropped (16 R429, 11 R280, R281, 15 R391). -/
def State.memberGone (s : State) (m : Nat) : State :=
  let s := s.updCell (fun c => { c with
    lostMembers := c.lostMembers.filter (fun x => x ≠ m), waiting := c.waiting.filter (fun x => x.dst ≠ m)
    links := c.links.map (fun k => { k with out := k.out.filter (fun x => x.dst ≠ m || x.sent ≠ 0) })
    routes := c.routes.filter (fun x => x.1 ≠ m) })
  (s.fenceHolder (holderId 6 m)).embLost m

/-- A change of the set takes effect here: every member that is no longer in it is gone, and the change is counted; where it brings this module
back, slots that passed on meanwhile follow (16 R429, R430, R432, 11 R280). -/
def State.applyMembership (s : State) (epoch : Nat) (members : BitVec 64) (change subject : Nat) : State :=
  let gone := (List.range 37).filter (fun m => m ≠ s.me && s.cell.members.getLsbD m && !members.getLsbD m)
  let was := s.cell.members.getLsbD s.me
  let s := s.updCell (fun c => { c with epoch := epoch, members := members })
  let s := if change = 0 then s.bump 0x00100024 else if change = 1 then s.bump 0x00100020 else s
  let s := if was && !members.getLsbD s.me then s.embAlone (fun _ => true) else s
  let s := gone.foldl State.memberGone s
  (if change = 0 && subject = s.me then s.embJoined else s).reroute

/-- The coordinator changes the set: the message goes to every member, and takes effect here (16 R429). -/
def State.changeSet (s : State) (change m : Nat) : State :=
  let bit : BitVec 64 := BitVec.ofNat 64 (2 ^ m)
  let members := if change = 0 then s.cell.members ||| bit else s.cell.members &&& ~~~bit
  let epoch := (s.cell.epoch + 1) % 2 ^ 32
  let msg := membershipBytes epoch members change m
  let rest := (List.range 37).filter (fun x => x ≠ s.me && members.getLsbD x)
  rest.foldl (fun s x => s.send x 0 msg) (s.applyMembership epoch members change m)

/-- Whether this module is the coordinator of its set (16 R429). -/
def State.coordinates (s : State) : Bool := s.cell.actEnable && s.coordinator == s.me

/-- A MEMBERSHIP message arrives: an epoch above the own one is applied, any other is discarded (16 R428, R429). -/
def State.recvMembership (s : State) (m : List Byte) : State :=
  let epoch := fieldOf m 0 4
  if !s.cell.actEnable then s
  else if epoch ≤ s.cell.epoch then s.bump 0x00100034
  else
    let s := if fieldOf m 12 1 = 0 && fieldOf m 13 1 = s.me then s.updCell (fun c => { c with isolated := false }) else s
    s.applyMembership epoch (BitVec.ofNat 64 (fieldOf m 4 8)) (fieldOf m 12 1) (fieldOf m 13 1)

/-- MEMBERSHIP (16 R429). -/
def execMembership (msg : List Byte) (s : State) : Res := .next (if s.up then (s.recvMembership msg).announceLnk s else s)

/-- Members the coordinator reaches, itself included (16 R431). -/
def State.reached (s : State) : List Nat :=
  (List.range 37).filter (fun m => s.cell.members.getLsbD m && !s.cell.lostMembers.contains m && (m == s.me || (s.routeTo m).isSome))

/-- Set ISOLATED once: the members it does not reach go on, and this module owns no slots (16 R431). -/
def State.isolate (s : State) : State :=
  if s.cell.isolated then s
  else
    let near := s.reached
    ((s.bump 0x00100038).updCell (fun c => { c with isolated := true })).embAlone (fun m => !near.contains m)

/-- The coordinator sends LOSS for what it finds lost, or isolates itself when it reaches too few (16 R430, R431). -/
def State.declareLost (s : State) : State :=
  let set := (List.range 37).filter s.cell.members.getLsbD
  let r := s.reached
  let goesOn := decide (set.length < 2 * r.length) || (2 * r.length == set.length && (match set with | m :: _ => r.contains m | [] => false))
  if goesOn then (s.cell.lostMembers.filter s.cell.members.getLsbD).foldl (fun s m => s.changeSet 1 m) s else s.isolate

/-- PEER_LOST: neither a link nor a heartbeat of the member for long enough (16 R430). -/
def execPeerLost (mem : Nat) (s : State) : Res :=
  .next (
    if !s.up || !s.cell.actEnable || mem = s.me || mem > 36 || !s.cell.members.getLsbD mem || (s.routeTo mem).isSome then s
    else
      let t := s.updCell (fun c => { c with lostMembers := if c.lostMembers.contains mem then c.lostMembers else c.lostMembers ++ [mem] })
      (if t.coordinates && !t.cell.isolated then t.declareLost else t).announceLnk s)

/-- LEAVE: the coordinator removes the member at once (16 R432). -/
def execLeave (mem : Nat) (s : State) : Res :=
  .next (
    if !s.up || !s.coordinates || mem = s.me || mem > 36 || !s.cell.members.getLsbD mem then s
    else (s.changeSet 2 mem).announceLnk s)

/-- An admitted peer outside the set is added by the coordinator (16 R432). -/
def State.admitPeer (s : State) (m : Nat) : State :=
  if s.coordinates && !s.cell.isolated && m ≤ 36 && !s.cell.members.getLsbD m then s.changeSet 0 m else s

/-- This module leaves its cell: the coordinator removes it, and it is a cell of one (16 R432, R436). -/
def State.leaveCell (s : State) : State :=
  if !s.cell.actEnable then s
  else
    let alone : BitVec 64 := BitVec.ofNat 64 (2 ^ s.me)
    let others := (List.range 37).filter (fun m => m ≠ s.me && s.cell.members.getLsbD m)
    let s :=
      if others.isEmpty then s
      else if s.coordinates then
        let epoch := (s.cell.epoch + 1) % 2 ^ 32
        others.foldl (fun s x => s.send x 0 (membershipBytes epoch (s.cell.members &&& ~~~alone) 2 s.me)) s
      else (s.send s.coordinator 0 ((List.range 16).map (fun i => BitVec.ofNat 8 (Config.free s.fresh i)))).draw
    let s := s.embAlone (fun _ => true)
    s.updCell (fun c => { c with actEnable := false, isolated := false, members := alone, lostMembers := [] })

/-! ### Links that go down and train (16 R424, R426, R427) -/

/-- Frames of a forwarding queue that belong to messages whose end has come in; the rest of what came on a link is dropped with it. -/
def keptFwd (l : Nat) : List (Nat × List Byte) → List (Nat × List Byte)
  | [] => []
  | x :: xs =>
    let whole := x.1 ≠ l || frameBit x.2 3 || has (fun y => y.1 == l && frameClass y.2 == frameClass x.2 && frameBit y.2 3) xs
    if whole then x :: keptFwd l xs else keptFwd l xs

/-- A link goes down and retrains: partial messages are discarded, unacknowledged ones are sent again whole by the route then in force,
and a DUPLICATE takes its place (16 R424, R426, R427). -/
def State.linkDown (s : State) (l : Nat) : State :=
  let k := s.link l
  let again := k.out.map (fun m => { m with sent := 0, last := none })
  let s := (s.bump (linkReg l 0x14)).updLink l (fun k => { Link.idle true with mode := .training, spare := k.spare })
  let s := s.updCell (fun c => { c with
    waiting := c.waiting ++ again
    links := c.links.map (fun j =>
      let f := keptFwd l j.fwd
      { j with
        fwd := f
        lock := j.lock.filter (fun x => x.2 ≠ l || has (fun y => y.1 == l && frameClass y.2 == x.1) f) }) })
  let s := match (if k.live then indexWhere (fun j => j.mode = .duplicate && j.peer == k.peer && j.peerSerial == k.peerSerial) s.cell.links
      else none) with
    | some j => s.updLink j (fun x => { x with mode := if boolNat x.laneA + boolNat x.laneB + boolNat x.spare = 2 then .up else .degraded })
    | none => s
  s.reroute

/-- A CTRL frame of this module: its payload is the module's own (notes/assumptions/32.md). -/
def State.sendCtrl (s : State) (l : Nat) : State :=
  let n := s.fresh
  s.draw.putFrame l 1 0 s.me (s.link l).peer ((List.range (Config.free n 0 % 241)).map (fun i => BitVec.ofNat 8 (Config.free n (i + 1))))

/-- The state the first heartbeats give a link (16 R426). -/
def State.judgeLink (s : State) (hb : List Byte) : LinkMode :=
  let m := fieldOf hb 2 1
  let serial := fieldOf hb 0x20 8
  let same := s.cell.links.filter (fun k => k.live && k.peer == m)
  if fieldOf hb 0x18 2 ≠ s.variant.deviceId then .rejected
  else if fieldOf hb 0 2 ≠ s.cell.actCellId.toNat || !bitAt (fieldOf hb 3 1) 2 || !s.cell.actEnable then .rejected
  else if m = s.me then .rejected
  else if has (fun k => k.peerSerial == serial) same then .duplicate
  else if !same.isEmpty then .rejected
  else .up

/-- A link completes training: sequence numbers and credits begin anew, and the first heartbeats decide its state; a lane that
failed training is counted (16 R423, R426, R427). -/
def State.trainLink (s : State) (l lanes : Nat) (hb : List Byte) : State :=
  let k := s.link l
  let mode := s.judgeLink hb
  let lost := boolNat k.spare
  let new : Link := { Link.idle true with
    mode := if mode = .up && lanes < 2 then .degraded else mode
    spare := k.spare, laneA := decide (lost < lanes), laneB := decide (lost + 1 < lanes)
    peer := fieldOf hb 2 1, peerSerial := fieldOf hb 0x20 8, peerHeard := BitVec.ofNat 64 (fieldOf hb 8 8)
    first := .firstLeg, second := .secondLeg, heard := true }
  let s := ((s.updLink l (fun _ => new)).bumpBy (linkReg l 0x1C) (2 - lanes)).sendCtrl l
  let s := if mode = .rejected then s.bump 0x00100030 else s
  if mode = .up then (s.admitPeer (fieldOf hb 2 1)).reroute else s

/-- LINK_TRAINED (16 R426). -/
def execLinkTrained (link lanes : Nat) (hb : List Byte) (s : State) : Res :=
  .next (
    let k := s.link link
    if !s.up || !s.powered (80 + link / 4) || link > 35 || lanes < 1 || lanes > 2
        || !(k.mode = .idle || k.mode = .training || k.mode = .down) then s
    else (s.trainLink link lanes hb).announceLnk s)

/-- RETRAIN_FAIL: the link is DOWN (16 R427). -/
def execRetrainFail (link : Nat) (s : State) : Res :=
  .next (if (s.link link).mode = .training then s.updLink link (fun k => { k with mode := .down }) else s)

/-- LINK_RETRAIN_RETRY: a DOWN link retrains every 2^20 always-on cycles (16 R427). -/
def execLinkRetrainRetry (link : Nat) (trains : Bool) (s : State) : Res :=
  .next (
    if !s.up || (s.link link).mode ≠ .down then s
    else
      let s := s.bump (linkReg link 0x14)
      if trains then s.updLink link (fun k => { k with mode := .training }) else s)

/-- HEARTBEAT_TIMEOUT: three intervals without a heartbeat (16 R427). -/
def execHeartbeatTimeout (link : Nat) (s : State) : Res :=
  .next (
    let k := s.link link
    if !s.up || !k.trained then s
    else ((s.bumpBy (linkReg link 0x10) (3 - k.missed)).linkDown link).announceLnk s)

/-! ### Lanes and spares (16 R419, R427) -/

/-- LANE_FAIL: the link goes on with its other lane and offers its group's spare, or goes down without one (16 R427). How many
uncorrectable codewords the lane brought is a free value (16 R441, notes/assumptions/32.md). -/
def execLaneFail (link lane : Nat) (s : State) : Res :=
  .next (
    let k := s.link link
    let works := match lane with | 0 => k.laneA | 1 => k.laneB | 2 => k.spare | _ => false
    if !s.up || !k.trained || !works then s
    else
      let t := (s.draw.bumpBy (linkReg link 0x0C) (Config.free s.fresh 0 % 2 ^ 24)).bump (linkReg link 0x1C)
      let t := t.updLink link (fun k => match lane with
        | 0 => { k with laneA := false } | 1 => { k with laneB := false } | _ => { k with spare := false })
      let k := t.link link
      if !k.laneA && !k.laneB && !k.spare then (t.linkDown link).announceLnk s
      else
        let offer := !s.cell.sparesUsed.contains (link / 4)
        (t.updLink link (fun k => { k with mode := if k.mode = .up then .degraded else k.mode, offered := offer })).sendCtrl link)

/-- SPARE_TRAINED: both ends offered, and the spare serves on S (16 R427). -/
def execSpareTrained (link : Nat) (s : State) : Res :=
  .next (
    let k := s.link link
    if !s.up || k.mode ≠ .degraded || !k.offered || !k.peerOffered then s
    else
      ((s.updLink link (fun k => { k with spare := true, mode := .up, offered := false, peerOffered := false })).bump 0x0010002C).updCell
        (fun c => { c with sparesUsed := c.sparesUsed ++ [link / 4] }))

/-- SPARE_TRAIN_FAIL: the link stays DEGRADED, and the spare is not offered again (16 R427). -/
def execSpareTrainFail (link : Nat) (s : State) : Res :=
  .next (
    let k := s.link link
    if !s.up || k.mode ≠ .degraded || !k.offered || !k.peerOffered then s
    else
      ((s.updLink link (fun k => { k with offered := false, peerOffered := false })).bump (linkReg link 0x1C)).updCell
        (fun c => { c with sparesUsed := c.sparesUsed ++ [link / 4] }))

/-! ### Frames that arrive (16 R421 to R425) -/

/-- Whether a frame with a SEQ is acknowledged by an ACK: both are modulo 65,536. -/
def acked (ack seq : Nat) : Bool := decide ((ack + 65536 - seq) % 65536 < 32768)

/-- What every good frame brings: the peer's acknowledgement and credits (16 R421 to R423). -/
def Link.heardFrame (k : Link) (f : List Byte) : Link :=
  let left := k.unacked.filter (fun u => !acked (frameAck f) u.seq)
  let c := fieldOf f 9 3
  { k with
    unacked := left
    out := k.out.filter (fun m => match m.last with | some q => has (fun u => u.seq == q) left | none => true)
    first := if frameBit f 6 then k.first else k.first.back .firstLeg c
    second := if frameBit f 6 then k.second.back .secondLeg c else k.second }

/-- A NAK: every frame from the SEQ the receiver expects is sent again; at the sixteenth time the link retrains (16 R422). -/
def State.resend (s : State) (l : Nat) : State :=
  let us := (s.link l).unacked.map (fun u => { u with resends := u.resends + 1 })
  let s := (s.bumpBy (linkReg l 8) us.length).updLink l (fun k => { k with unacked := us })
  let s := us.foldl (fun s u => s.emit (.frame l u.bytes)) s
  if us.any (fun u => decide (16 ≤ u.resends)) then s.linkDown l else s

/-- A heartbeat: direct and indirect liveness, isolation and admission (16 R425, R428, R431, R432). -/
def State.heartbeatIn (s : State) (l : Nat) (p : List Byte) : State :=
  let heard : BitVec 64 := BitVec.ofNat 64 (fieldOf p 8 8)
  let s := s.updLink l (fun k => { k with heard := true, missed := 0, peerHeard := heard })
  let k := s.link l
  if !k.live then s
  else
    let s := s.updCell (fun c => { c with lostMembers := c.lostMembers.filter (fun m => m ≠ k.peer && !heard.getLsbD m) })
    let off := bitAt (fieldOf p 3 1) 0
    let s := if off && k.peer = s.coordinator then s.isolate
      else if !off && s.cell.isolated then
        s.updCell (fun c => { c with
          isolated := false
          members := if bitAt (fieldOf p 0x10 8) c.actMember.toNat then c.members else BitVec.ofNat 64 (2 ^ c.actMember.toNat) })
      else s
    (if bitAt (fieldOf p 3 1) 1 then s else s.admitPeer k.peer).reroute

/-- A message is whole: the exchange takes its own, and a TRUMP message of a MEMBERSHIP's length is one; other TRUMP messages have no
layout here, and their own commands stand for them (16 R424, R429). -/
def State.deliver (s : State) (cls : Nat) (m : List Byte) : State :=
  if cls = 0 then (if m.length = 14 then s.recvMembership m else s) else s.embDeliver m

/-- A frame's receive entry is free again, and its credit is due to the sender (16 R423). -/
def State.freeEntry (s : State) (l : Nat) (f : List Byte) : State :=
  s.updLink l (fun k =>
    if frameBit f 5 then { k with freed2 := k.freed2.upd (frameClass f) (· + 1) }
    else { k with freed1 := k.freed1.upd (frameClass f) (· + 1) })

/-- A DATA frame: forwarded on its second leg, or added to the message of its class (16 R424, R428). -/
def State.dataIn (s : State) (l : Nat) (f : List Byte) : State :=
  let c := frameClass f
  if !(s.link l).live && c ≠ 0 then s.freeEntry l f
  else if frameDst f ≠ s.me then
    (match (if frameBit f 4 then s.linkTo (frameDst f) else none) with
      | some o => (s.updLink o (fun k => { k with fwd := k.fwd ++ [(l, f)] })).pumpLink o
      | none => s.freeEntry l f)
  else
    let s := s.freeEntry l f
    let old := if frameBit f 2 then [] else (((s.link l).partials.find? (fun x => x.1 == c)).map (fun x => x.2)).getD []
    let whole := old ++ framePayload f
    let s := s.updLink l (fun k => { k with
      partials := (if frameBit f 3 then [] else [(c, whole)]) ++ k.partials.filter (fun x => x.1 ≠ c) })
    if frameBit f 3 then s.deliver c whole else s

/-- A frame arrives on a link: a bad or out-of-sequence one is discarded and answered with one NAK; a frame no rule allows is
discarded; the others act by TYPE (16 R421 to R423). -/
def State.frameIn (s : State) (l : Nat) (f : List Byte) : State :=
  let k := s.link l
  if !frameOk f || (frameType f ≠ 3 && frameSeq f ≠ k.recvSeq) then
    let s := s.bump (linkReg l 4)
    if k.nakSent then s else (s.updLink l (fun k => { k with nakSent := true })).putFrame l 3 0 s.me k.peer []
  else
    let s := s.updLink l (fun k => { k.heardFrame f with
      recvSeq := if frameType f = 3 then k.recvSeq else (k.recvSeq + 1) % 65536, nakSent := frameType f = 3 && k.nakSent })
    let bad := frameType f > 3 || frameClass f = 3 || (frameBit f 5 && frameDst f ≠ s.me)
    let s := if bad then (if frameClass f = 3 then s else s.freeEntry l f).bump (linkReg l 0x18)
      else match frameType f with
        | 0 => s.dataIn l f
        | 1 => s.updLink l (fun k => { k with peerOffered := k.peerOffered || Config.ctrlOffer (framePayload f) })
        | 2 => (s.updLink l (fun k => { k with freed1 := k.freed1.upd 0 (· + 1) })).heartbeatIn l (framePayload f)
        | _ => s.resend l
    s.pumpLink l

/-- A frame that comes as a command of one TYPE: a damaged frame has none, and one of a reserved TYPE counts as DATA. -/
def State.frameOf (s : State) (ty l : Nat) (f : List Byte) : State :=
  let fits := !frameOk f || frameType f = ty || (ty = 0 && frameType f > 3)
  if !s.up || l > 35 || !(s.link l).trained || !fits then s else (s.frameIn l f).announceLnk s

/-- DATA, CTRL, NAK and HEARTBEAT (16 R421 to R425). -/
def execData (link : Nat) (frame : List Byte) (s : State) : Res := .next (s.frameOf 0 link frame)
def execCtrl (link : Nat) (frame : List Byte) (s : State) : Res := .next (s.frameOf 1 link frame)
def execHeartbeat (link : Nat) (frame : List Byte) (s : State) : Res := .next (s.frameOf 2 link frame)
def execNak (link : Nat) (frame : List Byte) (s : State) : Res := .next (s.frameOf 3 link frame)

/-! ### Heartbeats that leave (16 R425) -/

/-- The heartbeat payload of a link: 40 bytes (16 R425). -/
def State.heartbeatPayload (s : State) (l : Nat) : List Byte :=
  let c := s.cell
  let heard := (c.links.filter (fun k => k.live && decide (k.missed < 3))).foldl (fun n k => n ||| 2 ^ (k.peer % 64)) 0
  leBytes 2 c.actCellId.toNat ++ leBytes 1 s.me ++ leBytes 1 (boolNat c.isolated + 4 * boolNat c.actEnable) ++ leBytes 4 c.epoch
    ++ leBytes 8 heard ++ leBytes 8 c.members.toNat ++ leBytes 2 s.variant.deviceId ++ leBytes 1 l ++ leBytes 5 0
    ++ leBytes 8 Config.serial.toNat

/-- One heartbeat interval of a link: a missing heartbeat is counted, and one is sent when a TRUMP credit is held. -/
def State.beat (s : State) (l : Nat) : State :=
  let k := s.link l
  if !k.trained then s
  else
    let s := if k.heard then s.updLink l (fun k => { k with heard := false, missed := 0 })
      else (s.bump (linkReg l 0x10)).updLink l (fun k => { k with missed := k.missed + 1 })
    if k.first.trump = 0 then s
    else (s.updLink l (fun k => { k with first := k.first.upd 0 (· - 1) })).putFrame l 2 0 s.me k.peer (s.heartbeatPayload l)

/-- HEARTBEAT_SEND: every 12,000 fabric cycles, on every trained link (16 R425). -/
def execHeartbeatSend (s : State) : Res := .next (if s.up then (List.range 36).foldl State.beat s else s)

/-! ### LNK_ writes (16 R436, R439) -/

/-- LNK_CELL: pending values; a MEMBER out of range is ignored whole; ENABLE from 0 to 1 latches them, and from 1 to 0 leaves the cell
(16 R432, R436). -/
def execLnkCellWrite (v : Word) (s : State) : Res :=
  .next (
    let n := v.toNat
    if !s.up then s
    else if bits n 21 16 > s.variant.links then s.updCell (fun c => { c with err := true })
    else
      let t := s.updCell (fun c => { c with
        err := c.err && !bitAt n 31, enable := bitAt n 24, member := BitVec.ofNat 6 (bits n 21 16), cellId := BitVec.ofNat 16 n })
      if s.cell.actEnable then (if bitAt n 24 then t else t.leaveCell.announceLnk s)
      else if bitAt n 24 then
        (t.updCell (fun c => { c with
          actEnable := true, actMember := c.member, actCellId := c.cellId, isolated := false, lostMembers := []
          members := BitVec.ofNat 64 (2 ^ c.member.toNat) })).announceLnk s
      else t)

/-- LNK_KNOCK: a link that is UP, DEGRADED or not fitted sends nothing and sets ERR (16 R433, R439). -/
def execLnkKnockWrite (v : Word) (s : State) : Res :=
  .next (
    let n := v.toNat
    let l := bits n 5 0
    if !s.up then s
    else
      let s := s.updCell (fun c => { c with knockErr := c.knockErr && !bitAt n 30 })
      if !bitAt n 31 then s
      else if l > 35 || (s.link l).mode = .notFitted || (s.link l).live then s.updCell (fun c => { c with knockErr := true })
      else s.emit (.knock l))

end Sys2Proof.Machine
end

