-- ==== Sys2Proof/Machine/Cxl.lean ====
section
/-!
DEFINITION. The host attachment: configuration requests, the resets a host makes, the HDM window and its bias, interrupts, rejected
requests, DOE, SPDM and IDE (17 R442 to R463, 19 R508 to R514, 20 R531, R532). The choices are notes/assumptions/33.md.
-/
namespace Sys2Proof.Machine

/-! ### Resets from outside (17 R458, 19 R508, R509, R514, R516) -/

/-- A folded module wakes: the cause is recorded, and WAKE# is asserted for a knock or an SMBus transaction (19 R514, 22 R552). -/
def State.foldWake (s : State) (cause link : Nat) : State :=
  if s.power.phase ≠ .fold then s
  else
    ((s.hardReset 3 false false).updPower (fun p => { p with wakeValid := true, wakeCause := cause, wakeLink := link })).updMgmt
      (fun m => { m with wake := decide (3 ≤ cause) })

/-- A module reset by PERST# or by the management controller: held while a tripped module is hot; nothing without supply (19 R509,
R516, 22 R560). -/
def State.moduleReset (s : State) (kind : Nat) : State :=
  match s.power.phase with
  | .unpowered => s
  | .brownOut => s
  | .tripped =>
    if s.power.cooled then s.hardReset kind true false
    else s.updPower (fun p => { p with heldReset := match p.heldReset with | some k => some k | none => some kind })
  | _ => s.hardReset kind false false

/-- PERST_ASSERT: a module reset, or a wake from fold (19 R509, R514, R516). -/
def execPerstAssert (s : State) : Res :=
  .next (
    if s.cxl.perst then s
    else
      let s := s.updCxl (fun c => { c with perst := true, configReady := false })
      if s.power.phase = .fold then s.foldWake 2 0 else s.moduleReset 4)

/-- PERST_DEASSERT: configuration space begins to answer; a transition wakes a folded module, and is held by a tripped one (17 R445,
19 R514, 22 R560). -/
def execPerstDeassert (s : State) : Res :=
  .next (
    if !s.cxl.perst then s
    else
      let s := s.updCxl (fun c => { c with perst := false, configReady := s.powered 79 })
      if s.power.phase = .fold then s.foldWake 2 0
      else if s.power.phase = .tripped then s.moduleReset 4
      else s)

/-- The link is gone: it trains again, and what the host set up over it is lost (17 R456, R458). -/
def State.portDown (s : State) : State :=
  (s.updCxl (fun c => { c with mode := .cxl31, width := 0, rate := 0, ideKeys := none })).updSec (fun x => { x with
    spdmStep := 0, session := 0 })

/-- Whether the module runs with its port trained. -/
def State.portUp (s : State) : Bool := s.up && s.cxl.width ≠ 0

/-- LINK_DOWN: DL_Down is counted, and every tenant is lost (17 R458). -/
def State.linkLost (s : State) : State := ((s.hostReset 7).portDown).bump 0x00110010

/-- CXL_HOT_RESET, LINK_DOWN and FLR; in fold the module receives none (17 R458, 19 R508, R513). -/
def execCxlHotReset (s : State) : Res := .next (if s.portUp then (s.hostReset 6).portDown else s)
def execLinkDown (s : State) : Res := .next (if s.portUp then s.linkLost else s)
def execFlr (s : State) : Res := .next (if s.portUp then s.hostReset 8 else s)

/-- Whether a mode, width and rate can be trained (17 R442, R460). -/
def cxlTrains (mode : CxlMode) (width rate : Nat) : Bool :=
  (width = 4 || width = 8 || width = 16)
    && (match mode with | .cxl31 => rate = 2 | .cxl20 => rate = 1 | .pcie => decide (1 ≤ rate) && decide (rate ≤ 3))

/-- CXL_LINK_TRAINED: HIF_LINK shows the mode, and WAKE# is released (17 R442, R460, 22 R552). -/
def execCxlLinkTrained (mode : CxlMode) (width rate : Nat) (s : State) : Res :=
  .next (
    if !s.powered 79 || s.cxl.perst || s.cxl.width ≠ 0 || !cxlTrains mode width rate then s
    else (s.updCxl (fun c => { c with mode := mode, width := width, rate := rate })).updMgmt (fun m => { m with wake := false }))

/-! ### Configuration space (17 R445) -/

/-- A word of configuration space: the Device ID and the class code; the rest is not the manual's (00 R2, 17 R445). -/
def State.configWord (s : State) (off : Nat) : Word :=
  if off = 0 then BitVec.ofNat 32 (s.variant.deviceId * 65536 + (Config.configSpace 0).toNat % 65536)
  else if off = 8 then BitVec.ofNat 32 (0x120000 * 256 + (Config.configSpace 8).toNat % 256)
  else Config.configSpace off

/-- CONFIG_REQUEST: Request Retry Status until the module can answer (17 R445). -/
def execConfigRequest (off : Nat) (s : State) : Res :=
  .next (
    if !s.powered 79 || s.cxl.perst then s
    else s.emit (.config off (if s.cxl.configReady then some (s.configWord off) else none)))

/-! ### The HDM window (17 R450 to R454, R459) -/

/-- 2 MiB pages a range touches. -/
def pagesOf (off len : Nat) : List Nat := (List.range ((off + len + 2097151) / 2097152 - off / 2097152)).map (fun i => off / 2097152 + i)

/-- The flip in progress completes (17 R453). -/
def State.finishFlip (s : State) : State :=
  match s.cxl.flip with
  | none => s
  | some f => s.updCxl (fun c => { c with
      flip := none
      devicePages := if f.2 then (if c.devicePages.contains f.1 then c.devicePages else c.devicePages ++ [f.1])
        else c.devicePages.filter (fun p => p ≠ f.1) })

/-- Before a host access: a flip of one of its pages ends, and device-bias pages are flipped to host bias (17 R452, R459). -/
def State.hostAccess (s : State) (pages : List Nat) : State :=
  let s := match s.cxl.flip with | some f => if pages.contains f.1 then s.finishFlip else s | none => s
  let hit := pages.filter s.cxl.devicePages.contains
  (s.bumpBy 0x00110020 hit.length).updCxl (fun c => { c with devicePages := c.devicePages.filter (fun p => !hit.contains p) })

/-- Whether the host can send CXL.mem requests: the port has trained in a CXL mode. -/
def State.memPort (s : State) : Bool := s.cxl.width ≠ 0 && s.cxl.mode ≠ .pcie

/-- HDM_READ: served from T1, with poison where a line has it; poisoned before Memory_Active (17 R451, R452, R454). -/
def execHdmRead (off len : Nat) (s : State) : Res :=
  .next (
    if !s.memPort then s
    else if !s.cxl.memActive then (s.bump 0x0011001C).emit (.mem off [] true)
    else if s.hdmBytes < off + len then s
    else
      let s := s.hostAccess (pagesOf off len)
      let k := Space.hdm.key off
      let bad := s.poisoned k len
      let s := if bad then s.bump 0x00110018 else s
      s.emit (.mem off (s.rd k len) bad))

/-- HDM_WRITE: a write of a whole line clears its poison (17 R451, R452, R454). -/
def execHdmWrite (off : Nat) (bytes : List Byte) (s : State) : Res :=
  .next (
    if !s.memPort then s
    else if !s.cxl.memActive then (s.bump 0x0011001C).emit (.mem off [] true)
    else if s.hdmBytes < off + bytes.length then s
    else (s.hostAccess (pagesOf off bytes.length)).wr (Space.hdm.key off) bytes)

/-- SNOOP: the module keeps no host line (17 R449). -/
def execSnoop (addr : Addr) (s : State) : Res := .next (if s.memPort then s.emit (.snoopMiss addr) else s)

/-- HIF_HDM: the size holds from the next reset that loses T1; one above 256 is ignored and sets ERR (17 R461). -/
def execHifHdmWrite (v : Word) (s : State) : Res :=
  .next (
    let n := bits v.toNat 8 0
    if !s.up || s.cxl.mode = .pcie then s
    else if n > 256 then s.updCxl (fun c => { c with err := true })
    else s.updCxl (fun c => { c with err := c.err && !bitAt v.toNat 31, sizeGib := n }))

/-- HIF_BIAS_FLIP: one flip at a time, of a page inside the window (17 R453, R459, R462). -/
def execHifBiasFlipWrite (v : Word) (s : State) : Res :=
  .next (
    let page := bits v.toNat 16 0
    if !s.up || s.cxl.mode = .pcie || !bitAt v.toNat 31 then s
    else if s.cxl.flip.isSome || 512 * s.cxl.activeGib ≤ page then s.updCxl (fun c => { c with flipErr := true })
    else s.updCxl (fun c => { c with flip := some (page, bitAt v.toNat 30) }))

/-- BIAS_FLIP_DONE (17 R453). -/
def execBiasFlipDone (s : State) : Res := .next s.finishFlip

/-! ### Interrupts and rejected requests (17 R447, R448) -/

/-- The mask bit of a vector is cleared: a pending interrupt is sent (17 R447). -/
def State.unmask (s : State) (vec : Nat) : State :=
  if vec ≥ 2048 || s.cxl.unmasked.contains vec then s
  else
    let due := s.cxl.pendingVec.contains vec
    let s := s.updCxl (fun c => { c with unmasked := c.unmasked ++ [vec], pendingVec := c.pendingVec.filter (fun x => x ≠ vec) })
    if due then s.emit (.msix vec) else s

/-- MSIX_VECTOR_UNMASK (17 R447). -/
def execMsixVectorUnmask (vec : Nat) (s : State) : Res := .next (if s.power.ready then s.unmask vec else s)

/-- HOST_REJECT: the work that needed the request ends with ABORTED_FAULT; a rejected queue access makes the tenant FAULTED (17 R448,
18 R490). -/
def execHostReject (what : RejectOf) (s : State) : Res :=
  .next (
    if !s.up then s
    else match what with
      | .sqRead t q => if (s.queue t q).isSome then (s.bump 0x00110014).tenantFault t 1 else s
      | .cqWrite t q => if (s.queue t q).isSome then (s.bump 0x00110014).tenantFault t 2 else s
      | .work h => match s.cmd? h with | some c => (s.bump 0x00110014).abortCmd c | none => s)

/-! ### DOE, SPDM and IDE (17 R455, R456, 20 R531, R532) -/

/-- Whether the mailbox answers. -/
def State.doeUp (s : State) : Bool := s.portUp && s.cxl.configReady

/-- DOE_DISCOVERY: the four protocols of the mailbox (17 R455). -/
def execDoeDiscovery (idx : Nat) (s : State) : Res := .next (if s.doeUp then s.emit (.doe (Config.doeDiscovery idx)) else s)

/-- CDAT_READ: the window as one memory range, 600 ns and 200 GB/s (17 R455). -/
def execCdatRead (entry : Nat) (s : State) : Res :=
  .next (if s.doeUp then s.emit (.doe (Config.cdatEntry entry s.hdmBytes 600 200)) else s)

/-- SPDM answers by response code (DSP0274, notes/assumptions/33.md). -/
def State.spdm (s : State) (code : Nat) (b : List Byte) : State := s.emit (.spdm code b)

/-- An SPDM error. -/
def State.spdmError (s : State) : State := s.spdm 0x7F []

/-- Digest and SVN of the running image. -/
def Security.identity (x : Security) : List Byte × Nat := match x.running with | some i => (i.digest, i.svn) | none => ([], 0)

/-- The chain of slot 0, and a signature by the alias key (20 R531, R532). -/
def Security.chain (x : Security) : List Byte := Config.chain x.identity.1 x.identity.2
def Security.sign (x : Security) (b : List Byte) : List Byte := Config.sign x.identity.1 b

/-- The measurement blocks (20 R532). -/
def Security.measurement (x : Security) : Nat → List Byte
  | 1 => sha256 Config.rom
  | 2 => x.identity.1
  | 3 => leBytes 4 (match x.running with | some i => i.version | none => 0) ++ leBytes 1 x.identity.2 ++ leBytes 1 x.svnFuse
  | 4 => leBytes 1 (boolNat x.opkeyFused) ++ x.opkeyHash ++ leBytes 1 (boolNat x.debugUnlocked)
  | _ => match x.stagedImage with | some i => i.digest | none => List.replicate 32 0

/-- An SPDM request that needs the connection at a step: what it answers, or an error. -/
def State.spdmAt (s : State) (step : Nat) (f : State → State) : Res :=
  .next (if !s.doeUp then s else if s.sec.spdmStep < step then s.spdmError else f s)

/-- GET_VERSION: the connection begins anew; SPDM 1.2. -/
def execGetVersion (s : State) : Res :=
  s.spdmAt 0 (fun s => (s.updSec (fun x => { x with spdmStep := 1, session := 0 })).spdm 0x04 [0x12])

/-- GET_CAPABILITIES. -/
def execGetCapabilities (s : State) : Res :=
  s.spdmAt 1 (fun s => (s.updSec (fun x => { x with spdmStep := max x.spdmStep 2 })).spdm 0x61 (Config.spdmBody 0xE1))

/-- NEGOTIATE_ALGORITHMS: ECDSA P-256, SHA-256, DHE secp256r1 and AES-256-GCM, by the bits offered, and no others. -/
def execNegotiateAlgorithms (offered : BitVec 4) (s : State) : Res :=
  s.spdmAt 2 (fun s => (s.updSec (fun x => { x with spdmStep := 3 })).spdm 0x63 (leBytes 1 offered.toNat))

/-- GET_DIGESTS: SHA-256 of the chain of slot 0, the only one that holds one. -/
def execGetDigests (s : State) : Res := s.spdmAt 3 (fun s => s.spdm 0x01 (sha256 s.sec.chain))

/-- GET_CERTIFICATE: slot 0 holds the chain, the other slots are empty (20 R531). -/
def execGetCertificate (slot : Nat) (s : State) : Res :=
  s.spdmAt 3 (fun s => if slot = 0 then s.spdm 0x02 s.sec.chain else s.spdmError)

/-- SET_CERTIFICATE completes with an SPDM error (20 R531). -/
def execSetCertificate (_slot : Nat) (s : State) : Res := s.spdmAt 0 State.spdmError

/-- CHALLENGE: the answer is signed by the alias key (20 R532). -/
def execChallenge (nonce : List Byte) (s : State) : Res :=
  s.spdmAt 3 (fun s =>
    let b := sha256 s.sec.chain ++ nonce
    s.spdm 0x03 (b ++ s.sec.sign b))

/-- GET_MEASUREMENTS: one block, or all five, signed by the alias key (20 R532). -/
def execGetMeasurements (index : Nat) (s : State) : Res :=
  s.spdmAt 3 (fun s =>
    let ix := if index = 255 then [1, 2, 3, 4, 5] else [index]
    if index ≠ 255 && (index < 1 || 5 < index) then s.spdmError
    else
      let b := ix.flatMap (fun i => leBytes 1 i ++ leBytes 2 (s.sec.measurement i).length ++ s.sec.measurement i)
      s.spdm 0x60 (b ++ s.sec.sign b))

/-- KEY_EXCHANGE begins a session; FINISH establishes it when it verifies; END_SESSION ends it (20 R532). -/
def execKeyExchange (s : State) : Res :=
  s.spdmAt 3 (fun s => (s.updSec (fun x => { x with session := 1 })).spdm 0x64 (Config.spdmBody 0xE4))
def execFinish (verifies : Bool) (s : State) : Res :=
  s.spdmAt 3 (fun s =>
    if s.sec.session ≠ 1 then s.spdmError
    else if verifies then (s.updSec (fun x => { x with session := 2 })).spdm 0x65 (Config.spdmBody 0xE5)
    else (s.updSec (fun x => { x with session := 0 })).spdmError)
def execEndSession (s : State) : Res :=
  s.spdmAt 3 (fun s =>
    if s.sec.session ≠ 2 then s.spdmError else (s.updSec (fun x => { x with session := 0 })).spdm 0x6C [])

/-- IDE_KM: keys are programmed within a session, in the CXL modes (17 R456). -/
def execIdeKm (keys : List Byte) (s : State) : Res :=
  s.spdmAt 3 (fun s =>
    if s.sec.session ≠ 2 || s.cxl.mode = .pcie then s.spdmError
    else (s.updCxl (fun c => { c with ideKeys := some keys })).spdm 0x7E [])

/-- IDE_FAIL: the link goes down (17 R456). -/
def execIdeFail (s : State) : Res := .next (if s.portUp && s.cxl.ideKeys.isSome then (s.bump 0x00110024).linkLost else s)

end Sys2Proof.Machine
end

