-- ==== Sys2Proof/Machine/Queues.lean ====
section
/-!
DEFINITION. Doorbells, intake, the admin queue and the module and tenant opcodes, with the 6410 subset (18 R464 to R495, 17 R444, 19
R512, R513). The choices are notes/assumptions/34.md.
-/
namespace Sys2Proof.Machine

/-! ### Doorbells (18 R469, R470) -/

/-- Whether a doorbell write to a queue takes effect: one aligned 32-bit write of an index below the queue's entries, to a queue of
a tenant that is not resetting. -/
def State.doorbellOk (s : State) (t width v : Nat) (entries : Option Nat) : Bool :=
  width == 4 && (s.tenant t).reset.isNone && (match entries with | some n => decide (v < n) | none => false)

/-- A doorbell: nothing before READY; what is ignored is counted. -/
def State.doorbell (s : State) (t q width v : Nat) (entries : QPair → Nat) (f : QPair → QPair) : State :=
  if !s.up || t > 63 then s
  else if s.doorbellOk t width v ((s.queue t q).map entries) then s.updQueue t q f
  else s.bump 0x00020028

/-- SQ_TAIL (18 R470). -/
def execSqTail (t q width : Nat) (v : Word) (s : State) : Res :=
  .next (s.doorbell t q width v.toNat QPair.sqEntries (fun p => { p with sqTail := v.toNat }))

/-- CQ_HEAD (18 R470, R476). -/
def execCqHead (t q width : Nat) (v : Word) (s : State) : Res :=
  .next (s.doorbell t q width v.toNat QPair.cqEntries (fun p => { p with cqHead := v.toNat }))

/-- TENANT_CTRL: 1 resets the tenant, or joins the reset in progress (18 R469, R470, R494). -/
def execTenantCtrl (t width : Nat) (v : Word) (s : State) : Res :=
  .next (
    if !s.up || t > 63 then s
    else if width ≠ 4 || v ≠ 1 || !(s.tenant t).live then s.bump 0x00020028
    else s.startReset t false false [])

/-! ### Parameter blocks (18 R472, R481 to R488, R492, R493) -/

/-- A field of a parameter block with all its bits, by offset and bytes; with a mask of its bits. -/
def whole (off n : Nat) : Nat × Nat := (off, 2 ^ (8 * n) - 1)

/-- The fields of an opcode's parameter block: offset in the entry, and the bits that are not reserved. -/
def opLayout : Nat → Option (List (Nat × Nat))
  | 0x0101 => some [(0x10, 1)]
  | 0x0102 => some [whole 0x10 8]
  | 0x0103 => some [(0x10, 7), whole 0x11 1]
  | 0x0201 => some [whole 0x11 1, (0x12, 0x1F), whole 0x14 4, (0x18, 0xFFFFF), whole 0x1C 4, whole 0x20 8, whole 0x28 8, whole 0x30 12]
  | 0x0202 => some [whole 0x11 1, (0x12, 1)]
  | 0x0203 => some [whole 0x10 1, (0x11, 0x1F), whole 0x14 4, whole 0x18 4, whole 0x20 8, whole 0x28 8]
  | 0x0301 => some [whole 0x10 1, (0x11, 7), whole 0x14 4, whole 0x18 8, whole 0x20 8]
  | 0x0302 => some [whole 0x10 1, whole 0x14 4]
  | 0x0303 => some [whole 0x10 1, whole 0x11 1, whole 0x12 2, whole 0x14 4, whole 0x18 8]
  | 0x0304 => some [whole 0x10 1, whole 0x14 4, whole 0x18 4, whole 0x20 8, whole 0x28 8]
  | 0x0401 => some [whole 0x10 2, whole 0x12 2, whole 0x14 2, (0x16, 0x1F), whole 0x18 2, whole 0x1A 1, whole 0x1B 1, whole 0x1C 4,
      whole 0x20 8, whole 0x28 8, whole 0x30 8, whole 0x38 8]
  | 0x0402 => some [whole 0x10 2, whole 0x12 1, whole 0x14 4, whole 0x18 4, whole 0x20 8, whole 0x28 8]
  | 0x0403 => some [whole 0x10 2, whole 0x14 4, whole 0x20 8]
  | 0x0404 => some [whole 0x10 2]
  | 0x0501 => some [whole 0x10 2, whole 0x12 2, whole 0x14 2, (0x16, 7), whole 0x18 2, whole 0x1A 1, whole 0x1B 1, (0x1C, 0xFF),
      whole 0x20 8, whole 0x28 8, whole 0x30 8, whole 0x38 8, whole 0x48 4]
  | 0x0601 => some [whole 0x10 8, whole 0x18 8, whole 0x20 4]
  | 0x0603 => some [whole 0x10 8]
  | 0x0604 => some [whole 0x10 4, whole 0x14 1, whole 0x18 4]
  | 0x0701 => some [whole 0x10 1, whole 0x14 4, whole 0x18 8, whole 0x20 8]
  | 0x0702 => some [whole 0x10 1, whole 0x14 4, whole 0x18 8, whole 0x20 8, whole 0x28 8]
  | 0x0801 => some [whole 0x10 8, whole 0x18 4, whole 0x20 8]
  | 0x0802 => some [whole 0x10 8, whole 0x18 4, whole 0x20 8]
  | 0x0803 => some [whole 0x10 8, whole 0x18 4, whole 0x20 8]
  | 0x0804 => some []
  | 0x0901 => some [whole 0x10 1, whole 0x11 1, whole 0x12 2, whole 0x14 2, whole 0x16 1, (0x17, 1), whole 0x18 4]
  | 0x0902 => some [whole 0x10 1, whole 0x11 1, whole 0x12 2, whole 0x14 2, whole 0x16 1, (0x17, 1), whole 0x18 4]
  | 0x0903 => some [whole 0x10 1, whole 0x11 1, whole 0x12 2, whole 0x14 2, whole 0x16 1, (0x17, 1), whole 0x18 4]
  | 0x0A01 => some [whole 0x10 8, whole 0x18 4, whole 0x20 8]
  | 0x0B01 => some [whole 0x10 8, whole 0x18 4]
  | 0x0B02 => some []
  | _ => none

/-- Whether every reserved bit of a parameter block is 0 (00 R14, 18 R478). -/
def blockClean (l : List (Nat × Nat)) (params : List Byte) : Bool :=
  let mask := l.foldl (fun m x => m ||| (x.2 * 2 ^ (8 * (x.1 - 0x10)))) 0
  leNat params &&& ((2 ^ 896 - 1) ^^^ mask) == 0

/-- Addresses that an opcode's packet names, by offset (18 R468, 17 R444). -/
def Cmd.addresses (c : Cmd) : List Nat :=
  let at8 (l : List Nat) : List Nat := l.map (fun o => c.field o 8)
  match c.opcode with
  | 0x0102 => at8 [0x10]
  | 0x0201 => at8 [0x20, 0x28]
  | 0x0203 => if bitAt (c.field 0x11 1) 4 then [] else at8 [0x20, 0x28]
  | 0x0301 => if bitAt (c.field 0x11 1) 2 then [] else at8 [0x18]
  | 0x0303 => at8 [0x18]
  | 0x0304 => at8 [0x28]
  | 0x0401 => at8 [0x20, 0x28, 0x30, 0x38]
  | 0x0402 => at8 [0x20]
  | 0x0403 => at8 [0x20]
  | 0x0501 => at8 [0x20, 0x28, 0x30, 0x38]
  | 0x0601 => at8 [0x10, 0x18]
  | 0x0701 => at8 [0x18, 0x20]
  | 0x0702 => at8 [0x18, 0x20]
  | 0x0801 => at8 [0x20]
  | 0x0802 => at8 [0x20]
  | 0x0A01 => at8 [0x20]
  | 0x0B01 => at8 [0x10]
  | _ => []

/-- The opcodes reserved to tenant 0 (18 R478). -/
def adminOnly : List Nat := [0x0101, 0x0103, 0x0201, 0x0202, 0x0303, 0x0804, 0x0A01, 0x0B01, 0x0B02]

/-- The native opcode that a 6410 opcode runs as (18 R493). -/
def legacyRuns : Nat → Option Nat
  | 0x01 => some 0x0102
  | 0x10 => some 0x0401
  | 0x11 => some 0x0402
  | 0x12 => some 0x0403
  | 0x20 => some 0x0802
  | 0x21 => some 0x0801
  | 0x30 => some 0x0701
  | _ => none

/-- Whether a 6410 packet lies within its limits (18 R493). -/
def Cmd.withinLegacy (c : Cmd) : Bool :=
  match c.opcode with
  | 0x0401 => c.field 0x1B 1 == 1 && c.field 0x28 8 == 0 && c.field 0x16 2 &&& 0x1D == 0 && decide (c.field 0x14 2 ≤ 1024)
  | 0x0402 => c.field 0x14 4 == 1
  | 0x0701 => decide (c.field 0x14 4 ≤ 65536)
  | 0x0801 => decide (c.field 0x18 4 ≤ 2 ^ 24)
  | 0x0802 => decide (c.field 0x18 4 ≤ 2 ^ 24)
  | _ => true

/-- Whether a unit that the opcode needs has been taken out of service (15 R399). -/
def State.unitGone (s : State) (c : Cmd) : Bool :=
  match c.opcode with
  | 0x0701 => s.unitOut 12
  | 0x0702 => s.unitOut 12
  | 0x0601 => s.unitOut 11
  | 0x0501 => s.unitOut 9 || (s.unitOut 11 && bitAt (c.field 0x16 2) 2)
  | _ => false

/-- Bytes of a submission entry (18 R472, R492). -/
def QPair.entrySize (p : QPair) : Nat := if p.legacy then 64 else 128

/-- The command an entry makes, with its place in intake order and the snapshot of its collection (18 R472, R492, R493, 05 R155). -/
def State.entryCmd (s : State) (t q : Nat) (p : QPair) (e : List Byte) : Cmd :=
  let c : Cmd :=
    if p.legacy then
      { handle := s.nextHandle, tenant := t, queue := q, cid := BitVec.ofNat 32 (fieldOf e 2 2)
        opcode := (legacyRuns (fieldOf e 0 1)).getD 0, legacyOp := some (fieldOf e 0 1)
        params := (e.drop 8).take 56 ++ List.replicate 56 0, recovered := false, snapshot := 0, stage := 0 }
    else
      { handle := s.nextHandle, tenant := t, queue := q, cid := BitVec.ofNat 32 (fieldOf e 4 4), opcode := fieldOf e 0 2
        legacyOp := none, params := (e.drop 16).take 112, recovered := false, snapshot := 0, stage := 0 }
  if c.opcode = 0x0401 || c.opcode = 0x0501 then
    { c with snapshot := match s.coll? (c.field 0x10 2) with | some x => x.published | none => 0 }
  else c

/-- Whether the reserved parts of an entry before its parameters are 0 (18 R472, R492). -/
def headClean (legacy : Bool) (e : List Byte) : Bool :=
  if legacy then decide (fieldOf e 1 1 < 2) && fieldOf e 4 4 == 0
  else decide (fieldOf e 2 1 < 2) && fieldOf e 3 1 == 0 && fieldOf e 8 8 == 0

/-- The intake checks in their order; none when the entry passes (18 R478, R493, 17 R444, 15 R399). -/
def State.intakeStatus (s : State) (c : Cmd) (e : List Byte) : Option Nat :=
  if !headClean c.legacyOp.isSome e then some St.badPacket
  else
    match opLayout c.opcode with
    | none => some (if c.legacyOp.isSome then St.unsupported else St.badPacket)
    | some l =>
      if !blockClean l c.params then some St.badPacket
      else if c.legacyOp.isSome && !c.withinLegacy then some St.unsupported
      else if adminOnly.contains c.opcode && c.tenant ≠ 0 then some St.security
      else if s.cxl.mode = .pcie && c.addresses.any (fun a => bitAt a 63) then some St.unsupported
      else if s.unitGone c then some St.aborted
      else none

/-! ### Intake (18 R475 to R479) -/

/-- Free CQ slots of a pair (18 R476). -/
def QPair.freeSlots (p : QPair) : Nat := p.cqEntries - 1 - p.reserved - (p.cqTail + p.cqEntries - p.cqHead) % max p.cqEntries 1

/-- Whether a queue holds entries that intake may take (18 R475, R490, R491). -/
def State.waitingSq (s : State) (t q : Nat) : Bool :=
  let x := s.tenant t
  x.live && !x.faulted && x.reset.isNone
    && (match s.queue t q with | some p => p.sqHead ≠ p.sqTail && p.deleting.isNone | none => false)

/-- Whose turn it is: tenants round-robin, queues round-robin within a tenant (18 R475). -/
def State.nextTurn (s : State) : Option (Nat × Nat) :=
  match ((List.range 64).map (fun i => (s.rr + 1 + i) % 64)).find? (fun t => (List.range 16).any (s.waitingSq t)) with
  | none => none
  | some t =>
    (((List.range 16).map (fun i => ((s.tenant t).lastQueue + 1 + i) % 16)).find? (s.waitingSq t)).map (fun q => (t, q))

/-- Take one entry in: its CQ slot is reserved, and the first check that fails completes it (18 R476, R478). -/
def State.takeEntry (s : State) (t q : Nat) (p : QPair) (e : List Byte) : State :=
  let c := s.entryCmd t q p e
  let s := s.updQueue t q (fun p => { p with sqHead := (p.sqHead + 1) % max p.sqEntries 1, reserved := p.reserved + 1 })
  let s := ({ s with cmds := s.cmds ++ [c], nextHandle := s.nextHandle + 1 } : State).bump64 0x00020020 1
  match s.intakeStatus c e with
  | none => s
  | some st => s.fail c.handle st

/-- One turn of a queue: entries until the SQ is empty, the CQ has no slot, a FENCE must wait, or a read faults the tenant (18 R475
to R477, R490). -/
def State.takeEntries (t q : Nat) : Nat → State → State
  | 0, s => s
  | k + 1, s =>
    match s.queue t q with
    | none => s
    | some p =>
      if !s.waitingSq t q || p.freeSlots = 0 then s
      else
        let a := p.sqBase.toNat + p.entrySize * p.sqHead
        match s.resolve t a p.entrySize 1 with
        | none => (s.bump 0x00110014).tenantFault t 1
        | some key =>
          if bitAt p.sqBase.toNat 63 && s.poisoned key p.entrySize then s.tenantFault t 3
          else
            let e := s.rd key p.entrySize
            if bitAt (fieldOf e (if p.legacy then 1 else 2) 1) 0 && has (fun c => c.tenant == t && c.queue == q) s.cmds then s
            else State.takeEntries t q k (s.takeEntry t q p e)

/-- INTAKE: one SQ turn of at most 8 entries, skipped and counted when the CQ has no free slot (18 R475, R476). -/
def execIntake (s : State) : Res :=
  .next (
    if !s.up then s
    else
      match s.nextTurn with
      | none => s
      | some (t, q) =>
        let s := ({ s with rr := t } : State).updTenant t (fun x => { x with lastQueue := q })
        match s.queue t q with
        | none => s
        | some p => if p.freeSlots = 0 then s.bump 0x00020038 else State.takeEntries t q 8 s)

/-! ### Creating queues and tenants (18 R464 to R468, R481) -/

/-- A new, empty pair. -/
def QPair.new (sq cq : Addr) (nSq nCq : Nat) (legacy noIrq : Bool) : QPair :=
  { sqBase := sq, cqBase := cq, sqEntries := nSq, cqEntries := nCq, legacy := legacy, noIrq := noIrq, sqHead := 0, sqTail := 0
    cqTail := 0, cqHead := 0, phase := true, reserved := 0, deleting := none }

/-- Whether a queue of a PASID may lie at a base (18 R467, R468, 17 R444). -/
def State.spanOk (s : State) (pasid base len : Nat) : Bool :=
  base % 4096 == 0 && (if bitAt base 63 then s.cxl.mode ≠ .pcie && decide (base % 2 ^ 63 + len ≤ s.hdmBytes) else s.hostMapped pasid base len)

/-- Whether a pair keeps R467; `flags` are QUEUE_CREATE's, checked against the bases when the command carries them. -/
def State.pairOk (s : State) (pasid sq cq nSq nCq : Nat) (flags : Option Nat) : Bool :=
  let legacy := match flags with | some f => bitAt f 0 | none => false
  let size (n : Nat) : Bool := (List.range 13).any (fun i => n == 2 ^ (i + 4))
  let agree := match flags with | some f => bitAt f 1 == bitAt sq 63 && bitAt f 2 == bitAt cq 63 | none => true
  size nSq && size nCq && decide (nSq ≤ nCq) && agree && s.spanOk pasid sq ((if legacy then 64 else 128) * nSq)
    && s.spanOk pasid cq ((if legacy then 16 else 32) * nCq)

/-- A tenant comes into being with its pair 0 and its limits; what objects under its number hold stays charged (18 R464, 12 R320, 14
R382, 19 R510). -/
def State.createTenant (s : State) (t pasid : Nat) (q : QPair) (l : Limits) : State :=
  s.updTenant t (fun x => { Tenant.absent with
    live := true, pasid := pasid, queues := some q :: List.replicate 15 none, t1 := ⟨l.t1, x.t1.used⟩, t2 := ⟨l.t2, x.t2.used⟩
    t3 := ⟨l.t3, x.t3.used⟩, seatLimit := l.seats })

/-- The limits a tenant is created with: those given, the committed ones for 0xFFFF_FFFF, or 0 (12 R320, 18 R481). -/
def State.limitsFor (s : State) (t t1 t2 t3 seats : Nat) : Limits :=
  let c := (s.committed t).getD ⟨0, 0, 0, 0⟩
  let pick (v w : Nat) : Nat := if v = 0xFFFFFFFF then w else v
  ⟨pick t1 c.t1, pick t2 c.t2, pick t3 c.t3, pick seats c.seats⟩

/-- CMD_ADMIN_CTRL: ENABLE creates tenant 0; clearing it resets tenant 0 and leaves it absent (18 R465, R467). -/
def execCmdAdminCtrlWrite (v : Word) (s : State) : Res :=
  .next (
    if !s.up then s
    else
      let w := v.toNat
      let a := { s.admin with err := s.admin.err && !bitAt w 29 }
      if a.enable then
        if bitAt w 31 then { s with admin := a }
        else
          let s : State := { s with admin := { a with enable := false, active := false } }
          if (s.tenant 0).live then s.startReset 0 false true [] else s
      else
        let a := { a with entriesLog2 := v.extractLsb' 24 5, pasid := v.extractLsb' 0 20 }
        if !bitAt w 31 || (s.tenant 0).live then { s with admin := a }
        else
          let n := 2 ^ a.entriesLog2.toNat
          if s.pairOk a.pasid.toNat a.sqBase.toNat a.cqBase.toNat n n none then
            ({ s with admin := { a with enable := true, active := true } } : State).createTenant 0 a.pasid.toNat
              (QPair.new a.sqBase a.cqBase n n false false) (s.limitsFor 0 0xFFFFFFFF 0xFFFFFFFF 0xFFFFFFFF 0xFFFFFFFF)
          else { s with admin := { a with err := true } })

/-- CMD_ADMIN_SQ_LO, _HI, CQ_LO, _HI, ignored while ENABLE is 1 (18 R466). -/
def State.adminBase (s : State) (off : Nat) (v : Word) : State :=
  let put (lo : Bool) (x : Addr) : Addr :=
    if lo then BitVec.ofNat 64 (x.toNat / 2 ^ 32 * 2 ^ 32 + v.toNat) else BitVec.ofNat 64 (x.toNat % 2 ^ 32 + v.toNat * 2 ^ 32)
  if !s.up || s.admin.enable then s
  else
    let a := s.admin
    { s with admin := match off with
        | 0x04 => { a with sqBase := put true a.sqBase }
        | 0x08 => { a with sqBase := put false a.sqBase }
        | 0x0C => { a with cqBase := put true a.cqBase }
        | 0x10 => { a with cqBase := put false a.cqBase }
        | _ => a }

/-- TENANT_CREATE (18 R464, R467, R481, R494). -/
def execTenantCreate (cmd : Nat) (s : State) : Res :=
  .next (match s.cmdAt cmd 0x0201 0 with
    | none => s
    | some c =>
      let t := c.field 0x11 1
      let flags := c.field 0x12 1
      let n := c.field 0x14 4
      let pasid := c.field 0x18 4
      let seats := c.field 0x1C 4
      if 1 ≤ t && t ≤ 63 && (s.tenant t).reset.isSome then s.fail cmd St.tenantReset
      else if t < 1 || 63 < t || (s.tenant t).live || s.tenants.any (fun x => x.live && x.pasid == pasid)
          || (160 < seats && seats ≠ 0xFFFFFFFF) || bitAt flags 4
          || !s.pairOk pasid (c.field 0x20 8) (c.field 0x28 8) n n (some flags) then s.fail cmd St.badParam
      else
        (s.createTenant t pasid (QPair.new (BitVec.ofNat 64 (c.field 0x20 8)) (BitVec.ofNat 64 (c.field 0x28 8)) n n (bitAt flags 0)
          (bitAt flags 3)) (s.limitsFor t (c.field 0x30 4) (c.field 0x34 4) (c.field 0x38 4) seats)).complete cmd St.ok 0 0 0)

/-- TENANT_RESET: it completes after step 4; a later one joins the first (18 R481, R491, R494). -/
def execTenantReset (cmd : Nat) (s : State) : Res :=
  .next (match s.cmdAt cmd 0x0202 0 with
    | none => s
    | some c =>
      let t := c.field 0x11 1
      if t < 1 || 63 < t || !(s.tenant t).live then s.fail cmd St.badParam
      else (s.updCmd cmd (fun c => { c with stage := 1 })).startReset t (bitAt (c.field 0x12 1) 0) false [cmd])

/-- QUEUE_CREATE: a delete waits for the pair's commands (18 R464, R467, R481, R494). -/
def execQueueCreate (cmd : Nat) (s : State) : Res :=
  .next (match s.cmdAt cmd 0x0203 0 with
    | none => s
    | some c =>
      let q := c.field 0x10 1
      let flags := c.field 0x11 1
      if q < 1 || 15 < q then s.fail cmd St.badParam
      else if bitAt flags 4 then
        (match s.queue c.tenant q with
          | none => s.fail cmd St.badParam
          | some p =>
            if q = c.queue || p.deleting.isSome then s.fail cmd St.badParam
            else
              State.settleDeletes c.tenant 17 ((s.updCmd cmd (fun c => { c with stage := 1 })).updQueue c.tenant q
                (fun p => { p with deleting := some cmd })))
      else if (s.queue c.tenant q).isSome
          || !s.pairOk (s.tenant c.tenant).pasid (c.field 0x20 8) (c.field 0x28 8) (c.field 0x14 4) (c.field 0x18 4) (some flags) then
        s.fail cmd St.badParam
      else
        (s.updTenant c.tenant (fun x => { x with queues := x.queues.set q (some (QPair.new (BitVec.ofNat 64 (c.field 0x20 8))
          (BitVec.ofNat 64 (c.field 0x28 8)) (c.field 0x14 4) (c.field 0x18 4) (bitAt flags 0) (bitAt flags 3))) })).complete cmd
            St.ok 0 0 0)

/-! ### IDENTIFY (18 R482) -/

/-- The identify page. -/
def State.identifyPage (s : State) (t : Nat) : List Byte :=
  leBytes 2 s.variant.deviceId ++ leBytes 2 0 ++ leBytes 4 s.variant.caps ++ leBytes 4 s.variant.units
    ++ leBytes 4 (match s.sec.running with | some i => i.version | none => 0) ++ leBytes 8 Config.serial.toNat ++ leBytes 1 t
    ++ leBytes 1 (countWhere Option.isSome (s.tenant t).queues) ++ List.replicate 4070 0

/-- IDENTIFY on either kind of queue (18 R482, R493). -/
def State.identify (s : State) (h : Nat) (c : Cmd) : State :=
  match s.resolve c.tenant (c.field 0x10 8) 4096 64 with
  | none => s.fail h St.badParam
  | some k => (s.wr k (s.identifyPage c.tenant)).complete h St.ok 0 0 0

/-- IDENTIFY (18 R482). -/
def execIdentify (cmd : Nat) (s : State) : Res :=
  .next (match s.cmdAt cmd 0x0102 0 with
    | none => s
    | some c => if c.legacyOp.isSome then s else s.identify cmd c)

/-! ### CFG_COMMIT (18 R481, 19 R512) -/

/-- The module settings as they stand (18 R481, 19 R512). -/
def State.settings (s : State) (limits : List (Nat × Limits)) : Settings :=
  { steadyLoad := s.steadyLoad, tolShift := s.audCtrl.tolShift, window := s.search.window, batchMax := s.search.batchMax
    parkLimit := s.serving.parkLimit, batchWait := s.serving.batchWait, retry := s.serving.retry, throttleRun := s.serving.throttleRun
    sketchShift := s.embed.sketchShift, foldHigh := s.flash.foldHigh, foldLow := s.flash.foldLow, hotVisits := s.flash.hotVisits
    bgShare := s.flash.bgShare, patBlocks := s.flash.patBlocks, relocBits := s.flash.relocBits, aonStep := s.flash.aonStep
    runTricks := s.dlr.runTricks, trickKcyc := s.dlr.trickKcyc, cellEnable := s.cell.enable, cellMember := s.cell.member
    cellId := s.cell.cellId, hdmGib := s.cxl.sizeGib, capW := s.power.capW, limits := limits }

/-- Write the older copy with the next sequence number; a copy that is not valid is the older one (19 R512). -/
def Power.commit (p : Power) (c : Settings) : Power :=
  let a := p.copyA
  let b := p.copyB
  let new : CfgCopy := { seq := max a.seq b.seq + 1, crcOk := true, settings := c }
  let p := { p with commits := min (p.commits + 1) 0xFFFFFFFF, cfgDefault := false }
  if !a.crcOk || (b.crcOk && decide (a.seq ≤ b.seq)) then { p with copyA := new } else { p with copyB := new }

/-- CFG_COMMIT (18 R481, R494, 19 R512). -/
def execCfgCommit (cmd : Nat) (res : WriteResult) (s : State) : Res :=
  .next (match s.cmdAt cmd 0x0103 0 with
    | none => s
    | some c =>
      let scope := c.field 0x10 1
      let t := c.field 0x11 1
      let module := bitAt scope 0
      let tenant := bitAt scope 1
      let forget := bitAt scope 2
      if scope = 0 || (tenant && forget) || ((tenant || forget) && 63 < t) then s.fail cmd St.badParam
      else if (tenant || forget) && (s.tenant t).reset.isSome then s.fail cmd St.tenantReset
      else if tenant && !(s.tenant t).live then s.fail cmd St.badParam
      else if res = .failed then s.fail cmd St.aborted
      else
        let old := s.persistent.1
        let x := s.tenant t
        let rest := old.limits.filter (fun l => l.1 ≠ t)
        let limits :=
          if tenant then rest ++ [(t, ⟨x.t1.limit, x.t2.limit, x.t3.limit, x.seatLimit⟩)]
          else if forget then rest
          else old.limits
        (s.updPower (fun p => p.commit (if module then s.settings limits else { old with limits := limits }))).complete cmd St.ok 0 0 0)

/-! ### FOLD (18 R481, 19 R513) -/

/-- FOLD: refused while other tenants exist, unless FORCE; it posts its completion, resets the others, leaves the cell, flushes, and
switches off all but the always-on domain (19 R513, 16 R432). -/
def execFold (cmd : Nat) (s : State) : Res :=
  .next (match s.cmdAt cmd 0x0101 0 with
    | none => s
    | some c =>
      let others := (List.range 64).filter (fun t => t ≠ 0 && (s.tenant t).live)
      if !others.isEmpty && !bitAt (c.field 0x10 1) 0 then s.fail cmd St.retry
      else
        let s := s.complete cmd St.ok 0 0 0
        let s := others.foldl (fun s t => (s.startReset t false false []).finishReset t) s
        s.leaveCell.darken .fold true)

/-! ### The 6410 subset (18 R492, R493) -/

/-- A command of a LEGACY queue with its 6410 opcode. -/
def State.legacyAt (s : State) (h op : Nat) : Option Cmd :=
  match s.cmd? h with
  | some c => if c.legacyOp = some op then some c else none
  | none => none

/-- 0x10 runs as SRCH_QUERY. -/
def execSrchQueryLegacy (cmd : Nat) (s : State) : Res :=
  .next (match s.legacyAt cmd 0x10 with
    | some c => if c.stage = 0 then s.srchQuery cmd c else s
    | none => s)

/-- 0x01 runs as IDENTIFY. -/
def execIdentifyLegacy (cmd : Nat) (s : State) : Res :=
  .next (match s.legacyAt cmd 0x01 with
    | some c => s.identify cmd c
    | none => s)

/-- 0x11 runs as SRCH_INSERT. -/
def execSrchInsertLegacy (cmd : Nat) (s : State) : Res :=
  .next (match s.legacyAt cmd 0x11 with
    | some c => if c.stage ≠ 0 || s.epochBlocked c then s else s.srchInsert cmd c
    | none => s)

/-- 0x12 runs as SRCH_DELETE. -/
def execSrchDeleteLegacy (cmd : Nat) (s : State) : Res :=
  .next (match s.legacyAt cmd 0x12 with
    | some c => if c.stage > 1 || (c.stage = 0 && s.epochBlocked c) then s else s.srchDelete cmd c
    | none => s)

/-- 0x20 runs as MEDIA_READ. -/
def execMediaReadLegacy (cmd : Nat) (s : State) : Res :=
  .next (match s.legacyAt cmd 0x20 with
    | some c => if c.stage = 0 then s.mediaRead cmd c else s
    | none => s)

/-- 0x21 runs as MEDIA_WRITE. -/
def execMediaWriteLegacy (cmd : Nat) (res : WriteResult) (s : State) : Res :=
  .next (match s.legacyAt cmd 0x21 with
    | some c => if c.stage ≠ 0 || s.mediaBlocked c then s else s.mediaWrite cmd c res
    | none => s)

/-- 0x30 runs as EMB_LOOKUP. -/
def execEmbLookupLegacy (cmd : Nat) (s : State) : Res :=
  .next (match s.legacyAt cmd 0x30 with
    | some c => if c.stage = 0 then s.embLookup cmd c else s
    | none => s)

end Sys2Proof.Machine
end

