-- ==== Sys2Proof/Machine/Firmware.lean ====
section
/-!
DEFINITION. Firmware staging, live activation and probation, debug unlock, the operator key, and the PLDM firmware update (20 R525 to
R537). The choices are notes/assumptions/30.md.
-/
namespace Sys2Proof.Machine

/-! ### Staging and live activation (20 R534) -/

/-- Change the slot that is not active. -/
def Security.setSpare (x : Security) (i : Option FwImage) (staged : Bool) : Security :=
  if x.activeSlot then { x with slot0 := i, staged := staged } else { x with slot1 := i, staged := staged }

/-- Whether an accepted FW_ACTIVATE waits or runs. -/
def State.activating (s : State) : Bool := has (fun c => c.opcode == 0x0B02 && c.stage == 1) s.cmds

/-- An image is written into a slot of the pinned region (13 R332, R359). -/
def State.writeSlot (s : State) (slot : Nat) (b : List Byte) : State :=
  s.updFlash (fun f => f.writePinned (pinnedRange s.variant.flashDies (firmwareFrom slot) 1) (ceilDiv b.length 16384))

/-- Verify and store a copy in the slot that is not active: SECURITY, ABORTED_FAULT or OK. Whether a write that fails spoils the slot
is a free value. -/
def State.stage (s : State) (h : Nat) (b : List Byte) (res : WriteResult) : State :=
  let ok := s.sec.imageOk b
  if !ok.1 then ((s.countInvalid ok).updSec (fun x => x.setSpare none false)).fail h St.security
  else
    match res with
    | .failed =>
      let spoilt : Bool := Config.free s.fresh 0 % 2 = 1
      (s.draw.updSec (fun x => if spoilt then x.setSpare none false else x)).fail h St.aborted
    | .done => ((s.writeSlot (1 - boolNat s.sec.activeSlot) b).updSec (fun x => x.setSpare (some (FwImage.ofBytes b)) true)).complete h St.ok 0 (fieldOf b 4 4) 0

/-- FW_STAGE: the first status that applies; it waits while a supply warning has stopped programs (20 R534, 13 R352). -/
def execFwStage (cmd : Nat) (res : WriteResult) (s : State) : Res :=
  .next (match s.cmdAt cmd 0x0B01 0 with
    | none => s
    | some c =>
      let len := c.field 0x18 4
      match s.resolve c.tenant (c.field 0x10 8) len 1 with
      | none => s.fail cmd St.badParam
      | some k =>
        if len < 256 || 2 ^ 26 < len then s.fail cmd St.badParam
        else if s.poisoned k len then s.fail cmd St.aborted
        else
          let b := s.rd k len
          if len ≠ 256 + fieldOf b 0x0C 4 then s.fail cmd St.badParam
          else if s.activating || s.sec.probation then s.fail cmd St.retry
          else if s.flash.stopped then s
          else s.stage cmd b res)

/-- Whether a recovery is in progress: a channel re-homes, a tile is repaired, a quarantined seat is to be replaced, or a cluster is
not ready (20 R534 step 1). -/
def State.recovering (s : State) : Bool :=
  s.hands.any (fun x => x.valid && x.seats.any (fun g => (s.seat g).mode = .quarantined)) ||
  s.tier.dies.any (fun d => !d.homing.isEmpty) || s.seats.any (fun x => x.repair.isSome) || !s.flt.standbyOk

/-- Steps 2 to 4: the standby cluster loads the staged image and takes over, or the slot is emptied. -/
def State.activate (s : State) (h : Nat) (loads : Bool) : State :=
  match s.sec.stagedImage with
  | none => s.fail h St.notReady
  | some i =>
    if !loads || !(s.sec.slotOk (some i)).1 then (s.updSec (fun x => x.setSpare none false)).fail h St.aborted
    else
      let s' := (s.updSec (fun x => { x with
        activeSlot := !x.activeSlot, running := some i, staged := false, probation := true })).updFlt
          (fun f => { f with activeB := !f.activeB, standbyOk := false })
      (s'.announceFlt s).complete h St.ok 0 i.version 0

/-- FW_ACTIVATE: an accepted one waits while a recovery is in progress (20 R534). -/
def execFwActivate (cmd : Nat) (loads : Bool) (s : State) : Res :=
  .next (match s.cmd? cmd with
    | none => s
    | some c =>
      if c.opcode ≠ 0x0B02 then s
      else if c.stage = 0 && s.sec.stagedImage.isNone then s.fail cmd St.notReady
      else if c.stage = 0 && s.sec.erasing then s.fail cmd St.retry
      else if s.recovering then s.updCmd cmd (fun c => { c with stage := 1 })
      else s.activate cmd loads)

/-- PROBATION_PASS: the fuse counter rises to the running image's SVN (20 R529, R534 step 5). -/
def execProbationPass (s : State) : Res :=
  .next (
    if !s.fwRuns || !s.sec.probation then s
    else s.updSec (fun x => { x with
      probation := false, svnFuse := max x.svnFuse (min 64 (match x.running with | some i => i.svn | none => 0)) }))

/-! ### Debug (20 R535, R536) -/

/-- Whether the token written passes every check. -/
def Security.tokenOk (x : Security) : Bool :=
  let b := x.token
  fieldOf b 0 8 == Config.serial.toNat && fieldOf b 8 8 == x.nonce.toNat && decide (fieldOf b 0x10 4 < 4) && zeroRange b 0x14 12
    && zeroRange b 0x60 32 && Config.verifies 2 (b.take 32) ((b.drop 32).take 64)

/-- SEC_DEBUG_CTRL: a submission is checked, and draws a new nonce; a valid token starts the erase (20 R536, R539). -/
def execSecDebugSubmit (v : Word) (s : State) : Res :=
  .next (
    if !s.up then s
    else
      let s := s.updSec (fun x => { x with debugErr := x.debugErr && !bitAt v.toNat 30 })
      if !bitAt v.toNat 31 || 16 ≤ s.sec.failures then s
      else
        let nonce := BitVec.ofNat 64 (Config.free s.fresh 0)
        let ok := s.sec.tokenOk
        let s := s.draw
        if ok then s.updSec (fun x => { x with nonce := nonce, erasing := true, scope := BitVec.ofNat 2 (fieldOf x.token 0x10 4) })
        else (s.bump 0x00120020).updSec (fun x => { x with nonce := nonce, debugErr := true, failures := x.failures + 1 }))

/-- A tenant is destroyed as by TENANT_RESET with DESTROY; what a lost tenant left under its number goes too (20 R536, 19 R510). -/
def State.eraseTenant (s : State) (t : Nat) : State :=
  if (s.tenant t).live then (s.startReset t true false []).finishReset t
  else
    let n := s.counter 0x00020034
    let s := (s.updTenant t (fun x => { x with reset := some { destroy := true, leaveAbsent := false, cmds := [] } })).finishReset t
    { s with ctr := sparsePut 0 0x00020034 n s.ctr }

/-- Every media block that held tenant data is erased (20 R536). -/
def Flash.eraseAll (f : Flash) : Flash :=
  let held (b : Blk) : Bool := b.use = .buffer || b.use = .qlc
  { f with
    erases := f.erases + (f.blks.filter held).length
    blks := updWhere held (fun b => { b with use := .free, erases := b.erases + 1, reads := 0, pages := [], queued := false, deferred := false, group := 0, member := 0 }) f.blks
    bufGroup := none, qlcGroup := none, pack := none, trimmed := [], folding := false }

/-- All tenant-visible state is erased: every tenant, T1, the media blocks, the window (20 R536). -/
def State.eraseAll (s : State) : State :=
  let s := ((List.range 63).map (fun i => i + 1)).foldl State.eraseTenant s
  let s := s.eraseTenant 0
  let s := (s.mediaFree (fun _ => true)).updFlash Flash.eraseAll
  let t1 (k : Nat) : Bool := decide (k < Space.hostPhys.key 0)
  { s with
    admin := { s.admin with enable := false, active := false }
    tier := { s.tier with poison := s.tier.poison.filter (fun l => !t1 (128 * l)) }
    mem := s.mem.filter (fun x => !t1 x.1) }

/-- DEBUG_UNLOCK: the erase ends and debug is unlocked; it starts only after an activation in progress (20 R536, R537). -/
def execDebugUnlock (s : State) : Res :=
  .next (
    if !s.fwRuns || !s.sec.erasing || s.activating then s
    else s.eraseAll.updSec (fun x => { x with erasing := false, debugUnlocked := true }))

/-! ### The operator key (20 R530) -/

/-- SEC_OPKEY_CTRL: BURN fuses the hash once; a staged image must be staged again. -/
def execSecOpkeyBurn (v : Word) (s : State) : Res :=
  .next (
    if !s.up || !bitAt v.toNat 31 || s.sec.opkeyFused then s
    else s.updSec (fun x => { x with opkeyFused := true, opkeyHash := x.opkeyReg, staged := false }))

/-! ### PLDM firmware update (20 R527, 22 R554, R563) -/

/-- PLDM_FW_UPDATE: with no valid image the update goes into the active slot and boot restarts at step 3; it wakes a folded module. -/
def execPldmFwUpdate (image : List Byte) (s : State) : Res :=
  .next (
    match s.power.phase with
    | .bootStopped =>
      if 2 ^ 26 < image.length then s
      else
        ((s.writeSlot (boolNat s.sec.activeSlot) image).updSec (fun x =>
          if x.activeSlot then { x with slot1 := some (FwImage.ofBytes image) }
          else { x with slot0 := some (FwImage.ofBytes image) })).updPower (fun p => { p with phase := .bringUp })
    | .fold => s.foldWake 4 0
    | _ => s)

end Sys2Proof.Machine
end

