-- ==== Sys2Proof/Machine/Power.lean ====
section
/-!
DEFINITION. Supply, power cap, temperature, fold's wake sources, the sideband and boundary scan (19 R499 to R504, R509, R513 to R516,
16 R433, 22 R552 to R563). The choices are notes/assumptions/35.md.
-/
namespace Sys2Proof.Machine

/-! ### Supply (19 R500, R501, R509, R513, R516) -/

/-- POWER_ON: the input rises through 42.0 V: a power-on, or the end of a brown-out reset; a tripped module stays off while a junction
is hot (19 R500, 22 R560). -/
def execPowerOn (s : State) : Res :=
  .next (
    match s.power.phase with
    | .unpowered => (s.hardReset 1 false false).updMgmt (fun m => { m with sensors := List.replicate 10 0, events := [] })
    | .brownOut =>
      if s.power.resetTrip && ((s.mgmt.sensors.drop 2).take 4).any (fun t => decide (90 ≤ t)) then
        s.updPower (fun p => { p with phase := .tripped, cooled := false, heldReset := some 2 })
      else s.hardReset 2 s.power.resetTrip s.power.resetFoldBrown
    | _ => s)

/-- UV_WARN: seats drop to level 4 and no new program starts; ignored in fold and by a module that is off (19 R501, R513, R516, 13
R352). -/
def execUvWarn (s : State) : Res :=
  .next (
    let dip (p : Power) : Power := { p with dip := 1, uvLevel := 4 }
    match s.power.phase with
    | .running => (s.updPower dip).updFlash (fun f => { f with stopped := true })
    | .bringUp => (s.updPower dip).updFlash (fun f => { f with stopped := true })
    | .bootStopped => s.updPower dip
    | _ => s)

/-- UV_RELEASE: level 8, flash work resumes, and the dip is counted (19 R501 step 3). -/
def execUvRelease (s : State) : Res :=
  .next (
    if s.power.dip ≠ 1 then s
    else
      let s := (s.updPower (fun p => { p with dip := 2, uvLevel := 8 })).bump 0x00010030
      if s.fwRuns then s.updFlash (fun f => { f with stopped := false }) else s)

/-- ISSUE_LEVEL_STEP: level 12, then 16 and the dip is over (19 R501 steps 4 and 5). -/
def execIssueLevelStep (s : State) : Res :=
  .next (s.updPower (fun p =>
    if p.dip = 2 then { p with dip := 3, uvLevel := 12 }
    else if p.dip = 3 then { p with dip := 0, uvLevel := 16 }
    else p))

/-- The module is held in a brown-out reset; that it had tripped, and the fold current limit, are kept for its record (19 R500, R509,
R513, R520). -/
def State.brownOut (s : State) (inFold : Bool) : State :=
  match s.power.phase with
  | .unpowered => s
  | .brownOut => s
  | ph => ((s.darken .brownOut false).updPower (fun p => { p with
      dip := 0, uvLevel := 16, cooled := false, heldReset := none, resetTrip := ph = .tripped, resetFoldBrown := inFold })).updMgmt
        (fun m => { m with alive := false, wake := false, alert := false })

/-- BROWN_OUT: the input falls through 38.0 V (19 R500). -/
def execBrownOut (s : State) : Res := .next (s.brownOut false)

/-- ALWAYS_ON_LOSS: power counts as removed (19 R500). -/
def execAlwaysOnLoss (s : State) : Res := .next ((s.brownOut false).updPower (fun p => { p with phase := .unpowered, domains := [] }))

/-- FOLD_OVERCURRENT: more than 300 mA on the always-on rail in fold (19 R513). -/
def execFoldOvercurrent (s : State) : Res := .next (if s.power.phase = .fold then s.brownOut true else s)

/-! ### The power cap (19 R503, R504, R517, R519) -/

/-- The cap in force when a window begins (19 R504). -/
def State.capLimit (s : State) : Nat :=
  min s.power.capW (min (if s.flt.phaseLimit then 400 else s.power.capW) (if s.flt.converterLimit then 640 else s.power.capW))

/-- CAP_WINDOW: a window is held against the cap in force, and the next begins under CAP_W (19 R503, R504, R519). -/
def execCapWindow (millivolts watts : Nat) (s : State) : Res :=
  .next (
    if !s.fwRuns then s
    else
      let p := s.power
      let falls : Bool := decide (p.activeW < watts) && decide (1 < p.capLevel)
      let rises : Bool := decide (100 * watts < 97 * p.activeW)
      let s := if falls then s.bump 0x00010034 else s
      s.updPower (fun p => { p with
        millivolts := millivolts % 2 ^ 16, watts := watts % 2 ^ 16, activeW := s.capLimit
        capLevel := if falls then p.capLevel - 1 else if rises then min 16 (p.capLevel + 1) else p.capLevel }))

/-- PWR_CAP: a CAP_W outside the variant's range is ignored and sets ERR (19 R504, R517). -/
def execPwrCapWrite (v : Word) (s : State) : Res :=
  .next (
    if !s.up then s
    else
      let w := bits v.toNat 9 0
      if w < 400 || s.variant.maxWatts < w then s.updPower (fun p => { p with capErr := true })
      else s.updPower (fun p => { p with capErr := p.capErr && !bitAt v.toNat 31, capW := w }))

/-! ### Temperature (22 R559, R560) -/

/-- THERMAL_WINDOW: the level falls by 2 at 105 °C or more, and rises by 1 when every junction reads below 102 °C (22 R559). -/
def execThermalWindow (junctions : List Nat) (s : State) : Res :=
  .next (
    if !s.fwRuns then s
    else s.updPower (fun p => { p with
      thermalLevel :=
        if junctions.any (fun t => decide (105 ≤ t)) then max 1 (p.thermalLevel - 2)
        else if junctions.all (fun t => decide (t < 102)) then min 16 (p.thermalLevel + 1)
        else p.thermalLevel }))

/-- THERMAL_TRIP: flash is flushed, every domain but 68 is off, ALIVE holds low, and the trip is reported (22 R560, R563). -/
def execThermalTrip (s : State) : Res :=
  .next (
    match s.power.phase with
    | .running | .bringUp | .bootStopped =>
      (((s.darken .tripped true).updPower (fun p => { p with cooled := false, heldReset := none })).updMgmt (fun m => { m with
        alive := false, aliveStopped := true })).pldmEvent 0x72
    | _ => s)

/-- TRIP_RELEASE: every junction reads below 90 °C; a reset held until then goes on (22 R560). -/
def execTripRelease (s : State) : Res :=
  .next (
    if s.power.phase ≠ .tripped then s
    else
      match s.power.heldReset with
      | some k => s.hardReset k true (k = 2 && s.power.resetFoldBrown)
      | none => s.updPower (fun p => { p with cooled := true }))

/-! ### Domains (19 R499) -/

/-- DOMAIN_SWITCH: the oldest request of a running module takes place (19 R499). -/
def execDomainSwitch (s : State) : Res :=
  .next (
    if !s.fwRuns then s
    else
      match s.power.switches with
      | [] => s
      | (d, on) :: r => s.updPower (fun p => { p with
          switches := r
          domains := if on then sortBy (fun a b => decide (a < b)) (dedup (p.domains ++ [d])) else p.domains.filter (fun x => x ≠ d) }))

/-! ### Wake sources and the sideband reset (19 R509, R513, R514, 16 R433) -/

/-- SIDEBAND_RESET: a module reset of kind 5, from fold as from running (19 R514). -/
def execSidebandReset (s : State) : Res := .next (s.moduleReset 5)

/-- RECEIVER_DETECT, SMBUS_WAKE_TRANSACTION and KNOCK wake a folded module with codes 1, 4 and 3; a running one ignores them (19 R514,
16 R433). -/
def execReceiverDetect (s : State) : Res := .next (s.foldWake 1 0)
def execSmbusWakeTransaction (s : State) : Res := .next (s.foldWake 4 0)
def execKnock (link : Nat) (s : State) : Res := .next (if link < s.variant.links then s.foldWake 3 link else s)

/-! ### Sensors and events (22 R552, R554, R555) -/

/-- The readings a sensor's threshold events are raised at: the input levels of R500 and R556 in mV, the coolant inlet of R558 in °C,
by place in the sensor list. -/
def sensorThresholds : Nat → List Nat
  | 0 => [24000, 38000, 40000, 41000, 42000, 60001, 65001, 72001]
  | 6 => [15, 41]
  | _ => []

/-- Events for the thresholds between two readings; a first reading crosses nothing. -/
def crossed (i old new : Nat) : List Nat :=
  if old = 0 then []
  else
    ((List.range (sensorThresholds i).length).filter (fun j =>
      let t := (sensorThresholds i).getD j 0
      decide (old < t) != decide (new < t))).map (fun j => 16 * (i + 1) + j)

/-- SENSOR_POLL: every sensor is updated, in fold only 1, 2 and 9; sensor 10 is the issue level in force (22 R555). -/
def execSensorPoll (readings : List Nat) (s : State) : Res :=
  .next (
    if !s.smbusServed || s.power.phase = .fatal then s
    else
      let fold : Bool := s.power.phase = .fold
      let new := (List.range 10).map (fun i =>
        let old := s.mgmt.sensors.getD i 0
        if fold && !(i = 0 || i = 1 || i = 8) then old
        else if i = 9 then s.power.issueLevel
        else readings.getD i old)
      let evs := (List.range 10).flatMap (fun i => crossed i (s.mgmt.sensors.getD i 0) (new.getD i 0))
      evs.foldl State.pldmEvent (s.updMgmt (fun m => { m with sensors := new })))

/-- The state sensors: media state, cluster status and reset kind (22 R555). -/
def State.stateSensor (s : State) : Nat → Nat
  | 11 => if s.flash.sealed then 3 else if s.flash.limited then 2 else if bitAt s.flsStatus 14 then 1 else 0
  | 12 => s.fltStatus
  | 13 => s.power.kind
  | _ => 0

/-- PLDM_MONITOR_READ: a sensor's number, whether it is available, and its value; a read of number 0 collects the oldest event (22 R552,
R555). -/
def execPldmMonitorRead (sensor : Nat) (s : State) : Res :=
  .next (
    if !s.smbusServed then s
    else if sensor = 0 then
      match s.mgmt.events with
      | [] => s.emit (.pldm [0])
      | e :: r => (s.updMgmt (fun m => { m with events := r, alert := !r.isEmpty })).emit (.pldm (leBytes 1 0 ++ leBytes 4 e))
    else if 13 < sensor then s
    else
      let live : Bool := !(s.power.phase = .fold) || sensor = 1 || sensor = 2 || sensor = 9 || 10 < sensor
      let v := if sensor ≤ 10 then s.mgmt.sensors.getD (sensor - 1) 0 else s.stateSensor sensor
      s.emit (.pldm (leBytes 1 sensor ++ leBytes 1 (boolNat live) ++ leBytes 4 v)))

/-- ALIVE_TOGGLE: the half period ends (22 R552). -/
def execAliveToggle (s : State) : Res :=
  .next (
    match s.power.phase with
    | .running | .bringUp | .bootStopped | .fold => s.updMgmt (fun m => { m with alive := if m.aliveStopped then m.alive else !m.alive })
    | _ => s)

/-! ### Boundary scan (22 R562) -/

/-- A test access port instruction; the port is dead without power. -/
def State.tap (s : State) (j : Jtag) : State := if s.power.phase = .unpowered then s else s.updMgmt (fun m => { m with jtag := j })

/-- The IDCODE value (22 R562). -/
def State.idcode (s : State) : Word :=
  BitVec.ofNat 32 (Config.stepping.toNat % 16 * 2 ^ 28 + s.variant.deviceId * 2 ^ 12 + 0x2B5 * 2 + 1)

/-- BYPASS. -/
def execBypass (s : State) : Res := .next (s.tap .bypass)

/-- IDCODE: its value is shifted out. -/
def execIdcode (s : State) : Res := .next (if s.power.phase = .unpowered then s else (s.tap .idcode).emit (.jtag s.idcode))

/-- SAMPLE/PRELOAD. -/
def execSamplePreload (s : State) : Res := .next (s.tap .sample)

/-- EXTEST and HIGHZ: accepted only while PERST# is asserted, otherwise BYPASS. -/
def execExtest (s : State) : Res := .next (s.tap (if s.cxl.perst then .extest else .bypass))
def execHighz (s : State) : Res := .next (s.tap (if s.cxl.perst then .highz else .bypass))

end Sys2Proof.Machine
end

