-- ==== Sys2Proof/Machine/RegisterWrite.lean ====
section
/-!
DEFINITION. Writes of BAR0 registers and reads of 64-bit counters (21 R540 to R542, 00 R11, R14, 19 R506, 02 R61, 03 R80, R89 to R91, 05
R160, 13 R355, R356, 15 R403, R413, R416, 17 R446, R447, R462, 18 R466, 20 R539).
-/
namespace Sys2Proof.Machine

/-! ### Audit registers (03 R80, R89 to R91) -/

/-- AUD_CTRL: TOL_SHIFT 0 to 10; a higher value is ignored and sets TOL_ERR (03 R80, R89). -/
def execAudCtrlWrite (v : Word) (s : State) : Res :=
  .next (
    let n := bits v.toNat 3 0
    if !s.up then s
    else if n > 10 then { s with audCtrl := { s.audCtrl with tolErr := true } }
    else { s with audCtrl := { tolErr := s.audCtrl.tolErr && !bitAt v.toNat 8, tolShift := n } })

/-- AUD_INJECT: arms an injection, or replaces the armed values (03 R91). -/
def execAudInjectWrite (v : Word) (s : State) : Res :=
  .next (
    let w := v.toNat
    if !s.up then s
    else { s with audInject := { arm := bitAt w 31, seat := bits w 28 21, row := bits w 20 15, col := bits w 14 9, bit := bits w 8 4 } })

/-! ### Counters (02 R61) -/

/-- COUNTER_LO_READ: the read of a _LO register latches the value that the next read of its _HI returns (02 R61). -/
def execCounterLoRead (off : Nat) (s : State) : Res :=
  .next (
    if !s.powered 79 then s
    else
      let out := s.emit (.reg off (s.reg false off))
      match s.pair off with
      | some v => if s.power.ready then { out with latch := sparsePut 0 (off + 4) (v / 2 ^ 32) s.latch } else out
      | none => out)

/-! ### Registers without a row of their own -/

/-- SRCH_CTRL: ignored whole when out of range; it ignores writes while the S-die is absent or lost (05 R160, 00 R11, 15 R403). -/
def State.writeSrchCtrl (s : State) (w : Nat) : State :=
  let win := bits w 23 13
  let most := bits w 12 0
  if s.variant = .v9706 || s.flt.sLost then s
  else if win > 2000 || most < 1 || most > 4096 then s.updSearch (fun z => { z with err := true })
  else s.updSearch (fun z => { z with err := z.err && !bitAt w 31, window := win, batchMax := most })

/-- FLS_CTRL (13 R355). -/
def State.writeFlsCtrl (s : State) (w : Nat) : State :=
  let hi := bits w 30 24
  let lo := bits w 22 16
  let hot := bits w 15 4
  let bg := bits w 3 0
  if hi < 50 || hi > 95 || lo < 10 || lo + 10 > hi || hot < 1 || bg < 1 || bg > 8 then s.updFlash (fun f => { f with ctrlErr := true })
  else s.updFlash (fun f => { f with ctrlErr := f.ctrlErr && !bitAt w 31, foldHigh := hi, foldLow := lo, hotVisits := hot, bgShare := bg })

/-- FLS_PATROL (13 R356). -/
def State.writeFlsPatrol (s : State) (w : Nat) : State :=
  let blocks := bits w 27 24
  let reloc := bits w 23 16
  let step := bits w 15 0
  if blocks < 1 || reloc < 8 || step < 1 then s.updFlash (fun f => { f with patErr := true })
  else s.updFlash (fun f => { f with patErr := f.patErr && !bitAt w 31, patBlocks := blocks, relocBits := reloc, aonStep := step })

/-- The MSI-X table: a vector's mask bit, or a word of its address and data (17 R446, R447). -/
def State.writeMsix (s : State) (o : Nat) (v : Word) : State :=
  let vec := (o - 0x8000) / 16
  if o % 16 = 12 then
    if bitAt v.toNat 0 then s.updCxl (fun c => { c with unmasked := c.unmasked.filter (fun x => x ≠ vec) }) else s.unmask vec
  else s.updCxl (fun c => { c with msixTable := sparsePut 0 ((o - 0x8000) / 4) v.toNat c.msixTable })

/-- Replace four bytes of a list. -/
def putWord (l : List Byte) (i : Nat) (v : Word) : List Byte := l.take i ++ leBytes 4 v.toNat ++ l.drop (i + 4)

/-- The state a meaning leads to. -/
def State.after (s : State) (r : Res) : State :=
  match r with
  | .next t => t
  | _ => s

/-- An aligned 32-bit write of a running module's BAR0: reserved offsets, read-only registers and reserved fields ignore it (00 R14, 21
R540, R541). -/
def State.writeReg (s : State) (off : Nat) (v : Word) : State :=
  let o := off % 0x10000
  let w := v.toNat
  match off / 0x10000 with
  | 1 => if o = 0 then s.after (execPwrCapWrite v s) else s
  | 2 => if o = 0 then s.after (execCmdAdminCtrlWrite v s) else s.adminBase o v
  | 3 =>
    if o = 0 then s.after (execDlrCtrlWrite v s)
    else if 0x1000 ≤ o && o < 0x1100 then s.after (execDlrTLimitWrite ((o - 0x1000) / 4) v s)
    else s
  | 5 => if o = 0xF000 then s.after (execSeatModeWrite v s) else s
  | 6 =>
    if o = 0 then s.after (execAudCtrlWrite v s)
    else if o = 4 then (if bitAt w 31 then { s with audLast := { s.audLast with valid := false } } else s)
    else if o = 8 then s.after (execAudInjectWrite v s)
    else s
  | 7 => if o = 0 then s.writeSrchCtrl w else s
  | 11 =>
    if o = 0 then s.after (execSrvCtrlWrite v s)
    else if o = 4 then s.after (execSrvSpecWrite v s)
    else if 0x1000 ≤ o && o < 0x1100 then s.after (execSrvTWeightWrite ((o - 0x1000) / 4) v s)
    else s
  | 12 => if o = 0 then s.after (execEmbCtrlWrite v s) else s
  | 14 => if o = 4 then s.writeFlsCtrl w else if o = 8 then s.writeFlsPatrol w else s
  | 15 =>
    if o = 4 then s.updFlt (fun f => { f with sticky := v.extractLsb' 0 8 })
    else if o = 0xC then s.after (execFltInjectWrite v s)
    else if o = 0x120 then (if bitAt w 31 then s.updFlt (fun f => { f with kfaultSrc := f.kfaultSrc &&& 0x7FFFFFFF }) else s)
    else s
  | 16 => if o = 0 then s.after (execLnkCellWrite v s) else if o = 0x18 then s.after (execLnkKnockWrite v s) else s
  | 17 =>
    if o = 4 then s.after (execHifHdmWrite v s)
    else if o = 8 then s.after (execHifBiasFlipWrite v s)
    else if o = 0xC then (if bitAt w 30 then s.updCxl (fun c => { c with flipErr := false }) else s)
    else if 0x8000 ≤ o then s.writeMsix o v
    else s
  | 18 =>
    if o = 0xC then s.after (execSecDebugSubmit v s)
    else if o = 0x24 then s.after (execSecOpkeyBurn v s)
    else if 0x100 ≤ o && o < 0x180 then s.updSec (fun x => { x with token := putWord x.token (o - 0x100) v })
    else if 0x180 ≤ o && o < 0x1A0 then s.updSec (fun x => { x with opkeyReg := putWord x.opkeyReg (o - 0x180) v })
    else s
  | _ => s

/-- REGISTER_WRITE: by width and alignment; nothing before READY (21 R540, 19 R506). -/
def execRegisterWrite (off width : Nat) (v : Addr) (s : State) : Res :=
  .next (
    let lo : Word := BitVec.ofNat 32 v.toNat
    let hi : Word := BitVec.ofNat 32 (v.toNat / 2 ^ 32)
    if !s.up || 2 ^ 26 ≤ off then s
    else if width = 4 && off % 4 = 0 then s.writeReg off lo
    else if width = 8 && off % 8 = 0 then (s.writeReg off lo).writeReg (off + 4) hi
    else s)

end Sys2Proof.Machine
end

