-- ==== Sys2Proof/Machine/Vector.lean ====
section
/-!
DEFINITION. Vector instructions (04 R99, R101). The guard masks the lanes of the destination; how it applies to the
operations that do not work lane by lane is in notes/assumptions/17.md.
-/
namespace Sys2Proof.Machine

/-- Write a vector register lane by lane under the guard, from the old register as it stands. -/
def Th.setLanes (t : Th) (s : State) (ty : LaneTy) (d : BitVec 5) (f : Nat → Nat) : State :=
  t.done s (t.ctx.wv d.toNat (maskLanes ty t.guard (t.ctx.rv d.toNat) f))

/-- Lane `i` of a vector register field. -/
def Th.lane (t : Th) (ty : LaneTy) (r : BitVec 5) (i : Nat) : Nat := laneOf (laneBits ty) (t.ctx.rv r.toNat) i

/-- VADD, VSUB, VMUL of two lanes (03 R65, 04 R101). -/
def vArith (op : VArithOp) (ty : LaneTy) (a b : Nat) : Nat :=
  match ty with
  | .int32 =>
    match op with
    | .vadd => (a + b) % 2 ^ 32
    | .vsub => (a + 2 ^ 32 - b % 2 ^ 32) % 2 ^ 32
    | .vmul => a * b % 2 ^ 32
  | _ =>
    let x := laneVal ty a
    let y := laneVal ty b
    laneEnc ty (match op with
      | .vadd => x.add y
      | .vsub => x.add y.neg
      | .vmul => x.mul y)

/-- VADD, VSUB, VMUL (04 R101). -/
def execVaddVsubVmul (i : Iss) (op : VArithOp) (ty : LaneTy) (d a b : BitVec 5) (s : State) : Res :=
  .next (s.vector i (.vaddVsubVmul i op ty d a b) [] [d, a, b] (fun t s =>
    t.setLanes s ty d (fun l => vArith op ty (t.lane ty a l) (t.lane ty b l))))

/-- VFMA: D ← D + A × B, one rounding (04 R101). -/
def execVfma (i : Iss) (ty : LaneTy) (d a b : BitVec 5) (s : State) : Res :=
  .next (s.vector i (.vfma i ty d a b) [] [d, a, b] (fun t s =>
    t.setLanes s ty d (fun l => laneEnc ty ((laneVal ty (t.lane ty d l)).add
      ((laneVal ty (t.lane ty a l)).mul (laneVal ty (t.lane ty b l)))))))

/-- VDIV and VSQRT, per IEEE 754; VSQRT reads A only (03 R65, 04 R101). -/
def execVdivVsqrt (i : Iss) (sqrt : Bool) (d a b : BitVec 5) (s : State) : Res :=
  .next (s.vector i (.vdivVsqrt i sqrt d a b) [] (if sqrt then [d, a] else [d, a, b]) (fun t s =>
    t.setLanes s .fp32 d (fun l =>
      let x := laneVal .fp32 (t.lane .fp32 a l)
      laneEnc .fp32 (if sqrt then x.sqrt else x.div (laneVal .fp32 (t.lane .fp32 b l))))))

/-- Minimum or maximum of two lanes; between −0 and +0 a free value chooses (04 R101, notes/assumptions/6.md). -/
def vMinMax (wantMax : Bool) (ty : LaneTy) (free a b : Nat) : Nat :=
  match ty with
  | .int32 =>
    if wantMax then (if signed 32 a < signed 32 b then b else a) else (if signed 32 b < signed 32 a then b else a)
  | _ =>
    let x := laneVal ty a
    let y := laneVal ty b
    if x.isZero && y.isZero then (if free % 2 = 0 then a else b) else laneEnc ty (FVal.pick wantMax x y)

/-- VMIN and VMAX (04 R101). -/
def execVminVmax (i : Iss) (max : Bool) (ty : LaneTy) (d a b : BitVec 5) (s : State) : Res :=
  .next (s.vector i (.vminVmax i max ty d a b) [] [d, a, b] (fun t s =>
    t.setLanes s.draw ty d (fun l => vMinMax max ty (Config.free s.fresh l) (t.lane ty a l) (t.lane ty b l))))

/-- VEXP2: 2^A within 2 units in the last place (04 R101, notes/assumptions/11.md). -/
def execVexp2 (i : Iss) (ty : LaneTy) (d a : BitVec 5) (s : State) : Res :=
  .next (s.vector i (.vexp2 i ty d a) [] [d, a] (fun t s =>
    t.setLanes s.draw ty d (fun l =>
      let f := if ty = .bf16 then Fmt.bf16 else Fmt.fp32
      f.exp2 (laneVal ty (t.lane ty a l)) (Config.free s.fresh l))))

/-- VAND, VOR, VXOR (04 R101). -/
def execVandVorVxor (i : Iss) (op : VLogicOp) (ty : LaneTy) (d a b : BitVec 5) (s : State) : Res :=
  .next (s.vector i (.vandVorVxor i op ty d a b) [] [d, a, b] (fun t s =>
    t.setLanes s ty d (fun l =>
      let x := t.lane ty a l
      let y := t.lane ty b l
      match op with
      | .vand => x &&& y
      | .vor => x ||| y
      | .vxor => x ^^^ y)))

/-- VSHL and VSRA: shift by B lane bits [4:0] (04 R101). -/
def execVshlVsra (i : Iss) (sra : Bool) (d a b : BitVec 5) (s : State) : Res :=
  .next (s.vector i (.vshlVsra i sra d a b) [] [d, a, b] (fun t s =>
    t.setLanes s .int32 d (fun l =>
      let x : Word := BitVec.ofNat 32 (t.lane .int32 a l)
      let n := t.lane .int32 b l % 32
      (if sra then x.sshiftRight n else x <<< n).toNat)))

/-- VCMPEQ, VCMPLT, VCMPLE: predicate D, one bit per lane (04 R101). -/
def execVcmpeqVcmpltVcmple (i : Iss) (op : VCmpOp) (ty : LaneTy) (d a b : BitVec 5) (s : State) : Res :=
  .next (s.vector i (.vcmpeqVcmpltVcmple i op ty d a b) [] [a, b] (fun t s =>
    t.done s (t.ctx.wp d.toNat (vcmpBits op ty t.guard (t.ctx.rp d.toNat) (t.ctx.rv a.toNat) (t.ctx.rv b.toNat)))))

/-- VSEL: lane ← A where the guard bit is 1, else B (04 R101). -/
def execVsel (i : Iss) (ty : LaneTy) (d a b : BitVec 5) (s : State) : Res :=
  .next (s.vector i (.vsel i ty d a b) [] [d, a, b] (fun t s =>
    t.done s (t.ctx.wv d.toNat (maskLanes ty t.guard (t.ctx.rv b.toNat) (t.lane ty a)))))

/-- The enabled lanes of a register. -/
def Th.enabled (t : Th) (ty : LaneTy) (r : BitVec 5) : List Nat :=
  ((List.range (laneCount ty)).filter (fun l => bitAt t.guard.toNat l)).map (t.lane ty r)

/-- Sum in a picked order with binary32 additions, without a starting zero (04 R101: order unspecified). -/
def redSum (n : Nat) (l : List Nat) : Nat :=
  match l with
  | [] => 0
  | [x] => laneEnc .fp32 (laneVal .fp32 x)
  | _ => Fmt.fp32.encode (sumPicks n 0 l.length (l.map (laneVal .fp32)))

/-- A lane's pattern with its NaN canonical (03 R73). -/
def canonLane (ty : LaneTy) (w : Nat) : Nat := if (laneVal ty w).isNan then laneEnc ty .nan else w

/-- A reduction over enabled lanes; the minimum or maximum of no lane at all is a free value (04 R101,
notes/assumptions/17.md). -/
def vReduce (op : VRedOp) (ty : LaneTy) (n : Nat) (l : List Nat) : Nat :=
  match op with
  | .vredsum => if ty = .int32 then sumNat l % 2 ^ 32 else redSum n l
  | .vredmax => match l with | [] => canonLane ty (Config.free n 0) | x :: xs => canonLane ty (xs.foldl (vMinMax true ty (Config.free n 1)) x)
  | .vredmin => match l with | [] => canonLane ty (Config.free n 0) | x :: xs => canonLane ty (xs.foldl (vMinMax false ty (Config.free n 1)) x)

/-- VREDSUM, VREDMAX, VREDMIN: lane 0 of D ← the reduction over enabled lanes, other lanes ← 0 (04 R101). -/
def execVredsumVredmaxVredmin (i : Iss) (op : VRedOp) (ty : LaneTy) (d a : BitVec 5) (s : State) : Res :=
  .next (s.vector i (.vredsumVredmaxVredmin i op ty d a) [] [d, a] (fun t s =>
    t.done s.draw (t.ctx.wv d.toNat (ofLanes 32 [vReduce op ty s.fresh (t.enabled ty a)]))))

/-- The lowest enabled lane index holding the maximum; NaN lanes are never chosen (04 R101). With no lane enabled the manual states no
result: the model answers 0xFFFFFFFF as for lanes that are all NaN (DESIGN CHOICE, notes/assumptions/17.md). -/
def argMax (ty : LaneTy) (guard : Word) (lane : Nat → Nat) : Nat :=
  let cand := (List.range (laneCount ty)).filter (fun l => bitAt guard.toNat l && !(laneVal ty (lane l)).isNan)
  match cand with
  | [] => 0xFFFFFFFF
  | c :: cs => cs.foldl (fun best l => if (laneVal ty (lane best)).lt (laneVal ty (lane l)) then l else best) c

/-- VARGMAX: lane 0 of D (04 R101). -/
def execVargmax (i : Iss) (ty : LaneTy) (d a : BitVec 5) (s : State) : Res :=
  .next (s.vector i (.vargmax i ty d a) [] [d, a] (fun t s =>
    let r := argMax ty t.guard (t.lane ty a)
    t.done s (t.ctx.wv d.toNat (maskLanes .int32 1 (t.ctx.rv d.toNat) (fun _ => r)))))

/-- VBCAST: every lane ← the low lane-width bits of scalar A (04 R101). -/
def execVbcast (i : Iss) (ty : LaneTy) (d a : BitVec 5) (s : State) : Res :=
  .next (s.vector i (.vbcast i ty d a) [a] [d] (fun t s =>
    t.setLanes s ty d (fun _ => (t.ctx.rs a.toNat).toNat % 2 ^ laneBits ty)))

/-- VTOS: scalar D ← lane B[4:0] of A, zero-extended, when the guard enables that lane; a lane number beyond the type's
lanes gives a free value (04 R101, notes/assumptions/17.md). -/
def execVtos (i : Iss) (ty : LaneTy) (d a b : BitVec 5) (s : State) : Res :=
  .next (s.vector i (.vtos i ty d a b) [d, b] [a] (fun t s =>
    let l := (t.ctx.rs b.toNat).toNat % 32
    if !bitAt t.guard.toNat l then t.skip s
    else if l < laneCount ty then t.done s (t.ctx.ws d.toNat (BitVec.ofNat 64 (t.lane ty a l)))
    else t.done s.draw (t.ctx.ws d.toNat (BitVec.ofNat 64 (Config.free s.fresh 0)))))

/-- VCVT: under type INT32 FP32 to INT32, under type FP32 INT32 to FP32 (04 R101). -/
def execVcvt (i : Iss) (ty : LaneTy) (d a : BitVec 5) (s : State) : Res :=
  .next (s.vector i (.vcvt i ty d a) [] [d, a] (fun t s =>
    t.setLanes s .int32 d (fun l =>
      let w := t.lane .int32 a l
      if ty = .int32 then (laneVal .fp32 w).toInt32.toNat else Fmt.fp32.encode (FVal.ofInt (signed 32 w)))))

/-- VWIDEN: FP32 D ← BF16 lanes 16h to 16h+15 of A (04 R101). -/
def execVwiden (i : Iss) (d a half : BitVec 5) (s : State) : Res :=
  .next (s.vector i (.vwiden i d a half) [] [d, a] (fun t s =>
    t.setLanes s .fp32 d (fun l => Fmt.fp32.encode (laneVal .bf16 (t.lane .bf16 a (16 * half.toNat + l))))))

/-- VNARROW: BF16 half h of D ← FP32 A, nearest-even, the other half kept (04 R101). -/
def execVnarrow (i : Iss) (d a half : BitVec 5) (s : State) : Res :=
  .next (s.vector i (.vnarrow i d a half) [] [d, a] (fun t s =>
    t.setLanes s .bf16 d (fun l =>
      if l / 16 = half.toNat then Fmt.bf16.encode (laneVal .fp32 (t.lane .fp32 a (l % 16))) else t.lane .bf16 d l)))

/-- The element format of VPACK's code; none is illegal (04 R101). -/
def packFmt : Nat → Option (Nat × Option Fmt)
  | 0x0 => some (8, some .e4m3)
  | 0x1 => some (8, some .e5m2)
  | 0x4 => some (6, some .e3m2)
  | 0x5 => some (6, some .e2m3)
  | 0x8 => some (8, none)
  | 0xC => some (4, some .e2m1)
  | _ => none

/-- Encode one value for VPACK: nearest-even, saturating, NaN as +0 in formats without NaN (04 R101). -/
def packEncode (f : Option Fmt) (v : FVal) : Nat :=
  match f with
  | some g =>
    match v with
    | .nan => g.nanCode
    | .inf n => g.withSign n g.maxCode
    | .num n m e => g.withSign n (min (g.roundMag roundsUpEven m e) g.maxCode)
  | none =>
    let x := v.toInt32.toInt
    (BitVec.ofInt 8 (if x > 127 then 127 else if x < -128 then -128 else x)).toNat

/-- The 32 FP32 values of A and A+1. -/
def Th.pair (t : Th) (a : BitVec 5) : List FVal :=
  ((List.range 16).map (fun l => laneVal .fp32 (t.lane .fp32 a l)))
  ++ ((List.range 16).map (fun l => laneVal .fp32 (laneOf 32 (t.ctx.rv (a.toNat + 1)) l)))

/-- VPACK: pack 32 values into the low bytes of D, other bytes ← 0 (04 R101). -/
def execVpack (i : Iss) (d a b : BitVec 5) (s : State) : Res :=
  .next (s.vector i (.vpack i d a b) [b] [d, a, a + 1] (fun t s =>
    match packFmt ((t.ctx.rs b.toNat).toNat % 16) with
    | none => t.fault s 1 0
    | some (w, f) =>
      let r := BitVec.ofNat 512 (leNat (packElems w ((t.pair a).map (packEncode f))))
      t.setLanes s .int32 d (laneOf 32 r)))

/-- The exponent e of VMXSCALE for an element code; none is illegal (04 R101). -/
def mxExp : Nat → Option Nat
  | 0x0 => some 8
  | 0x1 => some 15
  | 0x4 => some 4
  | 0x5 => some 2
  | 0xC => some 2
  | _ => none

/-- The E8M0 scale of 32 values (04 R101). -/
def mxScale (e : Nat) (l : List FVal) : Nat :=
  if l.any FVal.isNan then 0xFF
  else
    let m := (l.map FVal.abs).foldl (FVal.pick true) (.num false 0 0)
    match m with
    | .num _ m x =>
      if m = 0 then 127
      else
        let v := (Nat.log2 m : Int) + x - (e : Int) + 127
        if v < 0 then 0 else if v > 254 then 254 else v.toNat
    | _ => 254

/-- VMXSCALE: lane 0 of D ← the E8M0 scale (04 R101). -/
def execVmxscale (i : Iss) (d a b : BitVec 5) (s : State) : Res :=
  .next (s.vector i (.vmxscale i d a b) [b] [d, a, a + 1] (fun t s =>
    match mxExp ((t.ctx.rs b.toNat).toNat % 16) with
    | none => t.fault s 1 0
    | some e =>
      let x := mxScale e (t.pair a)
      t.done s (t.ctx.wv d.toNat (maskLanes .int32 (t.guard &&& 1) (t.ctx.rv d.toNat) (fun _ => x)))))

end Sys2Proof.Machine
end

