-- ==== Sys2Proof/Machine/Dispatch.lean ====
section
/-!
DEFINITION. The meaning of each command, one arm for each constructor of `Instr`.
-/
namespace Sys2Proof.Machine

def exec (i : Instr) (s : State) : Host.Outcome State Fault Refusal :=
  match i with
  | .addSubAndOrXor xat op d a b => Sys2Proof.Machine.execAddSubAndOrXor xat op d a b s
  | .shlShrSra xat op d a b => Sys2Proof.Machine.execShlShrSra xat op d a b s
  | .mulMulhu xat xhigh d a b => Sys2Proof.Machine.execMulMulhu xat xhigh d a b s
  | .divuRemu xat xrem d a b => Sys2Proof.Machine.execDivuRemu xat xrem d a b s
  | .minMaxMinuMaxu xat op d a b => Sys2Proof.Machine.execMinMaxMinuMaxu xat op d a b s
  | .addiAndiOriXori xat op d a imm => Sys2Proof.Machine.execAddiAndiOriXori xat op d a imm s
  | .shliShriSrai xat op d a imm => Sys2Proof.Machine.execShliShriSrai xat op d a imm s
  | .cmp xat op d a b => Sys2Proof.Machine.execCmp xat op d a b s
  | .br xat imm => Sys2Proof.Machine.execBr xat imm s
  | .jr xat a => Sys2Proof.Machine.execJr xat a s
  | .jal xat d a imm => Sys2Proof.Machine.execJal xat d a imm s
  | .pandPorPxor xat op d a b => Sys2Proof.Machine.execPandPorPxor xat op d a b s
  | .pnot xat d a => Sys2Proof.Machine.execPnot xat d a s
  | .pfromsPtos xat toScalar d a => Sys2Proof.Machine.execPfromsPtos xat toScalar d a s
  | .ldsSts xat xstore sz d a off => Sys2Proof.Machine.execLdsSts xat xstore sz d a off s
  | .ldSt xat xstore sz d a off => Sys2Proof.Machine.execLdSt xat xstore sz d a off s
  | .vldsVsts xat xstore sz d a off => Sys2Proof.Machine.execVldsVsts xat xstore sz d a off s
  | .vldVst xat xstore sz d a off => Sys2Proof.Machine.execVldVst xat xstore sz d a off s
  | .amo xat fn d a b => Sys2Proof.Machine.execAmo xat fn d a b s
  | .fenceAcq xat => Sys2Proof.Machine.execFenceAcq xat s
  | .fenceRel xat => Sys2Proof.Machine.execFenceRel xat s
  | .fenceSys xat => Sys2Proof.Machine.execFenceSys xat s
  | .hbarSync xat bar => Sys2Proof.Machine.execHbarSync xat bar s
  | .hbarArrive xat bar => Sys2Proof.Machine.execHbarArrive xat bar s
  | .hbarWait xat bar => Sys2Proof.Machine.execHbarWait xat bar s
  | .hbarInit xat bar a => Sys2Proof.Machine.execHbarInit xat bar a s
  | .dma xat d a => Sys2Proof.Machine.execDma xat d a s
  | .dmaComplete seat ctx ticket crcBad => Sys2Proof.Machine.execDmaComplete seat ctx ticket crcBad s
  | .dwait xat a => Sys2Proof.Machine.execDwait xat a s
  | .dtest xat d a => Sys2Proof.Machine.execDtest xat d a s
  | .uissue xat d a => Sys2Proof.Machine.execUissue xat d a s
  | .uwait xat a => Sys2Proof.Machine.execUwait xat a s
  | .utest xat d a => Sys2Proof.Machine.execUtest xat d a s
  | .mstream xat a => Sys2Proof.Machine.execMstream xat a s
  | .mrun xat => Sys2Proof.Machine.execMrun xat s
  | .matrixRunDone seat chained drainStall queueStall => Sys2Proof.Machine.execMatrixRunDone seat chained drainStall queueStall s
  | .mwaitRun xat => Sys2Proof.Machine.execMwaitRun xat s
  | .mwaitAll xat => Sys2Proof.Machine.execMwaitAll xat s
  | .mdrain xat a b upset => Sys2Proof.Machine.execMdrain xat a b upset s
  | .tileRerun seat upset => Sys2Proof.Machine.execTileRerun seat upset s
  | .tileRepairOther seat other upset => Sys2Proof.Machine.execTileRepairOther seat other upset s
  | .relayout xat a => Sys2Proof.Machine.execRelayout xat a s
  | .csrr xat d imm => Sys2Proof.Machine.execCsrr xat d imm s
  | .tspawn xat d a b => Sys2Proof.Machine.execTspawn xat d a b s
  | .nop xat => Sys2Proof.Machine.execNop xat s
  | .halt xat => Sys2Proof.Machine.execHalt xat s
  | .liLih xat xhigh d imm => Sys2Proof.Machine.execLiLih xat xhigh d imm s
  | .addl xat d a imm => Sys2Proof.Machine.execAddl xat d a imm s
  | .brl xat imm => Sys2Proof.Machine.execBrl xat imm s
  | .vaddVsubVmul xat op ty d a b => Sys2Proof.Machine.execVaddVsubVmul xat op ty d a b s
  | .vfma xat ty d a b => Sys2Proof.Machine.execVfma xat ty d a b s
  | .vdivVsqrt xat sqrt d a b => Sys2Proof.Machine.execVdivVsqrt xat sqrt d a b s
  | .vminVmax xat xmax ty d a b => Sys2Proof.Machine.execVminVmax xat xmax ty d a b s
  | .vexp2 xat ty d a => Sys2Proof.Machine.execVexp2 xat ty d a s
  | .vandVorVxor xat op ty d a b => Sys2Proof.Machine.execVandVorVxor xat op ty d a b s
  | .vshlVsra xat sra d a b => Sys2Proof.Machine.execVshlVsra xat sra d a b s
  | .vcmpeqVcmpltVcmple xat op ty d a b => Sys2Proof.Machine.execVcmpeqVcmpltVcmple xat op ty d a b s
  | .vsel xat ty d a b => Sys2Proof.Machine.execVsel xat ty d a b s
  | .vredsumVredmaxVredmin xat op ty d a => Sys2Proof.Machine.execVredsumVredmaxVredmin xat op ty d a s
  | .vargmax xat ty d a => Sys2Proof.Machine.execVargmax xat ty d a s
  | .vbcast xat ty d a => Sys2Proof.Machine.execVbcast xat ty d a s
  | .vtos xat ty d a b => Sys2Proof.Machine.execVtos xat ty d a b s
  | .vcvt xat ty d a => Sys2Proof.Machine.execVcvt xat ty d a s
  | .vwiden xat d a half => Sys2Proof.Machine.execVwiden xat d a half s
  | .vnarrow xat d a half => Sys2Proof.Machine.execVnarrow xat d a half s
  | .vpack xat d a b => Sys2Proof.Machine.execVpack xat d a b s
  | .vmxscale xat d a b => Sys2Proof.Machine.execVmxscale xat d a b s
  | .tvaLoadData seat ctx => Sys2Proof.Machine.execTvaLoadData seat ctx s
  | .parityRefetchDone seat line => Sys2Proof.Machine.execParityRefetchDone seat line s
  | .seatClearDone seat => Sys2Proof.Machine.execSeatClearDone seat s
  | .steadyLoadWindow seat activeCells gapCycles => Sys2Proof.Machine.execSteadyLoadWindow seat activeCells gapCycles s
  | .trickBoundary hand => Sys2Proof.Machine.execTrickBoundary hand s
  | .seatSaveDone seat => Sys2Proof.Machine.execSeatSaveDone seat s
  | .seatModeWrite v => Sys2Proof.Machine.execSeatModeWrite v s
  | .audCtrlWrite v => Sys2Proof.Machine.execAudCtrlWrite v s
  | .audInjectWrite v => Sys2Proof.Machine.execAudInjectWrite v s
  | .counterLoRead off => Sys2Proof.Machine.execCounterLoRead off s
  | .registerWrite off width v => Sys2Proof.Machine.execRegisterWrite off width v s
  | .pipeQuery cmd => Sys2Proof.Machine.execPipeQuery cmd s
  | .queryTokenize cmd => Sys2Proof.Machine.execQueryTokenize cmd s
  | .embed cmd vec => Sys2Proof.Machine.execEmbed cmd vec s
  | .coarseSearch q => Sys2Proof.Machine.execCoarseSearch q s
  | .probeSetArrive q => Sys2Proof.Machine.execProbeSetArrive q s
  | .batchClose cause => Sys2Proof.Machine.execBatchClose cause s
  | .batchStartScoring => Sys2Proof.Machine.execBatchStartScoring s
  | .probePass engine shadow hotParity => Sys2Proof.Machine.execProbePass engine shadow hotParity s
  | .farSegmentScore coll list seg read shadow => Sys2Proof.Machine.execFarSegmentScore coll list seg read shadow s
  | .farLimitExpire q => Sys2Proof.Machine.execFarLimitExpire q s
  | .searchMerge q shadows => Sys2Proof.Machine.execSearchMerge q shadows s
  | .refine q => Sys2Proof.Machine.execRefine q s
  | .rebalance => Sys2Proof.Machine.execRebalance s
  | .visitsHalve => Sys2Proof.Machine.execVisitsHalve s
  | .exactBatchStart => Sys2Proof.Machine.execExactBatchStart s
  | .srchQuery cmd => Sys2Proof.Machine.execSrchQuery cmd s
  | .srchInsert cmd => Sys2Proof.Machine.execSrchInsert cmd s
  | .markWaitRelease coll list => Sys2Proof.Machine.execMarkWaitRelease coll list s
  | .epochPublish coll => Sys2Proof.Machine.execEpochPublish coll s
  | .srchDelete cmd => Sys2Proof.Machine.execSrchDelete cmd s
  | .srchCompact cmd => Sys2Proof.Machine.execSrchCompact cmd s
  | .compactionDone coll list => Sys2Proof.Machine.execCompactionDone coll list s
  | .searchProbe k => Sys2Proof.Machine.execSearchProbe k s
  | .meldTopk k => Sys2Proof.Machine.execMeldTopk k s
  | .meldMerge k => Sys2Proof.Machine.execMeldMerge k s
  | .meldTopp k => Sys2Proof.Machine.execMeldTopp k s
  | .meldPiece k shadow => Sys2Proof.Machine.execMeldPiece k shadow s
  | .meldMergeGroup k shadow => Sys2Proof.Machine.execMeldMergeGroup k shadow s
  | .passageFetch cmd reads => Sys2Proof.Machine.execPassageFetch cmd reads s
  | .rerank cmd scores => Sys2Proof.Machine.execRerank cmd scores s
  | .pack cmd => Sys2Proof.Machine.execPack cmd s
  | .pipeReturn cmd => Sys2Proof.Machine.execPipeReturn cmd s
  | .tokenize k => Sys2Proof.Machine.execTokenize k s
  | .detokenize k => Sys2Proof.Machine.execDetokenize k s
  | .deckCacheFill deck line parityBad => Sys2Proof.Machine.execDeckCacheFill deck line parityBad s
  | .grammarMask k => Sys2Proof.Machine.execGrammarMask k s
  | .grammarAdvance k => Sys2Proof.Machine.execGrammarAdvance k s
  | .grammarFork k => Sys2Proof.Machine.execGrammarFork k s
  | .genStart cmd => Sys2Proof.Machine.execGenStart cmd s
  | .prefillChunk req => Sys2Proof.Machine.execPrefillChunk req s
  | .draftTree req nodes => Sys2Proof.Machine.execDraftTree req nodes s
  | .acceptStep req logits repaired => Sys2Proof.Machine.execAcceptStep req logits repaired s
  | .ringStall req => Sys2Proof.Machine.execRingStall req s
  | .kvRebuild req page => Sys2Proof.Machine.execKvRebuild req page s
  | .genCancel cmd => Sys2Proof.Machine.execGenCancel cmd s
  | .budgetDeposit cmd => Sys2Proof.Machine.execBudgetDeposit cmd s
  | .srvCtrlWrite v => Sys2Proof.Machine.execSrvCtrlWrite v s
  | .srvSpecWrite v => Sys2Proof.Machine.execSrvSpecWrite v s
  | .srvTWeightWrite tenant v => Sys2Proof.Machine.execSrvTWeightWrite tenant v s
  | .embLookup cmd => Sys2Proof.Machine.execEmbLookup cmd s
  | .gatherLookup k => Sys2Proof.Machine.execGatherLookup k s
  | .embUpdate cmd => Sys2Proof.Machine.execEmbUpdate cmd s
  | .gatherUpdate k => Sys2Proof.Machine.execGatherUpdate k s
  | .lookupReq msg => Sys2Proof.Machine.execLookupReq msg s
  | .lookupRsp msg => Sys2Proof.Machine.execLookupRsp msg s
  | .update msg => Sys2Proof.Machine.execUpdate msg s
  | .updateAck msg => Sys2Proof.Machine.execUpdateAck msg s
  | .load msg => Sys2Proof.Machine.execLoad msg s
  | .embCheckpoint table => Sys2Proof.Machine.execEmbCheckpoint table s
  | .embCheckpointDone table => Sys2Proof.Machine.execEmbCheckpointDone table s
  | .sketchHalve => Sys2Proof.Machine.execSketchHalve s
  | .embCtrlWrite v => Sys2Proof.Machine.execEmbCtrlWrite v s
  | .demandFetch tenant block => Sys2Proof.Machine.execDemandFetch tenant block s
  | .fetchComplete tenant block checksPass => Sys2Proof.Machine.execFetchComplete tenant block checksPass s
  | .tierFetch k => Sys2Proof.Machine.execTierFetch k s
  | .tierWriteback k => Sys2Proof.Machine.execTierWriteback k s
  | .t1LineRepairDone line => Sys2Proof.Machine.execT1LineRepairDone line s
  | .quotaSet cmd => Sys2Proof.Machine.execQuotaSet cmd s
  | .mediaWrite cmd res => Sys2Proof.Machine.execMediaWrite cmd res s
  | .mediaRead cmd => Sys2Proof.Machine.execMediaRead cmd s
  | .mediaTrim cmd => Sys2Proof.Machine.execMediaTrim cmd s
  | .mediaUnseal cmd => Sys2Proof.Machine.execMediaUnseal cmd s
  | .journalProgram res => Sys2Proof.Machine.execJournalProgram res s
  | .mapCheckpoint => Sys2Proof.Machine.execMapCheckpoint s
  | .nandReadDone lpn res codewords => Sys2Proof.Machine.execNandReadDone lpn res codewords s
  | .nandProgramDone block res => Sys2Proof.Machine.execNandProgramDone block res s
  | .dieFail die => Sys2Proof.Machine.execDieFail die s
  | .dieRebuildDone die => Sys2Proof.Machine.execDieRebuildDone die s
  | .patrolStep corrected => Sys2Proof.Machine.execPatrolStep corrected s
  | .holdupFlush => Sys2Proof.Machine.execHoldupFlush s
  | .dealHand cmd => Sys2Proof.Machine.execDealHand cmd s
  | .resizeHand cmd => Sys2Proof.Machine.execResizeHand cmd s
  | .freeHand cmd => Sys2Proof.Machine.execFreeHand cmd s
  | .modelLoad cmd => Sys2Proof.Machine.execModelLoad cmd s
  | .modelEvict cmd => Sys2Proof.Machine.execModelEvict cmd s
  | .evictionComplete kind number => Sys2Proof.Machine.execEvictionComplete kind number s
  | .kernelRun cmd => Sys2Proof.Machine.execKernelRun cmd s
  | .dlrCtrlWrite v => Sys2Proof.Machine.execDlrCtrlWrite v s
  | .dlrTLimitWrite tenant v => Sys2Proof.Machine.execDlrTLimitWrite tenant v s
  | .coreWatchdog cluster core => Sys2Proof.Machine.execCoreWatchdog cluster core s
  | .clusterWatchdog cluster => Sys2Proof.Machine.execClusterWatchdog cluster s
  | .fence holder generation => Sys2Proof.Machine.execFence holder generation s
  | .unitWatchdog unit => Sys2Proof.Machine.execUnitWatchdog unit s
  | .channelLoss channel answers => Sys2Proof.Machine.execChannelLoss channel answers s
  | .channelRehomeDone channel => Sys2Proof.Machine.execChannelRehomeDone channel s
  | .dieLoss die => Sys2Proof.Machine.execDieLoss die s
  | .sDieLoss => Sys2Proof.Machine.execSDieLoss s
  | .phaseLoss rail => Sys2Proof.Machine.execPhaseLoss rail s
  | .converterLoss => Sys2Proof.Machine.execConverterLoss s
  | .fltInjectWrite v => Sys2Proof.Machine.execFltInjectWrite v s
  | .linkTrained link lanes hb => Sys2Proof.Machine.execLinkTrained link lanes hb s
  | .heartbeatSend => Sys2Proof.Machine.execHeartbeatSend s
  | .heartbeat link frame => Sys2Proof.Machine.execHeartbeat link frame s
  | .data link frame => Sys2Proof.Machine.execData link frame s
  | .ctrl link frame => Sys2Proof.Machine.execCtrl link frame s
  | .nak link frame => Sys2Proof.Machine.execNak link frame s
  | .heartbeatTimeout link => Sys2Proof.Machine.execHeartbeatTimeout link s
  | .laneFail link lane => Sys2Proof.Machine.execLaneFail link lane s
  | .spareTrained link => Sys2Proof.Machine.execSpareTrained link s
  | .linkRetrainRetry link trains => Sys2Proof.Machine.execLinkRetrainRetry link trains s
  | .peerLost mem => Sys2Proof.Machine.execPeerLost mem s
  | .membership msg => Sys2Proof.Machine.execMembership msg s
  | .knock link => Sys2Proof.Machine.execKnock link s
  | .lnkCellWrite v => Sys2Proof.Machine.execLnkCellWrite v s
  | .lnkKnockWrite v => Sys2Proof.Machine.execLnkKnockWrite v s
  | .configRequest off => Sys2Proof.Machine.execConfigRequest off s
  | .perstAssert => Sys2Proof.Machine.execPerstAssert s
  | .perstDeassert => Sys2Proof.Machine.execPerstDeassert s
  | .cxlHotReset => Sys2Proof.Machine.execCxlHotReset s
  | .linkDown => Sys2Proof.Machine.execLinkDown s
  | .flr => Sys2Proof.Machine.execFlr s
  | .hdmRead off len => Sys2Proof.Machine.execHdmRead off len s
  | .hdmWrite off bytes => Sys2Proof.Machine.execHdmWrite off bytes s
  | .snoop addr => Sys2Proof.Machine.execSnoop addr s
  | .hifHdmWrite v => Sys2Proof.Machine.execHifHdmWrite v s
  | .hifBiasFlipWrite v => Sys2Proof.Machine.execHifBiasFlipWrite v s
  | .biasFlipDone => Sys2Proof.Machine.execBiasFlipDone s
  | .msixVectorUnmask vec => Sys2Proof.Machine.execMsixVectorUnmask vec s
  | .doeDiscovery idx => Sys2Proof.Machine.execDoeDiscovery idx s
  | .cdatRead entry => Sys2Proof.Machine.execCdatRead entry s
  | .getVersion => Sys2Proof.Machine.execGetVersion s
  | .getCapabilities => Sys2Proof.Machine.execGetCapabilities s
  | .negotiateAlgorithms offered => Sys2Proof.Machine.execNegotiateAlgorithms offered s
  | .getDigests => Sys2Proof.Machine.execGetDigests s
  | .getCertificate slot => Sys2Proof.Machine.execGetCertificate slot s
  | .setCertificate slot => Sys2Proof.Machine.execSetCertificate slot s
  | .challenge nonce => Sys2Proof.Machine.execChallenge nonce s
  | .getMeasurements index => Sys2Proof.Machine.execGetMeasurements index s
  | .keyExchange => Sys2Proof.Machine.execKeyExchange s
  | .finish verifies => Sys2Proof.Machine.execFinish verifies s
  | .endSession => Sys2Proof.Machine.execEndSession s
  | .ideKm keys => Sys2Proof.Machine.execIdeKm keys s
  | .ideFail => Sys2Proof.Machine.execIdeFail s
  | .sqTail tenant queue width v => Sys2Proof.Machine.execSqTail tenant queue width v s
  | .cqHead tenant queue width v => Sys2Proof.Machine.execCqHead tenant queue width v s
  | .tenantCtrl tenant width v => Sys2Proof.Machine.execTenantCtrl tenant width v s
  | .intake => Sys2Proof.Machine.execIntake s
  | .cmdAdminCtrlWrite v => Sys2Proof.Machine.execCmdAdminCtrlWrite v s
  | .fold cmd => Sys2Proof.Machine.execFold cmd s
  | .identify cmd => Sys2Proof.Machine.execIdentify cmd s
  | .cfgCommit cmd res => Sys2Proof.Machine.execCfgCommit cmd res s
  | .tenantCreate cmd => Sys2Proof.Machine.execTenantCreate cmd s
  | .tenantReset cmd => Sys2Proof.Machine.execTenantReset cmd s
  | .queueCreate cmd => Sys2Proof.Machine.execQueueCreate cmd s
  | .srchQueryLegacy cmd => Sys2Proof.Machine.execSrchQueryLegacy cmd s
  | .identifyLegacy cmd => Sys2Proof.Machine.execIdentifyLegacy cmd s
  | .srchInsertLegacy cmd => Sys2Proof.Machine.execSrchInsertLegacy cmd s
  | .srchDeleteLegacy cmd => Sys2Proof.Machine.execSrchDeleteLegacy cmd s
  | .mediaReadLegacy cmd => Sys2Proof.Machine.execMediaReadLegacy cmd s
  | .mediaWriteLegacy cmd res => Sys2Proof.Machine.execMediaWriteLegacy cmd res s
  | .embLookupLegacy cmd => Sys2Proof.Machine.execEmbLookupLegacy cmd s
  | .dumpRead cmd => Sys2Proof.Machine.execDumpRead cmd s
  | .fwStage cmd res => Sys2Proof.Machine.execFwStage cmd res s
  | .fwActivate cmd loads => Sys2Proof.Machine.execFwActivate cmd loads s
  | .probationPass => Sys2Proof.Machine.execProbationPass s
  | .powerOn => Sys2Proof.Machine.execPowerOn s
  | .uvWarn => Sys2Proof.Machine.execUvWarn s
  | .uvRelease => Sys2Proof.Machine.execUvRelease s
  | .issueLevelStep => Sys2Proof.Machine.execIssueLevelStep s
  | .brownOut => Sys2Proof.Machine.execBrownOut s
  | .alwaysOnLoss => Sys2Proof.Machine.execAlwaysOnLoss s
  | .foldOvercurrent => Sys2Proof.Machine.execFoldOvercurrent s
  | .capWindow millivolts watts => Sys2Proof.Machine.execCapWindow millivolts watts s
  | .pwrCapWrite v => Sys2Proof.Machine.execPwrCapWrite v s
  | .thermalWindow junctions => Sys2Proof.Machine.execThermalWindow junctions s
  | .thermalTrip => Sys2Proof.Machine.execThermalTrip s
  | .tripRelease => Sys2Proof.Machine.execTripRelease s
  | .bringUp o => Sys2Proof.Machine.execBringUp o s
  | .domainSwitch => Sys2Proof.Machine.execDomainSwitch s
  | .sidebandReset => Sys2Proof.Machine.execSidebandReset s
  | .receiverDetect => Sys2Proof.Machine.execReceiverDetect s
  | .smbusWakeTransaction => Sys2Proof.Machine.execSmbusWakeTransaction s
  | .pldmMonitorRead sensor => Sys2Proof.Machine.execPldmMonitorRead sensor s
  | .pldmFwUpdate image => Sys2Proof.Machine.execPldmFwUpdate image s
  | .sensorPoll readings => Sys2Proof.Machine.execSensorPoll readings s
  | .aliveToggle => Sys2Proof.Machine.execAliveToggle s
  | .secDebugSubmit v => Sys2Proof.Machine.execSecDebugSubmit v s
  | .debugUnlock => Sys2Proof.Machine.execDebugUnlock s
  | .secOpkeyBurn v => Sys2Proof.Machine.execSecOpkeyBurn v s
  | .bypass => Sys2Proof.Machine.execBypass s
  | .idcode => Sys2Proof.Machine.execIdcode s
  | .samplePreload => Sys2Proof.Machine.execSamplePreload s
  | .extest => Sys2Proof.Machine.execExtest s
  | .highz => Sys2Proof.Machine.execHighz s
  | .romCheck same => Sys2Proof.Machine.execRomCheck same s
  | .fatalError cause => Sys2Proof.Machine.execFatalError cause s
  | .dumpInfo => Sys2Proof.Machine.execDumpInfo s
  | .dumpChunk off => Sys2Proof.Machine.execDumpChunk off s
  | .illegalEncoding xat w0 w1 => Sys2Proof.Machine.execIllegalEncoding xat w0 w1 s
  | .cxlLinkTrained mode width rate => Sys2Proof.Machine.execCxlLinkTrained mode width rate s
  | .hostReject what => Sys2Proof.Machine.execHostReject what s
  | .leave mem => Sys2Proof.Machine.execLeave mem s
  | .clusterReady cluster => Sys2Proof.Machine.execClusterReady cluster s
  | .bridgeRetrain dieA dieB => Sys2Proof.Machine.execBridgeRetrain dieA dieB s
  | .retrainFail link => Sys2Proof.Machine.execRetrainFail link s
  | .spareTrainFail link => Sys2Proof.Machine.execSpareTrainFail link s

end Sys2Proof.Machine
end

