-- ==== Sys2Proof/WellFormed.lean ====
section
/-!
DEFINITION. Which commands are well formed: an operand that names a seat, a context, a tenant or another numbered part names one the
family has (00 R3, 02 R30, 04 R94, 05 R127, 14 R360, 16 R419, 18 R464).
-/
namespace Sys2Proof

/-- An issuing place: a seat of the family and one of its contexts (02 R30, 04 R94). -/
def Iss.wf (i : Iss) : Bool := decide (i.seat < 176) && decide (i.ctx < 64)

/-- A unit issue: its context is one of 64, and its ticket has 16 bits (04 R107). -/
def IssueKey.wf (k : IssueKey) : Bool := decide (k.ctx < 64) && decide (k.ticket < 65536)

/-- A query of a command: at most 64 (18 R485). -/
def QueryKey.wf (q : QueryKey) : Bool := decide (q.idx < 64)

/-- A rejected queue access names a tenant and a queue (18 R464). -/
def RejectOf.wf : RejectOf → Bool
  | .sqRead t q => decide (t < 64) && decide (q < 16)
  | .cqWrite t q => decide (t < 64) && decide (q < 16)
  | .work _ => true

/-- Whether every numbered part that a command names exists in the family. -/
def Instr.wf : Instr → Bool
  | .addSubAndOrXor i _ _ _ _ => i.wf
  | .shlShrSra i _ _ _ _ => i.wf
  | .mulMulhu i _ _ _ _ => i.wf
  | .divuRemu i _ _ _ _ => i.wf
  | .minMaxMinuMaxu i _ _ _ _ => i.wf
  | .addiAndiOriXori i _ _ _ _ => i.wf
  | .shliShriSrai i _ _ _ _ => i.wf
  | .cmp i _ _ _ _ => i.wf
  | .br i _ => i.wf
  | .jr i _ => i.wf
  | .jal i _ _ _ => i.wf
  | .pandPorPxor i _ _ _ _ => i.wf
  | .pnot i _ _ => i.wf
  | .pfromsPtos i _ _ _ => i.wf
  | .ldsSts i _ _ _ _ _ => i.wf
  | .ldSt i _ _ _ _ _ => i.wf
  | .vldsVsts i _ _ _ _ _ => i.wf
  | .vldVst i _ _ _ _ _ => i.wf
  | .amo i _ _ _ _ => i.wf
  | .fenceAcq i => i.wf
  | .fenceRel i => i.wf
  | .fenceSys i => i.wf
  | .hbarSync i _ => i.wf
  | .hbarArrive i _ => i.wf
  | .hbarWait i _ => i.wf
  | .hbarInit i _ _ => i.wf
  | .dma i _ _ => i.wf
  | .dmaComplete seat ctx _ _ => decide (seat < 176) && decide (ctx < 64)
  | .dwait i _ => i.wf
  | .dtest i _ _ => i.wf
  | .uissue i _ _ => i.wf
  | .uwait i _ => i.wf
  | .utest i _ _ => i.wf
  | .mstream i _ => i.wf
  | .mrun i => i.wf
  | .matrixRunDone seat _ _ _ => decide (seat < 176)
  | .mwaitRun i => i.wf
  | .mwaitAll i => i.wf
  | .mdrain i _ _ _ => i.wf
  | .tileRerun seat _ => decide (seat < 176)
  | .tileRepairOther seat other _ => decide (seat < 176) && decide (other < 176)
  | .relayout i _ => i.wf
  | .csrr i _ _ => i.wf
  | .tspawn i _ _ _ => i.wf
  | .nop i => i.wf
  | .halt i => i.wf
  | .liLih i _ _ _ => i.wf
  | .addl i _ _ _ => i.wf
  | .brl i _ => i.wf
  | .vaddVsubVmul i _ _ _ _ _ => i.wf
  | .vfma i _ _ _ _ => i.wf
  | .vdivVsqrt i _ _ _ _ => i.wf
  | .vminVmax i _ _ _ _ _ => i.wf
  | .vexp2 i _ _ _ => i.wf
  | .vandVorVxor i _ _ _ _ _ => i.wf
  | .vshlVsra i _ _ _ _ => i.wf
  | .vcmpeqVcmpltVcmple i _ _ _ _ _ => i.wf
  | .vsel i _ _ _ _ => i.wf
  | .vredsumVredmaxVredmin i _ _ _ _ => i.wf
  | .vargmax i _ _ _ => i.wf
  | .vbcast i _ _ _ => i.wf
  | .vtos i _ _ _ _ => i.wf
  | .vcvt i _ _ _ => i.wf
  | .vwiden i _ _ _ => i.wf
  | .vnarrow i _ _ _ => i.wf
  | .vpack i _ _ _ => i.wf
  | .vmxscale i _ _ _ => i.wf
  | .tvaLoadData seat ctx => decide (seat < 176) && decide (ctx < 64)
  | .parityRefetchDone seat _ => decide (seat < 176)
  | .seatClearDone seat => decide (seat < 176)
  | .steadyLoadWindow seat _ _ => decide (seat < 176)
  | .trickBoundary hand => decide (hand < 64)
  | .seatSaveDone seat => decide (seat < 176)
  | .seatModeWrite _ => true
  | .audCtrlWrite _ => true
  | .audInjectWrite _ => true
  | .counterLoRead _ => true
  | .registerWrite _ width _ => (width == 1 || width == 2 || width == 4 || width == 8)
  | .pipeQuery _ => true
  | .queryTokenize _ => true
  | .embed _ _ => true
  | .coarseSearch q => q.wf
  | .probeSetArrive q => q.wf
  | .batchClose _ => true
  | .batchStartScoring => true
  | .probePass engine _ _ => decide (engine < 18)
  | .farSegmentScore coll _ _ _ _ => decide (coll < 64)
  | .farLimitExpire q => q.wf
  | .searchMerge q _ => q.wf
  | .refine q => q.wf
  | .rebalance => true
  | .visitsHalve => true
  | .exactBatchStart => true
  | .srchQuery _ => true
  | .srchInsert _ => true
  | .markWaitRelease coll _ => decide (coll < 64)
  | .epochPublish coll => decide (coll < 64)
  | .srchDelete _ => true
  | .srchCompact _ => true
  | .compactionDone coll _ => decide (coll < 64)
  | .searchProbe k => k.wf
  | .meldTopk k => k.wf
  | .meldMerge k => k.wf
  | .meldTopp k => k.wf
  | .meldPiece k _ => k.wf
  | .meldMergeGroup k _ => k.wf
  | .passageFetch _ _ => true
  | .rerank _ _ => true
  | .pack _ => true
  | .pipeReturn _ => true
  | .tokenize k => k.wf
  | .detokenize k => k.wf
  | .deckCacheFill deck _ _ => decide (deck < 128)
  | .grammarMask k => k.wf
  | .grammarAdvance k => k.wf
  | .grammarFork k => k.wf
  | .genStart _ => true
  | .prefillChunk _ => true
  | .draftTree _ _ => true
  | .acceptStep _ _ _ => true
  | .ringStall _ => true
  | .kvRebuild _ _ => true
  | .genCancel _ => true
  | .budgetDeposit _ => true
  | .srvCtrlWrite _ => true
  | .srvSpecWrite _ => true
  | .srvTWeightWrite tenant _ => decide (tenant < 64)
  | .embLookup _ => true
  | .gatherLookup k => k.wf
  | .embUpdate _ => true
  | .gatherUpdate k => k.wf
  | .lookupReq _ => true
  | .lookupRsp _ => true
  | .update _ => true
  | .updateAck _ => true
  | .load _ => true
  | .embCheckpoint table => decide (table < 256)
  | .embCheckpointDone table => decide (table < 256)
  | .sketchHalve => true
  | .embCtrlWrite _ => true
  | .demandFetch tenant _ => decide (tenant < 64)
  | .fetchComplete tenant _ _ => decide (tenant < 64)
  | .tierFetch k => k.wf
  | .tierWriteback k => k.wf
  | .t1LineRepairDone _ => true
  | .quotaSet _ => true
  | .mediaWrite _ _ => true
  | .mediaRead _ => true
  | .mediaTrim _ => true
  | .mediaUnseal _ => true
  | .journalProgram _ => true
  | .mapCheckpoint => true
  | .nandReadDone _ _ _ => true
  | .nandProgramDone _ _ => true
  | .dieFail die => decide (die < 256)
  | .dieRebuildDone die => decide (die < 256)
  | .patrolStep _ => true
  | .holdupFlush => true
  | .dealHand _ => true
  | .resizeHand _ => true
  | .freeHand _ => true
  | .modelLoad _ => true
  | .modelEvict _ => true
  | .evictionComplete kind _ => (1 ≤ kind && kind ≤ 8)
  | .kernelRun _ => true
  | .dlrCtrlWrite _ => true
  | .dlrTLimitWrite tenant _ => decide (tenant < 64)
  | .coreWatchdog cluster core => decide (cluster < 2) && decide (core < 8)
  | .clusterWatchdog cluster => decide (cluster < 2)
  | .fence _ _ => true
  | .unitWatchdog unit => decide (unit < 15)
  | .channelLoss channel _ => decide (channel < 128)
  | .channelRehomeDone channel => decide (channel < 128)
  | .dieLoss die => decide (die < 4)
  | .sDieLoss => true
  | .phaseLoss _ => true
  | .converterLoss => true
  | .fltInjectWrite _ => true
  | .linkTrained link lanes _ => decide (link < 36) && (lanes == 1 || lanes == 2)
  | .heartbeatSend => true
  | .heartbeat link _ => decide (link < 36)
  | .data link _ => decide (link < 36)
  | .ctrl link _ => decide (link < 36)
  | .nak link _ => decide (link < 36)
  | .heartbeatTimeout link => decide (link < 36)
  | .laneFail link lane => decide (link < 36) && decide (lane < 3)
  | .spareTrained link => decide (link < 36)
  | .linkRetrainRetry link _ => decide (link < 36)
  | .peerLost mem => decide (mem < 37)
  | .membership _ => true
  | .knock link => decide (link < 36)
  | .lnkCellWrite _ => true
  | .lnkKnockWrite _ => true
  | .configRequest _ => true
  | .perstAssert => true
  | .perstDeassert => true
  | .cxlHotReset => true
  | .linkDown => true
  | .flr => true
  | .hdmRead _ _ => true
  | .hdmWrite _ _ => true
  | .snoop _ => true
  | .hifHdmWrite _ => true
  | .hifBiasFlipWrite _ => true
  | .biasFlipDone => true
  | .msixVectorUnmask vec => decide (vec < 2048)
  | .doeDiscovery _ => true
  | .cdatRead _ => true
  | .getVersion => true
  | .getCapabilities => true
  | .negotiateAlgorithms _ => true
  | .getDigests => true
  | .getCertificate _ => true
  | .setCertificate _ => true
  | .challenge _ => true
  | .getMeasurements _ => true
  | .keyExchange => true
  | .finish _ => true
  | .endSession => true
  | .ideKm _ => true
  | .ideFail => true
  | .sqTail tenant queue width _ => decide (tenant < 64) && decide (queue < 16) && (width == 1 || width == 2 || width == 4 || width == 8)
  | .cqHead tenant queue width _ => decide (tenant < 64) && decide (queue < 16) && (width == 1 || width == 2 || width == 4 || width == 8)
  | .tenantCtrl tenant width _ => decide (tenant < 64) && (width == 1 || width == 2 || width == 4 || width == 8)
  | .intake => true
  | .cmdAdminCtrlWrite _ => true
  | .fold _ => true
  | .identify _ => true
  | .cfgCommit _ _ => true
  | .tenantCreate _ => true
  | .tenantReset _ => true
  | .queueCreate _ => true
  | .srchQueryLegacy _ => true
  | .identifyLegacy _ => true
  | .srchInsertLegacy _ => true
  | .srchDeleteLegacy _ => true
  | .mediaReadLegacy _ => true
  | .mediaWriteLegacy _ _ => true
  | .embLookupLegacy _ => true
  | .dumpRead _ => true
  | .fwStage _ _ => true
  | .fwActivate _ _ => true
  | .probationPass => true
  | .powerOn => true
  | .uvWarn => true
  | .uvRelease => true
  | .issueLevelStep => true
  | .brownOut => true
  | .alwaysOnLoss => true
  | .foldOvercurrent => true
  | .capWindow _ _ => true
  | .pwrCapWrite _ => true
  | .thermalWindow _ => true
  | .thermalTrip => true
  | .tripRelease => true
  | .bringUp _ => true
  | .domainSwitch => true
  | .sidebandReset => true
  | .receiverDetect => true
  | .smbusWakeTransaction => true
  | .pldmMonitorRead sensor => decide (sensor < 14)
  | .pldmFwUpdate _ => true
  | .sensorPoll _ => true
  | .aliveToggle => true
  | .secDebugSubmit _ => true
  | .debugUnlock => true
  | .secOpkeyBurn _ => true
  | .bypass => true
  | .idcode => true
  | .samplePreload => true
  | .extest => true
  | .highz => true
  | .romCheck _ => true
  | .fatalError cause => (1 ≤ cause && cause ≤ 5)
  | .dumpInfo => true
  | .dumpChunk _ => true
  | .illegalEncoding i _ _ => i.wf
  | .cxlLinkTrained _ width _ => (width == 4 || width == 8 || width == 16)
  | .hostReject what => what.wf
  | .leave mem => decide (mem < 37)
  | .clusterReady cluster => decide (cluster < 2)
  | .bridgeRetrain dieA dieB => decide (dieA < 4) && decide (dieB < 4)
  | .retrainFail link => decide (link < 36)
  | .spareTrainFail link => decide (link < 36)

end Sys2Proof
end

