-- ==== Sys2Proof/Safety.lean ====
section
/-!
DEFINITION. The terms claims are made in: the invariant, when a thread instruction issues, which bytes a step leaves alone, and when a
command of a queue is due.
-/
namespace Sys2Proof.Machine

/-- The byte memory and the counters are each in their one canonical form: keys rising, nothing listed that reads 0
(notes/assumptions/4.md). -/
abbrev State.Inv (s : State) : Prop := Memory.wf s.mem = true ∧ sparseWf 0 0 s.ctr = true

/-- Every word of a thread's next instruction may be fetched, and it starts on a 4-byte boundary (04 R97, R98). -/
def Th.Fetchable (t : Th) (s : State) : Prop :=
  t.ctx.pc.toNat % 4 = 0 ∧ (∃ k, s.xlat t.inv.tenant t.inv.stock .fetch t.ctx.pc.toNat = .ok k)
    ∧ (t.len = 8 → ∃ k, s.xlat t.inv.tenant t.inv.stock .fetch (t.ctx.pc.toNat + 4) = .ok k)

/-- A thread instruction issues: its context is RUNNING and ready, its words may be fetched, its encoding is legal, and no outstanding load
will write a register it names (04 R94, R96 to R99). -/
def State.Issues (s : State) (ins : Instr) (i : Iss) (ss vs : List (BitVec 5)) (t : Th) : Prop :=
  s.thread i (threadWord ins) (threadLen ins) = some t ∧ threadLegal ins = true ∧ t.ctx.blocked ss vs = false
    ∧ t.Fetchable s

/-- Guard bit 0, which a scalar or control instruction needs (04 R99). -/
abbrev Th.Enabled (t : Th) : Prop := bitAt t.guard.toNat 0 = true

/-- Every byte outside a range of keys reads as before. -/
def SameOutside (s t : State) (k n : Nat) : Prop := ∀ a, ¬ (k ≤ a ∧ a < k + n) → memGet t.mem a = memGet s.mem a

/-- Every byte outside some spaces reads as before. -/
def SameOutsideSpaces (l : List Space) (s t : State) : Prop := ∀ a, (∀ sp ∈ l, a / 2 ^ 64 ≠ sp.index) → memGet t.mem a = memGet s.mem a

/-- Every byte outside T1, the HDM window included, reads as before. -/
abbrev SameOutsideT1 (s t : State) : Prop := SameOutsideSpaces [.t1 0, .t1 1, .t1 2, .t1 3, .hdm] s t

/-- Every byte outside T1 and the pots reads as before. -/
abbrev SameOutsideT1AndPots (s t : State) : Prop := SameOutsideSpaces [.t1 0, .t1 1, .t1 2, .t1 3, .hdm, .pot 0, .pot 1] s t

/-- Every byte outside the pots reads as before. -/
abbrev SameOutsidePots (s t : State) : Prop := SameOutsideSpaces [.pot 0, .pot 1] s t

/-- The command with a handle is in flight with an opcode, at its own checks, on a queue of the native kind. -/
def State.Due (s : State) (h op : Nat) (c : Cmd) : Prop := s.cmd? h = some c ∧ c.opcode = op ∧ c.stage = 0 ∧ c.legacyOp = none

/-- The unit issue with a key waits at its unit. -/
def State.AtUnit (s : State) (k : IssueKey) (unit op : Nat) (u : UnitIssue) : Prop :=
  s.issue? k = some u ∧ u.unit = unit ∧ u.op = op ∧ u.begun = false

end Sys2Proof.Machine
end

