-- ==== Sys2Proof/Certificates/Slice0/Obligations.lean ====
section
/-!
DEFINITION. The statements for the provers. Each names the rules it formalises; what rests on a choice of the model names its log entry.
-/
open Sys2Proof Sys2Proof.Machine

/-! ### The machine as a whole -/

/-- A step takes the command at the front of the queue and runs it on the state with the queue's rest; with no command waiting the
module idles: an SRAM upset may mark a word or a line, and nothing else changes; a module that is not up does not change at all. The queue
and the idle step are the model's own (notes/assumptions/1.md). -/
def Obligations.StepRunsFrontCommand : Prop :=
  ∀ (s : State), (∀ (c : Instr) (rest : List Instr), s.pending = c :: rest → step s = exec c { s with pending := rest })
    ∧ (s.pending = [] → ∃ t, step s = .next t ∧ (s.up = false → t = s)
        ∧ t = { s with seats := t.seats, potBad := t.potBad, embed := { s.embed with cacheBad := t.embed.cacheBad }
                       maskCache := t.maskCache, imageBad := t.imageBad, fresh := t.fresh }
        ∧ ∀ g, t.seat g = { s.seat g with badWords := (t.seat g).badWords })

/-- Right after reset MOD_STATUS shows no step and no READY, MOD_ID, MOD_CAPS and MOD_UNIT_PRESENT show a 9720, every register outside
the MOD_ block reads all ones, and no command waits (21 R547, 00 R2, R7, R8, 19 R506). That State.reset is a 9720 is the model's choice
(notes/assumptions/5.md). -/
def Obligations.ResetShowsNoReady : Prop :=
  State.reset.reg false 0x18 = 0 ∧ State.reset.reg false 0x08 = 0x07410824 ∧ State.reset.reg false 0x0C = 0x7FFF
    ∧ (State.reset.reg false 0x00).toNat / 65536 = 0x9720
    ∧ (∀ off, 0x10000 ≤ off → off < 2 ^ 26 → off % 4 = 0 → State.reset.reg false off = 0xFFFFFFFF) ∧ State.reset.pending = []

/-- The memory and the counters of the state right after reset are in canonical form (notes/assumptions/4.md). -/
def Obligations.CanonicalFormsAtReset : Prop :=
  State.reset.Inv

/-- Every step keeps the byte memory and the counters in canonical form: from any state that has them so, whatever command is at the
front. The form is the model's own (notes/assumptions/4.md): with it, equal memories are equal data. -/
def Obligations.EveryStepKeepsCanonicalForms : Prop :=
  ∀ (s t : State), s.Inv → step s = .next t → t.Inv

/-- The one write of memory: the bytes written read back, every other byte of every space reads as before, the form stays canonical,
and nothing but memory and the poison of lines written whole changes (12 R308). -/
def Obligations.MemoryWriteReadsBack : Prop :=
  ∀ (s : State) (key : Nat) (bytes : List Byte), s.Inv →
    (s.wr key bytes).rd key bytes.length = bytes ∧ SameOutside s (s.wr key bytes) key bytes.length ∧ (s.wr key bytes).Inv
      ∧ (∀ l, (s.wr key bytes).tier.poison.contains l = true ↔
          s.tier.poison.contains l = true ∧ ¬ (key ≤ 128 * l ∧ 128 * (l + 1) ≤ key + bytes.length))
      ∧ s.wr key bytes = { s with mem := (s.wr key bytes).mem, tier := { s.tier with poison := (s.wr key bytes).tier.poison } }

/-! ### Scalar and control instructions (04 R95 to R104) -/

/-- The scalar arithmetic instructions put the result of 04 R100 in D, go on past their own words, and change nothing else; s0 takes no
write.

Branches, jumps, comparisons and predicates: what 04 R100 gives the program counter, D and the predicates, and nothing else; CSRR
reads the value of 04 R102, where MCLK_CYCLES is a free value (notes/assumptions/6.md).

HALT leaves the context IDLE at once when nothing of its own is outstanding, and waiting otherwise; TSPAWN starts an IDLE context of
the same seat at A with s1 = B, or answers all ones when none is IDLE (04 R100, R104). Which IDLE context starts is a free value
(notes/assumptions/6.md).

Rows that complete here: ADD_SUB_AND_OR_XOR, SHL_SHR_SRA, MUL_MULHU, DIVU_REMU, MIN_MAX_MINU_MAXU, ADDI_ANDI_ORI_XORI, SHLI_SHRI_SRAI,
CMP, BR, JR, JAL, PAND_POR_PXOR, PNOT, PFROMS_PTOS, CSRR, TSPAWN, NOP, HALT, LI_LIH, ADDL, BRL. -/
def Obligations.ScalarAndControlResults : Prop :=
  (
    ∀ (s : State) (i : Iss) (d a b : BitVec 5) (imm : BitVec 13) (w : Word) (t : Th),
      let A := t.ctx.rs a.toNat
      let B := t.ctx.rs b.toNat
      let I : Addr := imm.signExtend 64
      let W : Addr := w.signExtend 64
      let puts (ins : Instr) (names : List (BitVec 5)) (v : Addr) : Prop :=
        s.Issues ins i names [] t → t.Enabled →
          exec ins s = .next (s.updCtx i.seat i.ctx (fun _ =>
            { t.ctx with s := if d = 0 then t.ctx.s else t.ctx.s.set d.toNat v, pc := t.ctx.pc + BitVec.ofNat 64 (threadLen ins) }))
      puts (.addSubAndOrXor i .add d a b) [d, a, b] (A + B) ∧ puts (.addSubAndOrXor i .sub d a b) [d, a, b] (A - B)
      ∧ puts (.addSubAndOrXor i .and d a b) [d, a, b] (A &&& B) ∧ puts (.addSubAndOrXor i .or d a b) [d, a, b] (A ||| B)
      ∧ puts (.addSubAndOrXor i .xor d a b) [d, a, b] (A ^^^ B)
      ∧ puts (.shlShrSra i .shl d a b) [d, a, b] (A <<< (B.toNat % 64)) ∧ puts (.shlShrSra i .shr d a b) [d, a, b] (A >>> (B.toNat % 64))
      ∧ puts (.shlShrSra i .sra d a b) [d, a, b] (A.sshiftRight (B.toNat % 64))
      ∧ puts (.mulMulhu i false d a b) [d, a, b] (A * B)
      ∧ puts (.mulMulhu i true d a b) [d, a, b] (BitVec.ofNat 64 (A.toNat * B.toNat / 2 ^ 64))
      ∧ puts (.divuRemu i false d a b) [d, a, b] (if B = 0 then BitVec.allOnes 64 else A / B)
      ∧ puts (.divuRemu i true d a b) [d, a, b] (if B = 0 then A else A % B)
      ∧ puts (.minMaxMinuMaxu i .min d a b) [d, a, b] (if B.slt A then B else A)
      ∧ puts (.minMaxMinuMaxu i .max d a b) [d, a, b] (if A.slt B then B else A)
      ∧ puts (.minMaxMinuMaxu i .minu d a b) [d, a, b] (if B.ult A then B else A)
      ∧ puts (.minMaxMinuMaxu i .maxu d a b) [d, a, b] (if A.ult B then B else A)
      ∧ puts (.addiAndiOriXori i .addi d a imm) [d, a] (A + I) ∧ puts (.addiAndiOriXori i .andi d a imm) [d, a] (A &&& I)
      ∧ puts (.addiAndiOriXori i .ori d a imm) [d, a] (A ||| I) ∧ puts (.addiAndiOriXori i .xori d a imm) [d, a] (A ^^^ I)
      ∧ puts (.shliShriSrai i .shl d a imm) [d, a] (A <<< (imm.toNat % 64)) ∧ puts (.shliShriSrai i .shr d a imm) [d, a] (A >>> (imm.toNat % 64))
      ∧ puts (.shliShriSrai i .sra d a imm) [d, a] (A.sshiftRight (imm.toNat % 64))
      ∧ puts (.liLih i false d w) [d] W
      ∧ puts (.liLih i true d w) [d] (w ++ ((t.ctx.rs d.toNat).setWidth 32 : Word))
      ∧ puts (.addl i d a w) [d, a] (A + W))
  ∧ (
    ∀ (s : State) (i : Iss) (d a b : BitVec 5) (imm : BitVec 13) (w : Word) (t : Th),
      let A := t.ctx.rs a.toNat
      let B := t.ctx.rs b.toNat
      let pc := t.ctx.pc
      let goes (ins : Instr) (names : List (BitVec 5)) (k : Ctx) : Prop :=
        s.Issues ins i names [] t → t.Enabled → exec ins s = .next (s.updCtx i.seat i.ctx (fun _ => k))
      let pred (ins : Instr) (names : List (BitVec 5)) (v : Word) : Prop :=
        goes ins names { t.ctx with p := if d = 0 then t.ctx.p else t.ctx.p.set d.toNat v, pc := pc + 4 }
      let all (x : Bool) : Word := if x then 0xFFFFFFFF else 0
      pred (.cmp i .eq d a b) [a, b] (all (A == B)) ∧ pred (.cmp i .ne d a b) [a, b] (all (A != B))
      ∧ pred (.cmp i .lt d a b) [a, b] (all (A.slt B)) ∧ pred (.cmp i .ltu d a b) [a, b] (all (A.ult B))
      ∧ pred (.cmp i .ge d a b) [a, b] (all (!A.slt B)) ∧ pred (.cmp i .geu d a b) [a, b] (all (!A.ult B))
      ∧ pred (.pandPorPxor i .pand d a b) [] (t.ctx.rp a.toNat &&& t.ctx.rp b.toNat)
      ∧ pred (.pandPorPxor i .por d a b) [] (t.ctx.rp a.toNat ||| t.ctx.rp b.toNat)
      ∧ pred (.pandPorPxor i .pxor d a b) [] (t.ctx.rp a.toNat ^^^ t.ctx.rp b.toNat)
      ∧ pred (.pnot i d a) [] (~~~ (t.ctx.rp a.toNat)) ∧ pred (.pfromsPtos i false d a) [a] (A.setWidth 32)
      ∧ goes (.pfromsPtos i true d a) [d]
          { t.ctx with s := if d = 0 then t.ctx.s else t.ctx.s.set d.toNat ((t.ctx.rp a.toNat).setWidth 64), pc := pc + 4 }
      ∧ goes (.br i imm) [] { t.ctx with pc := pc + 4 * imm.signExtend 64 } ∧ goes (.brl i w) [] { t.ctx with pc := pc + 4 * w.signExtend 64 }
      ∧ goes (.jr i a) [a] { t.ctx with pc := A }
      ∧ goes (.jal i d a imm) [d, a]
          { t.ctx with s := if d = 0 then t.ctx.s else t.ctx.s.set d.toNat (pc + 4), pc := A + 4 * imm.signExtend 64 }
      ∧ goes (.nop i) [] { t.ctx with pc := pc + 4 }
      ∧ (imm.toNat ≤ 7 → imm.toNat ≠ 6 →
          goes (.csrr i d imm) [d] { t.ctx with
            s := if d = 0 then t.ctx.s else t.ctx.s.set d.toNat (BitVec.ofNat 64 (match imm.toNat with
              | 0 => i.ctx
              | 1 => t.inv.rank i.seat
              | 2 => t.inv.seatCount
              | 3 => t.inv.hand
              | 4 => t.inv.tenant
              | 5 => i.seat
              | _ => t.inv.boundaries))
            pc := pc + 4 })
      ∧ (s.Issues (.csrr i d 6) i [d] [] t → t.Enabled →
          ∃ v, exec (.csrr i d 6) s = .next ((s.updCtx i.seat i.ctx (fun _ =>
            { t.ctx with s := if d = 0 then t.ctx.s else t.ctx.s.set d.toNat v, pc := pc + 4 })).draw)))
  ∧ (
    ∀ (s : State) (i : Iss) (d a b : BitVec 5) (t : Th), i.seat < s.seats.length → i.ctx < (s.seat i.seat).ctxs.length →
      (s.Issues (.halt i) i [] [] t → t.Enabled →
        ∃ u, exec (.halt i) s = .next u ∧
          ((s.seat i.seat).ctxQuiet i.ctx = true → ((u.seat i.seat).ctx i.ctx).mode = .idle)
          ∧ ((s.seat i.seat).ctxQuiet i.ctx = false → ((u.seat i.seat).ctx i.ctx).wait = .halt ∧ ((u.seat i.seat).ctx i.ctx).mode = .running))
      ∧ (s.Issues (.tspawn i d a b) i [d, a, b] [] t → t.Enabled → (s.seat i.seat).idleCtxs = [] →
          exec (.tspawn i d a b) s = .next (s.updCtx i.seat i.ctx (fun _ =>
            { t.ctx with s := if d = 0 then t.ctx.s else t.ctx.s.set d.toNat (BitVec.allOnes 64), pc := t.ctx.pc + 4 })))
      ∧ (s.Issues (.tspawn i d a b) i [d, a, b] [] t → t.Enabled → (s.seat i.seat).idleCtxs ≠ [] →
          ∃ c ∈ (s.seat i.seat).idleCtxs, exec (.tspawn i d a b) s = .next
            ((s.draw.updCtx i.seat i.ctx (fun _ =>
              { t.ctx with s := if d = 0 then t.ctx.s else t.ctx.s.set d.toNat (BitVec.ofNat 64 c), pc := t.ctx.pc + 4 })).updCtx i.seat c
                (fun k => { k with s := k.s.set 1 (t.ctx.rs b.toNat), mode := .running, wait := .none, pc := t.ctx.rs a.toNat }))))

/-- A scalar or control instruction whose guard bit 0 is 0 only advances; one that names a register an outstanding load will write is
not issued; a context that is not ready does nothing (04 R94, R96, R99). A program counter off 4 bytes is a fault of kind 5 (04 R98; the
kind is the model's choice, notes/assumptions/15.md).

A thread fault: the context stops in FAULTED, the invocation keeps its first record with kind, instruction word, program counter and
address, FLT_KFAULT holds the record, and the fault is counted for a tenant or a stock kernel; nothing else changes but the event log. An
illegal encoding is such a fault, of kind 1 (04 R99, R112, R113, 15 R416, R417).

Rows that complete here: ILLEGAL_ENCODING. -/
def Obligations.GuardInterlockAndFaults : Prop :=
  (
    ∀ (s : State) (i : Iss) (d a b : BitVec 5) (op : ArithOp) (t : Th),
      let ins : Instr := .addSubAndOrXor i op d a b
      (s.Issues ins i [d, a, b] [] t → ¬ t.Enabled → exec ins s = .next (s.updCtx i.seat i.ctx (fun _ => { t.ctx with pc := t.ctx.pc + 4 })))
      ∧ (s.thread i (threadWord ins) 4 = some t → t.Fetchable s → threadLegal ins = true → t.ctx.blocked [d, a, b] [] = true →
          exec ins s = .next s)
      ∧ (s.thread i (threadWord ins) 4 = some t → t.ctx.pc.toNat % 4 ≠ 0 → exec ins s = .next (t.fault s 5 t.ctx.pc.toNat))
      ∧ (s.thread i (threadWord ins) 4 = none → exec ins s = .next s))
  ∧ (
    (∀ (s : State) (t : Th) (kind addr : Nat), t.at'.seat < s.seats.length → t.at'.ctx < (s.seat t.at'.seat).ctxs.length →
      let u := t.fault s kind addr
      let r : FaultRec := { kind := kind, ctx := t.at'.ctx, rank := t.inv.rank t.at'.seat, instr := BitVec.ofNat 32 t.word
                            pc := t.ctx.pc, addr := BitVec.ofNat 64 addr }
      let n := if t.inv.stock then 0x000F0014 else 0x000F0010
      ((u.seat t.at'.seat).ctx t.at'.ctx).mode = .faulted ∧ u.flt.kfault = some r ∧ bits u.flt.kfaultSrc.toNat 31 31 = 1
        ∧ u.invs = updWhere (fun v => v.id == t.inv.id) (fun v => { v with fault := if v.fault.isNone then some r else v.fault }) s.invs
        ∧ u.counter n = min (s.counter n + 1) 0xFFFFFFFF
        ∧ u = { s with seats := u.seats, invs := u.invs, flt := { s.flt with kfault := u.flt.kfault, kfaultSrc := u.flt.kfaultSrc }
                       ctr := u.ctr, dump := u.dump })
    ∧ (∀ (s : State) (i : Iss) (w0 w1 : Word) (t : Th), decodeThread i.seat i.ctx w0 w1 = none → s.thread i w0.toNat 4 = some t →
        t.Fetchable s → exec (.illegalEncoding i w0 w1) s = .next (t.fault s 1 0)))

/-! ### Memory instructions, barriers, DMA and unit issue of a thread (04 R96, R100, R106 to R123) -/

/-- LDS and LD put the zero-extended little-endian value in D (LD when its data arrives), STS and ST store the low bytes of D at seat
offset or address A + OFF × size, and nothing else changes; a misaligned address is a fault of kind 5, a seat offset past 2 MiB one of
kind 3 (the kind is the model's choice, notes/assumptions/15.md). A load repairs the bad pot words it reads and a store makes those it
writes sound (03 R85); an access to a line in transit stalls (04 R118).

The data of a context's oldest outstanding load goes to the register the load named, and only there; s0 takes no write. With no load
outstanding nothing arrives (04 R95, R96).

Rows that complete here: LDS_STS, LD_ST, TVA_LOAD_DATA. -/
def Obligations.ScalarLoadsAndStores : Prop :=
  (
    ∀ (s : State) (i : Iss) (sz : BitVec 2) (d a : BitVec 5) (off : BitVec 11) (t : Th),
      let n := 2 ^ sz.toNat
      let x := (t.ctx.rs a.toNat + off.signExtend 64 * BitVec.ofNat 64 n).toNat
      let key := (Space.seat i.seat).key x
      let bytes := leBytes n (t.ctx.rs d.toNat).toNat
      let pc := t.ctx.pc + 4
      (∀ st, s.Issues (.ldsSts i st sz d a off) i [d, a] [] t → t.Enabled →
        (x % n ≠ 0 → exec (.ldsSts i st sz d a off) s = .next (t.fault s 5 x))
        ∧ (x % n = 0 → 2097152 < x + n → exec (.ldsSts i st sz d a off) s = .next (t.fault s 3 x))
        ∧ (x % n = 0 → x + n ≤ 2097152 → (s.seat i.seat).badIn x n = [] → st = false →
            exec (.ldsSts i st sz d a off) s = .next (s.updCtx i.seat i.ctx (fun _ => { t.ctx with
              s := if d = 0 then t.ctx.s else t.ctx.s.set d.toNat (BitVec.ofNat 64 (s.rdNat key n)), pc := pc })))
        ∧ (x % n = 0 → x + n ≤ 2097152 → st = true →
            exec (.ldsSts i st sz d a off) s = .next ((s.writeSeat i.seat x bytes).updCtx i.seat i.ctx (fun _ => { t.ctx with pc := pc }))
            ∧ (s.Inv → SameOutside s (s.writeSeat i.seat x bytes) key n ∧ (s.writeSeat i.seat x bytes).rd key n = bytes)))
      ∧ (∀ st, s.Issues (.ldSt i st sz d a off) i [d, a] [] t → t.Enabled →
        (x % n ≠ 0 → exec (.ldSt i st sz d a off) s = .next (t.fault s 5 x))
        ∧ (∀ k, x % n = 0 → s.xlat t.inv.tenant t.inv.stock (if st then .store else .load) x = .fault k →
            exec (.ldSt i st sz d a off) s = .next (t.fault s k x))
        ∧ (∀ b, x % n = 0 → s.xlat t.inv.tenant t.inv.stock (if st then .store else .load) x = .absent b →
            exec (.ldSt i st sz d a off) s = .next (s.updCtx i.seat i.ctx (fun k => { k with wait := .page b })))
        ∧ (∀ k, x % n = 0 → s.xlat t.inv.tenant t.inv.stock (if st then .store else .load) x = .ok k → s.underHoming k = true →
            exec (.ldSt i st sz d a off) s = .next (s.updCtx i.seat i.ctx (fun k => { k with wait := .homing })))
        ∧ (∀ k, x % n = 0 → s.xlat t.inv.tenant t.inv.stock (if st then .store else .load) x = .ok k → s.underHoming k = false →
            s.hostAccepts k n = true →
            (st = false → s.poisoned k n = false → exec (.ldSt i st sz d a off) s =
              .next (((s.potRefetch k n t.inv.cmd).touch t.inv.tenant x false).updCtx i.seat i.ctx (fun _ => { t.ctx with
                loads := t.ctx.loads ++ [{ vec := false, dst := d.toNat, val := BitVec.ofNat 512 (s.rdNat k n), again := some (x, n, 0) }], pc := pc })))
            ∧ (st = true →
              let w := ((s.potWritten k n).touch t.inv.tenant x true).storeAt i.seat k bytes
              exec (.ldSt i st sz d a off) s = .next (w.updCtx i.seat i.ctx (fun _ => { t.ctx with pc := pc }))
                ∧ (s.Inv → SameOutside s w k n ∧ w.rd k n = bytes)))))
  ∧ (
    ∀ (s : State) (g c : Nat),
      (∀ l rest, ((s.seat g).ctx c).loads = l :: rest →
        (l.vec = true → exec (.tvaLoadData g c) s = .next (s.updCtx g c (fun k => { k with loads := rest, v := k.v.set l.dst l.val })))
        ∧ (l.vec = false → exec (.tvaLoadData g c) s = .next (s.updCtx g c (fun k => { k with
            loads := rest, s := if l.dst = 0 then k.s else k.s.set l.dst (l.val.setWidth 64) }))))
      ∧ (((s.seat g).ctx c).loads = [] → exec (.tvaLoadData g c) s = .next s))

/-- VLDS and VLD load the enabled lanes of D and leave the others; VSTS and VST store the bytes of the enabled lanes and leave every
other byte of memory. Lanes of these instructions are 32 bits wide (the model's choice, notes/assumptions/15.md). With no lane enabled
nothing happens but the advance, and the bytes of disabled lanes are not accessed: a host page, a poisoned line or a bad word there stops
nothing (04 R99).

AMO stores the result of its operation on the naturally aligned word at A and, with FN[4] or CAS, brings back the old value; no other
byte changes; a location on a channel that is being re-homed stalls the context, as it does VLD and VST (04 R100, R117, R118, R122).

Rows that complete here: VLDS_VSTS, VLD_VST, AMO. -/
def Obligations.VectorMemoryAndAtomics : Prop :=
  (
    ∀ (s : State) (i : Iss) (st : Bool) (sz : BitVec 2) (d a : BitVec 5) (off : BitVec 11) (t : Th) (key : Nat), s.Inv →
      let x := (t.ctx.rs a.toNat + off.signExtend 64 * 64).toNat
      let G := t.guard.toNat
      let loaded := ofLanes 32 ((List.range 16).map (fun l =>
        if bitAt G l then leNat (s.rd (key + 4 * l) 4) else laneOf 32 (t.ctx.rv d.toNat) l))
      let sound := (lanePieces t.guard).foldl (fun s p => s.potRefetch (key + p.1) p.2 t.inv.cmd) s
      let does (ins : Instr) (seat : Bool) : Prop :=
        s.Issues ins i [a] [d] t → x % 64 = 0 → (∃ l < 16, bitAt G l = true) →
          (st = false → ∃ u, exec ins s = .next u ∧ u.mem = s.mem
            ∧ (seat = true → u = s.updCtx i.seat i.ctx (fun _ => { t.ctx with v := t.ctx.v.set d.toNat loaded, pc := t.ctx.pc + 4 }))
            ∧ (seat = false → u = (sound.touch t.inv.tenant x false).updCtx i.seat i.ctx (fun _ => { t.ctx with
                loads := t.ctx.loads ++ [{ vec := true, dst := d.toNat, val := loaded, again := some (x, 64, t.guard) }], pc := t.ctx.pc + 4 })))
          ∧ (st = true → ∃ u, exec ins s = .next u ∧ SameOutside s u key 64
            ∧ (∀ l < 16, u.rd (key + 4 * l) 4 = if bitAt G l then leBytes 4 (laneOf 32 (t.ctx.rv d.toNat) l) else s.rd (key + 4 * l) 4)
            ∧ u = { s with seats := u.seats, mem := u.mem, tier := u.tier, potBad := u.potBad }
            ∧ (seat = true → u.potBad = s.potBad)
            ∧ (i.seat < s.seats.length → i.ctx < (s.seat i.seat).ctxs.length →
                (u.seat i.seat).ctx i.ctx = { t.ctx with pc := t.ctx.pc + 4 }))
      (key = (Space.seat i.seat).key x → x + 64 ≤ 2097152 → (∀ l < 16, bitAt G l = true → (s.seat i.seat).badIn (x + 4 * l) 4 = []) →
        does (.vldsVsts i st sz d a off) true)
      ∧ (s.xlat t.inv.tenant t.inv.stock (if st then .store else .load) x = .ok key → s.underHoming key = false →
          (∀ l < 16, bitAt G l = true → s.hostAccepts (key + 4 * l) 4 = true ∧ (st = true ∨ s.poisoned (key + 4 * l) 4 = false)) →
          does (.vldVst i st sz d a off) false)
      ∧ (s.xlat t.inv.tenant t.inv.stock (if st then .store else .load) x = .ok key → s.underHoming key = true →
          s.Issues (.vldVst i st sz d a off) i [a] [d] t → x % 64 = 0 → (∃ l < 16, bitAt G l = true) →
          exec (.vldVst i st sz d a off) s = .next (s.updCtx i.seat i.ctx (fun k => { k with wait := .homing })))
      ∧ ((∀ l < 16, bitAt G l = false) → x % 64 = 0 →
          (s.Issues (.vldVst i st sz d a off) i [a] [d] t →
            exec (.vldVst i st sz d a off) s = .next (s.updCtx i.seat i.ctx (fun _ => { t.ctx with pc := t.ctx.pc + 4 })))
          ∧ (s.Issues (.vldsVsts i st sz d a off) i [a] [d] t →
            exec (.vldsVsts i st sz d a off) s = .next (s.updCtx i.seat i.ctx (fun _ => { t.ctx with pc := t.ctx.pc + 4 })))))
  ∧ (
    ∀ (s : State) (i : Iss) (fn : BitVec 8) (d a b : BitVec 5) (t : Th) (key : Nat),
      let w := if bitAt fn.toNat 3 then 8 else 4
      let va := (t.ctx.rs a.toNat).toNat
      let old := s.rdNat key w
      let X := BitVec.ofNat (8 * w) old
      let Y := BitVec.ofNat (8 * w) (t.ctx.rs b.toNat).toNat
      let stored : Option Nat :=
        match fn.toNat % 8 with
        | 0 => some (X + Y).toNat
        | 1 => some (if Y.slt X then Y else X).toNat
        | 2 => some (if X.slt Y then Y else X).toNat
        | 3 => some (if Y.ult X then Y else X).toNat
        | 4 => some (if X.ult Y then Y else X).toNat
        | _ => if X = BitVec.ofNat (8 * w) (t.ctx.rs d.toNat).toNat then some Y.toNat else none
      let s1 := (s.potRefetch key w t.inv.cmd).touch t.inv.tenant va true
      let s2 := match stored with
        | some v => s1.storeAt i.seat key (leBytes w v)
        | none => s1
      s.Issues (.amo i fn d a b) i [d, a, b] [] t → t.Enabled →
        (va % w ≠ 0 → exec (.amo i fn d a b) s = .next (t.fault s 5 va))
        ∧ (va % w = 0 → s.xlat t.inv.tenant t.inv.stock .atomic va = .ok key → s.underHoming key = true →
            exec (.amo i fn d a b) s = .next (s.updCtx i.seat i.ctx (fun k => { k with wait := .homing })))
        ∧ (va % w = 0 → s.xlat t.inv.tenant t.inv.stock .atomic va = .ok key → s.underHoming key = false → s.hostAccepts key w = true →
            s.poisoned key w = false →
            exec (.amo i fn d a b) s = .next (s2.updCtx i.seat i.ctx (fun _ => { t.ctx with
              loads := if bitAt fn.toNat 4 = true ∨ fn.toNat % 8 = 5 then
                t.ctx.loads ++ [{ vec := false, dst := d.toNat, val := BitVec.ofNat 512 old }] else t.ctx.loads
              pc := t.ctx.pc + 4 }))
            ∧ (s.Inv → SameOutside s s2 key w)))

/-- The fences only advance: commands take effect one at a time, so nothing is left to order (04 R119; notes/assumptions/1.md).

Hand barriers: INIT sets count and phase and faults while a phase has arrivals; ARRIVE counts one arrival of the context; the
arrival that reaches the count completes the phase; WAIT waits for the phase of the context's last arrival; SYNC is ARRIVE, then WAIT;
use without INIT, and WAIT without an arrival, are faults of kind 6 (04 R123).

Rows that complete here: FENCE_ACQ, FENCE_REL, FENCE_SYS, HBAR_SYNC, HBAR_ARRIVE, HBAR_WAIT, HBAR_INIT. -/
def Obligations.BarriersAndFences : Prop :=
  (
    ∀ (s : State) (i : Iss) (t : Th), t.Enabled → ∀ ins ∈ [Instr.fenceAcq i, .fenceRel i, .fenceSys i], s.Issues ins i [] [] t →
      exec ins s = .next (s.updCtx i.seat i.ctx (fun _ => { t.ctx with pc := t.ctx.pc + 4 })))
  ∧ (
    ∀ (s : State) (i : Iss) (bar : BitVec 4) (a : BitVec 5) (t : Th), t.Enabled → t.inv.barriers.length = 16 →
      let B := t.inv.barrier bar.toNat
      let n := (t.ctx.rs a.toNat).toNat
      let counted (k : Ctx) : State :=
        (s.updInv t.inv.id (fun v => { v with barriers := v.barriers.modify bar.toNat (fun y => { y with arrived := B.arrived + 1 }) })).updCtx
          i.seat i.ctx (fun _ => k)
      let arrived : Ctx := { t.ctx with
        arrivals := (bar.toNat, B.phase + 1) :: t.ctx.arrivals.filter (fun x => x.1 ≠ bar.toNat), pc := t.ctx.pc + 4 }
      (s.Issues (.hbarInit i bar a) i [a] [] t →
        ((0 < B.arrived ∨ n = 0 ∨ 64 * t.inv.seatCount < n) → exec (.hbarInit i bar a) s = .next (t.fault s 6 0))
        ∧ (B.arrived = 0 → 0 < n → n ≤ 64 * t.inv.seatCount → ∃ u, exec (.hbarInit i bar a) s = .next u
            ∧ u = { s with seats := u.seats, invs := u.invs }
            ∧ u.invs = updWhere (fun v => v.id == t.inv.id) (fun v => { v with
                barriers := v.barriers.set bar.toNat { init := true, count := n, phase := 0, arrived := 0 } }) s.invs
            ∧ (∀ g, g ∉ t.inv.seats → g ≠ i.seat → u.seat g = s.seat g)))
      ∧ (s.Issues (.hbarArrive i bar) i [] [] t → (B.init = false → exec (.hbarArrive i bar) s = .next (t.fault s 6 0))
        ∧ (B.init = true → B.arrived + 1 < B.count → i.seat < s.seats.length → i.ctx < (s.seat i.seat).ctxs.length →
            exec (.hbarArrive i bar) s = .next (counted arrived)))
      ∧ (s.Issues (.hbarSync i bar) i [] [] t → (B.init = false → exec (.hbarSync i bar) s = .next (t.fault s 6 0))
        ∧ (B.init = true → B.arrived + 1 < B.count → i.seat < s.seats.length → i.ctx < (s.seat i.seat).ctxs.length →
            exec (.hbarSync i bar) s = .next (counted { arrived with wait := .barrier bar.toNat (B.phase + 1) }))
        ∧ (B.init = true → B.count ≤ B.arrived + 1 → i.seat < s.seats.length → i.ctx < (s.seat i.seat).ctxs.length →
            ∃ u, exec (.hbarSync i bar) s = .next u ∧ ((u.seat i.seat).ctx i.ctx).wait = .none
              ∧ ((u.seat i.seat).ctx i.ctx).pc = t.ctx.pc + 4
              ∧ (∃ v, u.inv? t.inv.id = some v ∧ v.barrier bar.toNat = { B with phase := B.phase + 1, arrived := 0 })
              ∧ (∀ g ∈ t.inv.seats, ∀ k ∈ (u.seat g).ctxs, k.wait ≠ .barrier bar.toNat (B.phase + 1))
              ∧ u = { s with seats := u.seats, invs := u.invs }))
      ∧ (s.Issues (.hbarWait i bar) i [] [] t →
          (t.ctx.arrival bar.toNat = none → exec (.hbarWait i bar) s = .next (t.fault s 6 0))
          ∧ (∀ p, t.ctx.arrival bar.toNat = some p → exec (.hbarWait i bar) s = .next (s.updCtx i.seat i.ctx (fun _ => { t.ctx with
              wait := if p = 0 ∨ p ≤ B.phase then .none else .barrier bar.toNat p, pc := t.ctx.pc + 4 })))))

/-- DMA copies a sound descriptor at seat offset A, starts the transfer and puts the ticket in D; a descriptor that breaks a rule is a
fault of kind 2; DTEST says whether a ticket has completed (04 R100, R106, R107).

DWAIT and UWAIT go on when the ticket of A (or, with s0, every ticket of the context) has completed, and otherwise leave the context
waiting; only this seat's contexts change (04 R100, R107, R121).

A DMA that completes puts the bytes of its source (zeros, a copy, or the expansion of its stored blocks) at its destination and
nowhere else but in a source block put back from its media copy, and releases its ticket; one that touches a page that is not present or a
line in transit waits (04 R106, R107, R117, R118, 12 R317).

Rows that complete here: DMA, DMA_COMPLETE, DWAIT, DTEST, UWAIT, UTEST. -/
def Obligations.DmaIssuesAndCompletes : Prop :=
  (
    ∀ (s : State) (i : Iss) (d a : BitVec 5) (t : Th), t.Enabled →
      let x := (t.ctx.rs a.toNat).toNat
      let b := s.rd ((Space.seat i.seat).key x) 32
      let ticket := t.ctx.nextDma % 65536
      let m := dmaOf ticket b
      (s.Issues (.dma i d a) i [d, a] [] t →
        (x % 32 ≠ 0 → exec (.dma i d a) s = .next (t.fault s 2 0))
        ∧ (x % 32 = 0 → x + 32 ≤ 2097152 → (16 ≤ t.ctx.dmas.length ∨ 64 ≤ sumNat ((s.seat i.seat).ctxs.map (fun k => k.dmas.length))) →
            exec (.dma i d a) s = .next (s.updCtx i.seat i.ctx (fun k => { k with wait := .slot })))
        ∧ (x % 32 = 0 → x + 32 ≤ 2097152 → t.ctx.dmas.length < 16 → sumNat ((s.seat i.seat).ctxs.map (fun k => k.dmas.length)) < 64 →
            (s.seat i.seat).badIn x 32 = [] →
            (dmaFieldsOk b = false → exec (.dma i d a) s = .next (t.fault s 2 0))
            ∧ (dmaFieldsOk b = true → t.dmaTrouble s m = none → (m.decomp = false ∨ s.inPot t.inv.tenant (i.seat / 88) m.dst m.length = true) →
                exec (.dma i d a) s = .next (s.updCtx i.seat i.ctx (fun _ => { t.ctx with
                  nextDma := ticket + 1, dmas := t.ctx.dmas ++ [m], pc := t.ctx.pc + 4
                  s := if d = 0 then t.ctx.s else t.ctx.s.set d.toNat (BitVec.ofNat 64 ticket) })))))
      ∧ (s.Issues (.dtest i d a) i [a] [] t → exec (.dtest i d a) s = .next (s.updCtx i.seat i.ctx (fun _ => { t.ctx with
          p := if d = 0 then t.ctx.p else t.ctx.p.set d.toNat (if has (fun m => m.ticket == x) t.ctx.dmas then 0 else 0xFFFFFFFF)
          pc := t.ctx.pc + 4 })))
      ∧ (s.Issues (.utest i d a) i [a] [] t → exec (.utest i d a) s = .next (s.updCtx i.seat i.ctx (fun _ => { t.ctx with
          p := if d = 0 then t.ctx.p else t.ctx.p.set d.toNat (if t.ctx.units.contains x then 0 else 0xFFFFFFFF)
          pc := t.ctx.pc + 4 }))))
  ∧ (
    ∀ (s : State) (i : Iss) (a : BitVec 5) (t : Th), t.Enabled → i.seat ∈ t.inv.seats → i.seat < s.seats.length →
      i.ctx < (s.seat i.seat).ctxs.length → i.ctx < 64 →
      let x := (t.ctx.rs a.toNat).toNat
      let tk := if a.toNat = 0 then none else some x
      let waits (ins : Instr) (w : Wait) (ends : Bool) : Prop :=
        s.Issues ins i [a] [] t → ∃ u, exec ins s = .next u ∧ u = { s with seats := u.seats }
          ∧ (∀ g, g ≠ i.seat → u.seat g = s.seat g)
          ∧ (u.seat i.seat).ctx i.ctx = { t.ctx with pc := t.ctx.pc + 4, wait := if ends then .none else w }
      waits (.dwait i a) (.dma tk) (if a.toNat = 0 then t.ctx.dmas.isEmpty else !has (fun m => m.ticket == x) t.ctx.dmas)
      ∧ waits (.uwait i a) (.unit tk) (if a.toNat = 0 then t.ctx.units.isEmpty else !t.ctx.units.contains x))
  ∧ (
    ∀ (s : State) (g c tk n : Nat) (m : Dma) (v : Invocation) (b : List Byte) (copies : List (Nat × Stored)), s.Inv → g < s.seats.length → c < (s.seat g).ctxs.length →
      (s.seat g).inv = some n → s.inv? n = some v → g ∈ v.seats → ((s.seat g).ctx c).mode = .running → ((s.seat g).ctx c).wait ≠ .halt →
      ((s.seat g).ctx c).dmas.find? (fun m => m.ticket == tk) = some m →
      (∀ blk a, s.dmaTrouble v.tenant v.stock g m = some (.absent blk, a) → exec (.dmaComplete g c tk false) s = .next s)
      ∧ ((∀ blk a, s.dmaTrouble v.tenant v.stock g m ≠ some (.absent blk, a)) → s.dmaBadWords v g m = [] →
      (s.dmaHoming v g m = true → exec (.dmaComplete g c tk false) s = .next s)
      ∧ (s.dmaHoming v g m = false → s.dmaRejected v g m = false → s.dmaPoisoned v g m = false → s.dmaBytes v g m = some (b, copies) →
        (m.zero = true → b = List.replicate m.length 0)
        ∧ (m.zero = false → m.decomp = false →
            b = if m.srcAddr then s.rdTva v.tenant v.stock m.src m.length else s.rd ((Space.seat g).key m.src) m.length)
        ∧ ∃ u, exec (.dmaComplete g c tk false) s = .next u
          ∧ ((u.seat g).ctx c).dmas = ((s.seat g).ctx c).dmas.filter (fun y => y.ticket ≠ tk)
          ∧ (∀ g', g' ≠ g → u.seat g' = s.seat g')
          ∧ u = { s with seats := u.seats, mem := u.mem, tier := u.tier, potBad := u.potBad, ctr := u.ctr, audLast := u.audLast, cmds := u.cmds }
          ∧ (s.potBad = [] → copies = [] → u = { s with seats := u.seats, mem := u.mem, tier := u.tier })
          ∧ (m.decomp = false → copies = [])
          ∧ (m.dstAddr = false → u.rd ((Space.seat g).key m.dst) b.length = b
              ∧ (∀ k, (∀ x ∈ copies, ∀ j < x.2.bytes.length, k ≠ s.keyOf v.tenant true .load (m.src + x.1 + j)) →
                  ¬ ((Space.seat g).key m.dst ≤ k ∧ k < (Space.seat g).key m.dst + b.length) → memGet u.mem k = memGet s.mem k))
          ∧ (m.dstAddr = true →
              (∀ k, (∀ i < b.length, k ≠ s.keyOf v.tenant v.stock .store (m.dst + i)) →
                (∀ x ∈ copies, ∀ j < x.2.bytes.length, k ≠ s.keyOf v.tenant true .load (m.src + x.1 + j)) → memGet u.mem k = memGet s.mem k)
              ∧ ((∀ i j, i < j → j < b.length → s.keyOf v.tenant v.stock .store (m.dst + i) ≠ s.keyOf v.tenant v.stock .store (m.dst + j)) →
                  (List.range b.length).map (fun i => memGet u.mem (s.keyOf v.tenant v.stock .store (m.dst + i))) = b)))))

/-- UISSUE copies a descriptor with a sound header, queues it for its unit and puts the ticket in D; a header that breaks a rule is a
fault of kind 2 (04 R100, R109, R110).

A unit issue that completes writes its 16-byte record at DONE, leaves the queue and releases its ticket, and no object waits for it any
longer; no other byte changes (04 R110, 14 R373).

Rows that complete here: UISSUE. -/
def Obligations.UnitIssueQueuesAndCompletes : Prop :=
  (
    ∀ (s : State) (i : Iss) (d a : BitVec 5) (t : Th) (key : Nat), t.Enabled → s.Issues (.uissue i d a) i [d, a] [] t →
      let x := (t.ctx.rs a.toNat).toNat
      let h := s.rd ((Space.seat i.seat).key x) 32
      let unit := fieldOf h 0 1
      let len := fieldOf h 4 4
      let done := fieldOf h 8 8
      let ticket := t.ctx.nextUnit % 65536
      let sound := 1 ≤ unit ∧ unit ≤ 7 ∧ len ≤ 224 ∧ len % 8 = 0 ∧ fieldOf h 2 2 = 0 ∧ fieldOf h 0x18 8 = 0
      (x % 32 ≠ 0 → exec (.uissue i d a) s = .next (t.fault s 2 0))
      ∧ (x % 32 = 0 → x + 32 ≤ 2097152 → t.ctx.units.length < 32 → (s.seat i.seat).badIn x 32 = [] → ¬ sound →
          exec (.uissue i d a) s = .next (t.fault s 2 0))
      ∧ (x % 32 = 0 → x + 32 + len ≤ 2097152 → t.ctx.units.length < 32 → (s.seat i.seat).badIn x 32 = [] →
          (s.seat i.seat).badIn (x + 32) len = [] → sound → done % 16 = 0 → s.xlat t.inv.tenant t.inv.stock .store done = .ok key →
          s.underHoming key = false → s.hostAccepts key 16 = true → s.fitted (unitBit unit) = true → s.unitOut (unitBit unit) = false → s.flt.sLost = false →
          1 ≤ fieldOf h 1 1 → fieldOf h 1 1 ≤ unitOps unit →
          exec (.uissue i d a) s = .next { ((s.potWritten key 16).touch t.inv.tenant done true).updCtx i.seat i.ctx (fun _ => { t.ctx with
              nextUnit := ticket + 1, units := t.ctx.units ++ [ticket], pc := t.ctx.pc + 4
              s := if d = 0 then t.ctx.s else t.ctx.s.set d.toNat (BitVec.ofNat 64 ticket) }) with
            issues := s.issues ++ [{ key := { seat := i.seat, ctx := i.ctx, ticket := ticket }, tenant := t.inv.tenant
                                     stock := t.inv.stock, unit := unit, op := fieldOf h 1 1
                                     body := s.rd ((Space.seat i.seat).key (x + 32)) len, done := BitVec.ofNat 64 done
                                     tag := BitVec.ofNat 64 (fieldOf h 0x10 8), recovered := false, begun := false }] }))
  ∧ (
    ∀ (s : State) (k : IssueKey) (u : UnitIssue) (st n key m : Nat) (v : Invocation), s.Inv → s.issue? k = some u → k.seat < 1024 →
      k.seat < s.seats.length → k.ctx < (s.seat k.seat).ctxs.length → ((s.seat k.seat).ctx k.ctx).mode = .running →
      ((s.seat k.seat).ctx k.ctx).wait ≠ .halt → (s.seat k.seat).inv = some m → s.inv? m = some v → k.seat ∈ v.seats →
      s.xlat u.tenant u.stock .store u.done.toNat = .ok key →
      let t := s.finishIssue k st n
      t.rd key 16 = leBytes 1 st ++ leBytes 1 (1 + 2 * boolNat u.recovered) ++ leBytes 2 0 ++ leBytes 4 n ++ leBytes 8 u.tag.toNat
        ∧ SameOutside s t key 16 ∧ t.issue? k = none ∧ (∀ j, j ≠ k → t.issue? j = s.issue? j)
        ∧ ((t.seat k.seat).ctx k.ctx).units = ((s.seat k.seat).ctx k.ctx).units.filter (fun x => x ≠ k.ticket)
        ∧ (∀ g, g ≠ k.seat → t.seat g = s.seat g)
        ∧ t = { (s.forgetIssue (fun j => j == k)) with
                  seats := t.seats, issues := t.issues, mem := t.mem, tier := t.tier, ctr := t.ctr, dump := t.dump })

/-- The refetch of a seat-buffer line puts the words of its recorded source back but for those that something else has written since,
clears the errors of the words it put back, lets the line's waiters go on and counts a step-1 repair; nothing else changes (03 R85, R92).

The repair of a failed tile: a re-run that passes writes the output and counts a step-1 repair; one that fails goes to step 2; there
another seat of the hand runs it, and the first seat takes a strike, which quarantines it when two are in its window; a second failure is
counted and ends the work of the invocation with ABORTED_FAULT (03 R81, R83, R84, R92). A re-run of a tile whose operands changed has a free
result (03 R82; notes/assumptions/39.md).

Rows that complete here: TILE_RERUN, TILE_REPAIR_OTHER, PARITY_REFETCH_DONE. -/
def Obligations.RepairsRestore : Prop :=
  (
    ∀ (s : State) (g line src : Nat) (l : Nat × Nat), s.Inv → g < s.seats.length →
      (s.seat g).dmaLines.find? (fun x => x.1 == line) = some l → l.2 = src →
      (∃ w ∈ (s.seat g).badIn (64 * line) 64, w ∉ (s.seat g).storedWords) → 64 * line + 64 ≤ 2097152 →
      ∃ u, exec (.parityRefetchDone g line) s = .next u
        ∧ (∀ i < 16, u.rd ((Space.seat g).key (64 * line + 4 * i)) 4
            = if 64 * line + 4 * i ∈ (s.seat g).storedWords then s.rd ((Space.seat g).key (64 * line + 4 * i)) 4 else s.rd (src + 4 * i) 4)
        ∧ SameOutside s u ((Space.seat g).key (64 * line)) 64
        ∧ (∀ w ∈ (u.seat g).badWords, w / 64 = line → w ∈ (s.seat g).storedWords)
        ∧ (∀ k ∈ (u.seat g).ctxs, k.wait ≠ .parity line) ∧ (∀ g', g' ≠ g → u.seat g' = s.seat g')
        ∧ u.counter (0x00061004 + g * 0x20) = min (s.counter (0x00061004 + g * 0x20) + 1) 0xFFFFFFFF
        ∧ u = { s with seats := u.seats, mem := u.mem, tier := { s.tier with poison := u.tier.poison }, ctr := u.ctr })
  ∧ (
    ∀ (s : State) (g other n : Nat) (up : Upset) (r : Repair) (v : Invocation), s.Inv → g < 176 → other < 176 → g < s.seats.length →
      other < s.seats.length → (s.seat g).repair = some r → (s.seat g).inv = some n → s.inv? n = some v → g ∈ v.seats →
      r.drain.ctx < (s.seat g).ctxs.length → ((s.seat g).ctx r.drain.ctx).mode = .running → (s.seat g).mode ≠ .quarantined →
      (s.seat g).badRun r.tile = none →
      let j1 := s.judgeAgain g g r.tile up
      let j2 := s.judgeAgain g other r.tile up
      (s.stale g r.tile = false → j1 = s.judge g r.tile up ∧ j2 = s.judge other r.tile up) ∧
      (r.step = 1 →
        (j1.2.1 = true → ∃ u, exec (.tileRerun g up) s = .next u ∧ (u.seat g).repair = none
          ∧ u.counter (0x00061004 + g * 0x20) = min (s.counter (0x00061004 + g * 0x20) + 1) 0xFFFFFFFF
          ∧ u.mem = (s.writeRows g r.drain (r.drain.rows r.tile s.fresh j1.1)).mem
          ∧ ((u.seat g).ctx r.drain.ctx).pc = ((s.seat g).ctx r.drain.ctx).pc + 4 ∧ ((u.seat g).ctx r.drain.ctx).wait = .none)
        ∧ (j1.2.1 = false → ∃ u, exec (.tileRerun g up) s = .next u ∧ (u.seat g).repair = some { r with step := 2 } ∧ u.mem = s.mem
          ∧ u = { s with seats := u.seats, ctr := u.ctr, audLast := u.audLast, audInject := u.audInject, fresh := u.fresh }))
      ∧ (r.step = 2 → other ≠ g → s.mayRepair g other = true →
          ∃ u, exec (.tileRepairOther g other up) s = .next u ∧ (u.seat g).repair = none
            ∧ u.counter (0x0006101C + g * 0x20) = min (s.counter (0x0006101C + g * 0x20) + 1) 0xFFFFFFFF
            ∧ u.counter (0x0006100C + other * 0x20) = min (s.counter (0x0006100C + other * 0x20) + 1) 0xFFFFFFFF
            ∧ (2 ≤ (s.seat g).strikes.length → (u.seat g).mode = .quarantined)
            ∧ (j2.2.1 = true → u.mem = (s.writeRows g r.drain (r.drain.rows r.tile s.fresh j2.1)).mem
                ∧ u.counter (0x00061008 + g * 0x20) = min (s.counter (0x00061008 + g * 0x20) + 1) 0xFFFFFFFF)
            ∧ (j2.2.1 = false → u.mem = s.mem
                ∧ u.counter (0x00061010 + g * 0x20) = min (s.counter (0x00061010 + g * 0x20) + 1) 0xFFFFFFFF
                ∧ u.counter (0x0006101C + other * 0x20) = min (s.counter (0x0006101C + other * 0x20) + 1) 0xFFFFFFFF
                ∧ ∃ w, u.inv? n = some w ∧ w.stop.isSome = true)))

/-! ### The matrix array, drains, audits and repairs (02 R33 to R50, 03 R66 to R92, 04 R104, R105, R108) -/

/-- MSTREAM sets the context's descriptor pointer; MRUN waits while an earlier matrix instruction of another context of the seat does, and
then queues the run of a sound descriptor with its operands and only advances the context; without an MSTREAM, or with a descriptor that
breaks a rule, it is a fault of kind 2; MWAIT.RUN and MWAIT.ALL go on when the context's runs (and DMAs into the seat buffer) have completed
and otherwise wait (02 R34, R35, R41, 04 R100, R104, R120).

The run at the head of the matrix queue finishes: it starts a tile in a free accumulator set or, with CONTINUE, joins the newest;
busy, fill, stall and gated cycles are counted; other seats and memory are untouched (02 R34, R42, R44, R54, R58).

Rows that complete here: MSTREAM, MRUN, MATRIX_RUN_DONE, MWAIT_RUN, MWAIT_ALL. -/
def Obligations.MatrixIssueAndRun : Prop :=
  (
    ∀ (s : State) (i : Iss) (a : BitVec 5) (t : Th), t.Enabled →
      let x := s.seat i.seat
      let place := match t.ctx.turn with | some m => m.1 | none => x.nextTurn
      let free := s.updCtx i.seat i.ctx (fun k => { k with turn := none })
      let first : Th := { t with ctx := { t.ctx with turn := none } }
      (s.Issues (.mstream i a) i [a] [] t → exec (.mstream i a) s = .next (s.updCtx i.seat i.ctx (fun _ => { t.ctx with
          stream := some (t.ctx.rs a.toNat).toNat, pc := t.ctx.pc + 4 })))
      ∧ (s.Issues (.mrun i) i [] [] t →
          (x.behind i.ctx place false = true →
            exec (.mrun i) s = .next (s.updCtx i.seat i.ctx (fun k => { k with wait := .slot, turn := some (place, false) })))
          ∧ (x.behind i.ctx place false = false → t.ctx.stream = none → exec (.mrun i) s = .next (first.fault free 2 0))
          ∧ (∀ p, x.behind i.ctx place false = false → t.ctx.stream = some p →
              let b := s.rd ((Space.seat i.seat).key p) 64
              (p % 64 ≠ 0 → exec (.mrun i) s = .next (first.fault free 2 0))
              ∧ (p % 64 = 0 → p + 64 ≤ 2097152 → x.badIn p 64 = [] → descOk x b = false → exec (.mrun i) s = .next (first.fault free 2 0))
              ∧ (p % 64 = 0 → p + 64 ≤ 2097152 → x.badWords = [] → descOk x b = true →
                  ((descOf b).cont = false → 2 ≤ x.tilesInUse →
                    exec (.mrun i) s = .next (free.updCtx i.seat i.ctx (fun k => { k with wait := .slot, turn := some (place, false) })))
                  ∧ ((descOf b).cont = true ∨ x.tilesInUse < 2 →
                    exec (.mrun i) s = .next ((free.updCtx i.seat i.ctx (fun _ => { first.ctx with pc := t.ctx.pc + 4 })).updSeat i.seat
                      (fun y => { y with queue := y.queue ++ [s.runOf i.seat i.ctx (descOf b)] }))))))
      ∧ (i.seat ∈ t.inv.seats → i.seat < s.seats.length → i.ctx < x.ctxs.length → i.ctx < 64 →
          let waits (ins : Instr) (all ends : Bool) : Prop :=
            s.Issues ins i [] [] t → ∃ u, exec ins s = .next u ∧ u = { s with seats := u.seats } ∧ (∀ g, g ≠ i.seat → u.seat g = s.seat g)
              ∧ (u.seat i.seat).ctx i.ctx = { t.ctx with pc := t.ctx.pc + 4, wait := if ends then .none else .matrix all }
          waits (.mwaitRun i) false (!has (fun r => r.ctx == i.ctx) x.queue)
          ∧ waits (.mwaitAll i) true (!has (fun r => r.ctx == i.ctx) x.queue && t.ctx.dmas.all (fun m => m.dstAddr))))
  ∧ (
    ∀ (s : State) (g : Nat) (chained : Bool) (ds qs n c : Nat) (v : Invocation) (r : Run) (rest : List Run),
      let x := s.seat g
      let reg := 0x00040000 + g * 0x100
      s.Inv → g < s.seats.length → x.inv = some n → s.inv? n = some v → g ∈ v.seats → c < x.ctxs.length → (x.ctx c).mode = .running →
      (x.ctx c).wait ≠ .halt → x.queue = r :: rest → x.mode ≠ .quarantined →
      let on := chained && x.tail.follows r.desc
      (r.desc.cont = true → x.sets ≠ []) → (r.desc.cont = false → x.sets.length + boolNat x.repair.isSome < 2) →
      ∃ u, exec (.matrixRunDone g chained ds qs) s = .next u ∧ (u.seat g).queue.length = rest.length
        ∧ (u.seat g).sets = (if r.desc.cont then x.sets.modify (x.sets.length - 1) (fun t => { t with runs := t.runs ++ [r] })
            else x.sets ++ [{ runs := [r] }])
        ∧ u.counter (reg + 0x18) = min (s.counter (reg + 0x18) + r.desc.steps) (2 ^ 64 - 1)
        ∧ u.counter (reg + 0x20) = min (s.counter (reg + 0x20)
            + (if r.desc.cont then (if on then 0 else 63) else if on then 63 else 126)) (2 ^ 64 - 1)
        ∧ u.counter (reg + 0x28) = min (s.counter (reg + 0x28)
            + ((if r.desc.shareGroup then r.desc.steps else 0) + (if x.tail.clashes r.desc then ds else 0))) 0xFFFFFFFF
        ∧ (u.seat g).tail.last = some r.desc
        ∧ (∀ g', g' ≠ g → u.seat g' = s.seat g') ∧ u = { s with seats := u.seats, ctr := u.ctr })

/-- A drain whose audit passes writes the output rows at the target, frees the tile's set and advances; one whose audit fails keeps the
tile for the repair of 03 R81 and leaves the context waiting. Outside the target no byte changes either way. It waits while an earlier
MDRAIN of another context of the seat does (02 R35, 03 R70, R77, R79, R81, 04 R105).

RELAYOUT writes the transpose: element j of row k of the result is element k of row j of the source, bit for bit; no byte outside the
destination changes and the context only advances; a descriptor that breaks a rule is a fault of kind 2 (02 R46, 04 R108).

Rows that complete here: MDRAIN, RELAYOUT. -/
def Obligations.DrainAuditAndRelayout : Prop :=
  (
    ∀ (s : State) (i : Iss) (a b : BitVec 5) (up : Upset) (t : Th) (d : Drain) (tile : Tile) (rest : List Tile), s.Inv → t.Enabled →
      s.Issues (.mdrain i a b up) i [a, b] [] t → i.seat ∈ t.inv.seats → i.seat < 176 → i.seat < s.seats.length → i.ctx < (s.seat i.seat).ctxs.length →
      let x := s.seat i.seat
      let target := (t.ctx.rs a.toNat).toNat
      let place := match t.ctx.turn with | some m => m.1 | none => x.nextTurn
      let first : Th := { t with ctx := { t.ctx with turn := none } }
      (x.behind i.ctx place true = true →
        exec (.mdrain i a b up) s = .next (s.updCtx i.seat i.ctx (fun k => { k with wait := .drain, turn := some (place, true) })))
      ∧ (x.behind i.ctx place true = false → drainOf i.ctx target (t.ctx.rs b.toNat).toNat = none →
          exec (.mdrain i a b up) s = .next (first.fault (s.updCtx i.seat i.ctx (fun k => { k with turn := none })) 2 0))
      ∧ (x.behind i.ctx place true = false → drainOf i.ctx target (t.ctx.rs b.toNat).toNat = some d → x.sets = tile :: rest → x.oldestDone = true → x.repair = none →
          d.allowed tile.integer = true → target % 64 = 0 → d.endOf tile ≤ 2097152 →
          let accs := (s.judge i.seat tile up).1
          let rows := d.rows tile s.fresh accs
          (∀ row ∈ rows, row.length ≤ d.dstride * 64) →
          ∃ u, exec (.mdrain i a b up) s = .next u ∧ (u.seat i.seat).sets = rest
            ∧ SameOutside s u ((Space.seat i.seat).key target) (d.endOf tile - target)
            ∧ ((s.judge i.seat tile up).2.1 = true →
                (∀ k < rows.length, u.rd ((Space.seat i.seat).key (target + k * d.dstride * 64)) (rows.getD k []).length = rows.getD k [])
                ∧ (u.seat i.seat).repair = none ∧ ((u.seat i.seat).ctx i.ctx) = { first.ctx with pc := t.ctx.pc + 4 }
                ∧ u.counter (0x00040008 + i.seat * 0x100) = min (s.counter (0x00040008 + i.seat * 0x100) + 1) (2 ^ 64 - 1))
            ∧ ((s.judge i.seat tile up).2.1 = false → (u.seat i.seat).repair = some { tile := tile, drain := d, step := 1 }
                ∧ ((u.seat i.seat).ctx i.ctx) = { first.ctx with wait := .drain })
            ∧ u = { s with seats := u.seats, mem := u.mem, tier := u.tier, ctr := u.ctr, fresh := u.fresh
                           audInject := u.audInject, audLast := u.audLast }))
  ∧ (
    ∀ (s : State) (i : Iss) (a : BitVec 5) (t : Th), s.Inv → t.Enabled → s.Issues (.relayout i a) i [a] [] t →
      let p := (t.ctx.rs a.toNat).toNat
      let key := (Space.seat i.seat).key
      let b := s.rd (key p) 32
      let src := fieldOf b 0 4
      let dst := fieldOf b 4 4
      let r := fieldOf b 8 2
      let c := fieldOf b 0xA 2
      let w := ebits (fieldOf b 0xC 1)
      let ss := fieldOf b 0xE 2
      let ds := fieldOf b 0x10 2
      p % 32 = 0 → p + 32 ≤ 2097152 → (s.seat i.seat).badWords = [] →
        (relayoutOk b = false → exec (.relayout i a) s = .next (t.fault s 2 0))
        ∧ (relayoutOk b = true → packedLen w r ≤ ds * 64 →
            ∃ u, exec (.relayout i a) s = .next u
              ∧ SameOutside s u (key dst) ((c - 1) * ds * 64 + packedLen w r)
              ∧ (∀ k < c, ∀ j < r, packedElem w (u.rd (key (dst + k * ds * 64)) (packedLen w r)) j
                  = packedElem w (s.rd (key (src + j * ss * 64)) (packedLen w c)) k)
              ∧ (i.seat < s.seats.length → i.ctx < (s.seat i.seat).ctxs.length →
                  (u.seat i.seat).ctx i.ctx = { t.ctx with pc := t.ctx.pc + 4 })
              ∧ u = { s with seats := u.seats, mem := u.mem, tier := u.tier }))

/-! ### Vector instructions (04 R95, R99, R101) -/

/-- The guard of a vector instruction: enabled lanes get the result, disabled lanes keep the old register's bits (04 R99).

Lane-by-lane arithmetic: the enabled lanes of D get the exact result of 04 R101 rounded once to the lane's format (modulo 2^32 for
integers), the others keep their values, and nothing else changes but the program counter. Between −0 and +0 VMIN and VMAX return either
operand, a free value (notes/assumptions/6.md).

Rows that complete here: VADD_VSUB_VMUL, VFMA, VDIV_VSQRT, VMIN_VMAX, VEXP2. -/
def Obligations.GuardAndVectorArithmetic : Prop :=
  (
    ∀ (ty : LaneTy) (guard : Word) (old : VReg) (f : Nat → Nat), (∀ l, f l < 2 ^ laneBits ty) → ∀ l < laneCount ty,
      laneOf (laneBits ty) (maskLanes ty guard old f) l = if bitAt guard.toNat l then f l else laneOf (laneBits ty) old l)
  ∧ (
    ∀ (s : State) (i : Iss) (d a b : BitVec 5) (ty : LaneTy) (t : Th),
      let V (ty : LaneTy) (r : BitVec 5) (l : Nat) : FVal := laneVal ty (laneOf (laneBits ty) (t.ctx.rv r.toNat) l)
      let W (r : BitVec 5) (l : Nat) : Word := BitVec.ofNat 32 (laneOf 32 (t.ctx.rv r.toNat) l)
      let res (s : State) (ty : LaneTy) (f : Nat → Nat) : State := s.updCtx i.seat i.ctx (fun _ => { t.ctx with
        v := t.ctx.v.set d.toNat (maskLanes ty t.guard (t.ctx.rv d.toNat) f), pc := t.ctx.pc + 4 })
      let lanes (ins : Instr) (vs : List (BitVec 5)) (ty : LaneTy) (f : Nat → Nat) : Prop :=
        s.Issues ins i [] vs t → exec ins s = .next (res s ty f)
      (ty ≠ .int32 →
        lanes (.vaddVsubVmul i .vadd ty d a b) [d, a, b] ty (fun l => laneEnc ty ((V ty a l).add (V ty b l)))
        ∧ lanes (.vaddVsubVmul i .vsub ty d a b) [d, a, b] ty (fun l => laneEnc ty ((V ty a l).add (V ty b l).neg))
        ∧ lanes (.vaddVsubVmul i .vmul ty d a b) [d, a, b] ty (fun l => laneEnc ty ((V ty a l).mul (V ty b l)))
        ∧ lanes (.vfma i ty d a b) [d, a, b] ty (fun l => laneEnc ty ((V ty d l).add ((V ty a l).mul (V ty b l))))
        ∧ (s.Issues (.vexp2 i ty d a) i [] [d, a] t → ∃ pick : Nat → Nat, exec (.vexp2 i ty d a) s = .next (res s.draw ty (fun l =>
            (if ty = .bf16 then Fmt.bf16 else Fmt.fp32).exp2 (V ty a l) (pick l)))))
      ∧ lanes (.vaddVsubVmul i .vadd .int32 d a b) [d, a, b] .int32 (fun l => (W a l + W b l).toNat)
      ∧ lanes (.vaddVsubVmul i .vsub .int32 d a b) [d, a, b] .int32 (fun l => (W a l - W b l).toNat)
      ∧ lanes (.vaddVsubVmul i .vmul .int32 d a b) [d, a, b] .int32 (fun l => (W a l * W b l).toNat)
      ∧ lanes (.vdivVsqrt i false d a b) [d, a, b] .fp32 (fun l => laneEnc .fp32 ((V .fp32 a l).div (V .fp32 b l)))
      ∧ lanes (.vdivVsqrt i true d a b) [d, a] .fp32 (fun l => laneEnc .fp32 (V .fp32 a l).sqrt)
      ∧ (∀ mx, s.Issues (.vminVmax i mx .int32 d a b) i [] [d, a, b] t → exec (.vminVmax i mx .int32 d a b) s =
          .next (res s.draw .int32 (fun l => (if (if mx then (W a l).slt (W b l) else (W b l).slt (W a l)) then W b l else W a l).toNat)))
      ∧ (∀ mx, ty ≠ .int32 → s.Issues (.vminVmax i mx ty d a b) i [] [d, a, b] t →
          ∃ f : Nat → Nat, exec (.vminVmax i mx ty d a b) s = .next (res s.draw ty f)
            ∧ ∀ l, (((V ty a l).isZero && (V ty b l).isZero) = false → f l = laneEnc ty (FVal.pick mx (V ty a l) (V ty b l)))
              ∧ (((V ty a l).isZero && (V ty b l).isZero) = true →
                  f l = laneOf (laneBits ty) (t.ctx.rv a.toNat) l ∨ f l = laneOf (laneBits ty) (t.ctx.rv b.toNat) l)))

/-- Lane-by-lane moves: logic, shifts by B lane bits [4:0], conversions, widening, narrowing (the other half of D kept), broadcast and
selection (04 R101).

Comparisons give each enabled lane's bit of predicate D the comparison (false with a NaN) and keep the other bits; VTOS gives scalar D
the zero-extended lane when the guard enables it; VPACK and VMXSCALE pack and scale the 32 values of A and A + 1, and fault as illegal on
a format code outside their table (04 R99, R101). How the guard applies to operations that are not lane by lane is the model's reading
(notes/assumptions/17.md).

Reductions over the enabled lanes: VREDSUM of integers is the sum modulo 2^32, VREDMAX and VREDMIN of integers an enabled lane that no
other exceeds, other lanes of D 0; of FP32 some value; VARGMAX puts the lowest enabled index that holds the maximum of the lanes that are
no NaN, or 0xFFFFFFFF, in lane 0 (04 R101).

Rows that complete here: VAND_VOR_VXOR, VSHL_VSRA, VCMPEQ_VCMPLT_VCMPLE, VSEL, VREDSUM_VREDMAX_VREDMIN, VARGMAX, VBCAST, VTOS, VCVT,
VWIDEN, VNARROW, VPACK, VMXSCALE. -/
def Obligations.VectorMovesAndReductions : Prop :=
  (
    ∀ (s : State) (i : Iss) (d a b h : BitVec 5) (ty : LaneTy) (t : Th),
      let L (ty : LaneTy) (r : BitVec 5) (l : Nat) : Nat := laneOf (laneBits ty) (t.ctx.rv r.toNat) l
      let W (r : BitVec 5) (l : Nat) : Word := BitVec.ofNat 32 (laneOf 32 (t.ctx.rv r.toNat) l)
      let lanes (ins : Instr) (ss vs : List (BitVec 5)) (ty : LaneTy) (old : VReg) (f : Nat → Nat) : Prop :=
        s.Issues ins i ss vs t → exec ins s = .next (s.updCtx i.seat i.ctx (fun _ => { t.ctx with
          v := t.ctx.v.set d.toNat (maskLanes ty t.guard old f), pc := t.ctx.pc + 4 }))
      let D := t.ctx.rv d.toNat
      lanes (.vandVorVxor i .vand ty d a b) [] [d, a, b] ty D (fun l => L ty a l &&& L ty b l)
      ∧ lanes (.vandVorVxor i .vor ty d a b) [] [d, a, b] ty D (fun l => L ty a l ||| L ty b l)
      ∧ lanes (.vandVorVxor i .vxor ty d a b) [] [d, a, b] ty D (fun l => L ty a l ^^^ L ty b l)
      ∧ lanes (.vshlVsra i false d a b) [] [d, a, b] .int32 D (fun l => (W a l <<< (L .int32 b l % 32)).toNat)
      ∧ lanes (.vshlVsra i true d a b) [] [d, a, b] .int32 D (fun l => ((W a l).sshiftRight (L .int32 b l % 32)).toNat)
      ∧ lanes (.vcvt i .int32 d a) [] [d, a] .int32 D (fun l => (laneVal .fp32 (L .fp32 a l)).toInt32.toNat)
      ∧ lanes (.vcvt i .fp32 d a) [] [d, a] .int32 D (fun l => Fmt.fp32.encode (FVal.ofInt (signed 32 (L .int32 a l))))
      ∧ lanes (.vwiden i d a h) [] [d, a] .fp32 D (fun l => Fmt.fp32.encode (laneVal .bf16 (L .bf16 a (16 * h.toNat + l))))
      ∧ lanes (.vnarrow i d a h) [] [d, a] .bf16 D (fun l =>
          if l / 16 = h.toNat then Fmt.bf16.encode (laneVal .fp32 (L .fp32 a (l % 16))) else L .bf16 d l)
      ∧ lanes (.vbcast i ty d a) [a] [d] ty D (fun _ => (t.ctx.rs a.toNat).toNat % 2 ^ laneBits ty)
      ∧ lanes (.vsel i ty d a b) [] [d, a, b] ty (t.ctx.rv b.toNat) (fun l => L ty a l))
  ∧ (
    ∀ (s : State) (i : Iss) (d a b : BitVec 5) (ty : LaneTy) (t : Th),
      let V (ty : LaneTy) (r : BitVec 5) (l : Nat) : FVal := laneVal ty (laneOf (laneBits ty) (t.ctx.rv r.toNat) l)
      let put (k : Ctx) : State := s.updCtx i.seat i.ctx (fun _ => { k with pc := t.ctx.pc + 4 })
      let code := (t.ctx.rs b.toNat).toNat % 16
      (∀ op, s.Issues (.vcmpeqVcmpltVcmple i op ty d a b) i [] [a, b] t →
        ∃ P : Word, exec (.vcmpeqVcmpltVcmple i op ty d a b) s = .next (put { t.ctx with p := if d = 0 then t.ctx.p else t.ctx.p.set d.toNat P })
          ∧ ∀ l < 32, bitAt P.toNat l = if l < laneCount ty ∧ bitAt t.guard.toNat l = true then
              (match op with
                | .vcmpeq => (V ty a l).eqv (V ty b l)
                | .vcmplt => (V ty a l).lt (V ty b l)
                | .vcmple => (V ty a l).le (V ty b l)) else bitAt (t.ctx.rp d.toNat).toNat l)
      ∧ (s.Issues (.vtos i ty d a b) i [d, b] [a] t →
          let l := (t.ctx.rs b.toNat).toNat % 32
          (bitAt t.guard.toNat l = false → exec (.vtos i ty d a b) s = .next (put t.ctx))
          ∧ (bitAt t.guard.toNat l = true → l < laneCount ty → exec (.vtos i ty d a b) s = .next (put { t.ctx with
              s := if d = 0 then t.ctx.s else t.ctx.s.set d.toNat (BitVec.ofNat 64 (laneOf (laneBits ty) (t.ctx.rv a.toNat) l)) })))
      ∧ (s.Issues (.vpack i d a b) i [b] [d, a, a + 1] t →
          (packFmt code = none → exec (.vpack i d a b) s = .next (t.fault s 1 0))
          ∧ (∀ w f, packFmt code = some (w, f) → exec (.vpack i d a b) s = .next (put { t.ctx with
              v := t.ctx.v.set d.toNat (maskLanes .int32 t.guard (t.ctx.rv d.toNat)
                (laneOf 32 (BitVec.ofNat 512 (leNat (packElems w ((t.pair a).map (packEncode f))))))) })))
      ∧ (s.Issues (.vmxscale i d a b) i [b] [d, a, a + 1] t →
          (mxExp code = none → exec (.vmxscale i d a b) s = .next (t.fault s 1 0))
          ∧ (∀ e, mxExp code = some e → exec (.vmxscale i d a b) s = .next (put { t.ctx with
              v := t.ctx.v.set d.toNat (maskLanes .int32 (t.guard &&& 1) (t.ctx.rv d.toNat) (fun _ => mxScale e (t.pair a))) }))))
  ∧ (
    ∀ (s : State) (i : Iss) (d a : BitVec 5) (ty : LaneTy) (op : VRedOp) (t : Th),
      let put (s : State) (v : VReg) : State := s.updCtx i.seat i.ctx (fun _ => { t.ctx with v := t.ctx.v.set d.toNat v, pc := t.ctx.pc + 4 })
      let on := (List.range 16).filter (fun l => bitAt t.guard.toNat l)
      let L (l : Nat) : Nat := laneOf 32 (t.ctx.rv a.toNat) l
      let V (l : Nat) : FVal := laneVal ty (L l)
      (s.Issues (.vredsumVredmaxVredmin i op ty d a) i [] [d, a] t →
        ∃ r < 2 ^ 32, exec (.vredsumVredmaxVredmin i op ty d a) s = .next (put s.draw (BitVec.ofNat 512 r))
          ∧ (ty = .int32 → op = .vredsum → r = sumNat (on.map L) % 2 ^ 32)
          ∧ (ty = .int32 → op = .vredmax → on ≠ [] → (∃ l ∈ on, r = L l) ∧ ∀ l ∈ on, signed 32 (L l) ≤ signed 32 r)
          ∧ (ty = .int32 → op = .vredmin → on ≠ [] → (∃ l ∈ on, r = L l) ∧ ∀ l ∈ on, signed 32 r ≤ signed 32 (L l)))
      ∧ (s.Issues (.vargmax i ty d a) i [] [d, a] t →
          ∃ r < 2 ^ 32, exec (.vargmax i ty d a) s = .next (put s (maskLanes .int32 1 (t.ctx.rv d.toNat) (fun _ => r)))
            ∧ ((∀ l ∈ on, (V l).isNan = true) → r = 0xFFFFFFFF)
            ∧ ((∃ l ∈ on, (V l).isNan = false) → r ∈ on ∧ (V r).isNan = false
                ∧ ∀ l ∈ on, (V l).isNan = false → (V r).lt (V l) = false ∧ (l < r → (V l).lt (V r) = true))))

/-! ### Registers and settings (00 R14, 02 R57, R61, 03 R80, R89 to R91, 10 R269 to R272, 11 R300, 14 R380, R382, 16 R436, R439, 17 R461,
R462, 19 R506, R517, 21 R540, R541) -/

/-- A write of a setting register takes its fields, keeps everything else, and a value out of range changes only the error bit; before
READY, in the fold and when fatal no write has an effect (02 R57, 03 R80, R89, R91, 10 R269, R270, R272, 11 R300, 14 R380, R382, 19 R506,
R517).

Writes of the link, host-interface and security registers: LNK_CELL, LNK_KNOCK, HIF_HDM, HIF_BIAS_FLIP, SEC_DEBUG, SEC_OPKEY and
FLT_INJECT do what their rules say and leave memory and every other block as it was (15 R415, 16 R436, R439, 17 R453, R461, R462, 20 R530,
R534, R539). The new nonce is a free value (notes/assumptions/6.md).

Rows that complete here: SEAT_MODE_WRITE, AUD_CTRL_WRITE, AUD_INJECT_WRITE, SRV_CTRL_WRITE, SRV_SPEC_WRITE, SRV_T_WEIGHT_WRITE,
EMB_CTRL_WRITE, DLR_CTRL_WRITE, DLR_T_LIMIT_WRITE, FLT_INJECT_WRITE, LNK_CELL_WRITE, LNK_KNOCK_WRITE, HIF_HDM_WRITE, HIF_BIAS_FLIP_WRITE,
PWR_CAP_WRITE, SEC_DEBUG_SUBMIT, SEC_OPKEY_BURN. -/
def Obligations.SettingAndControlWrites : Prop :=
  (
    ∀ (s : State) (v : Word) (t : Nat),
      let f (hi lo : Nat) : Nat := bits v.toNat hi lo
      let b (n : Nat) : Bool := bitAt v.toNat n
      (s.up = true →
        exec (.seatModeWrite v) s = .next { s with
          steadyLoad := b 0
          seats := s.seats.map (fun x => if x.mode = .dealt then x else { x with steady := { x.steady with on := b 0 } }) }
        ∧ (f 3 0 ≤ 10 → exec (.audCtrlWrite v) s = .next { s with audCtrl := { tolErr := s.audCtrl.tolErr && !b 8, tolShift := f 3 0 } })
        ∧ (10 < f 3 0 → exec (.audCtrlWrite v) s = .next { s with audCtrl := { s.audCtrl with tolErr := true } })
        ∧ exec (.audInjectWrite v) s = .next { s with
            audInject := { arm := b 31, seat := f 28 21, row := f 20 15, col := f 14 9, bit := f 8 4 } }
        ∧ exec (.srvCtrlWrite v) s = .next { s with serving := { s.serving with
            ctrlErr := s.serving.ctrlErr && !b 31, parkLimit := f 23 8, batchWait := f 7 0 } }
        ∧ (f 3 0 ≠ 0 → exec (.srvSpecWrite v) s = .next { s with serving := { s.serving with
            specErr := s.serving.specErr && !b 31, retry := f 15 8, throttleRun := f 3 0 } })
        ∧ (f 3 0 = 0 → exec (.srvSpecWrite v) s = .next { s with serving := { s.serving with specErr := true } })
        ∧ exec (.srvTWeightWrite t v) s = .next (s.updTenant t (fun x => { x with weight := f 15 0 }))
        ∧ (12 ≤ f 4 0 → f 4 0 ≤ 24 → exec (.embCtrlWrite v) s = .next { s with embed := { s.embed with
            err := s.embed.err && !b 31, sketchShift := f 4 0 } })
        ∧ (f 4 0 < 12 ∨ 24 < f 4 0 → exec (.embCtrlWrite v) s = .next { s with embed := { s.embed with err := true } })
        ∧ (1 ≤ f 19 16 → 32 ≤ f 8 0 → f 8 0 ≤ 351 →
            exec (.dlrCtrlWrite v) s = .next { s with dlr := { err := s.dlr.err && !b 31, runTricks := f 19 16, trickKcyc := f 8 0 } })
        ∧ (f 19 16 < 1 ∨ f 8 0 < 32 ∨ 351 < f 8 0 → exec (.dlrCtrlWrite v) s = .next { s with dlr := { s.dlr with err := true } })
        ∧ (f 7 0 ≤ 160 → exec (.dlrTLimitWrite t v) s = .next (s.updTenant t (fun x => { x with seatLimit := f 7 0 })))
        ∧ (160 < f 7 0 → exec (.dlrTLimitWrite t v) s = .next s)
        ∧ (400 ≤ f 9 0 → f 9 0 ≤ s.variant.maxWatts → exec (.pwrCapWrite v) s = .next { s with power := { s.power with
            capErr := s.power.capErr && !b 31, capW := f 9 0 } })
        ∧ (f 9 0 < 400 ∨ s.variant.maxWatts < f 9 0 → exec (.pwrCapWrite v) s = .next { s with power := { s.power with capErr := true } }))
      ∧ (s.up = false → ∀ c ∈ [Instr.seatModeWrite v, .audCtrlWrite v, .audInjectWrite v, .srvCtrlWrite v, .srvSpecWrite v,
            .srvTWeightWrite t v, .embCtrlWrite v, .dlrCtrlWrite v, .dlrTLimitWrite t v, .pwrCapWrite v, .hifHdmWrite v, .hifBiasFlipWrite v,
            .lnkCellWrite v, .lnkKnockWrite v, .secDebugSubmit v, .secOpkeyBurn v, .cmdAdminCtrlWrite v, .fltInjectWrite v],
          exec c s = .next s))
  ∧ (
    ∀ (s : State) (v : Word), s.up = true →
      let f (hi lo : Nat) : Nat := bits v.toNat hi lo
      let b (n : Nat) : Bool := bitAt v.toNat n
      let cell := { s.cell with err := s.cell.err && !b 31, enable := b 24, member := BitVec.ofNat 6 (f 21 16), cellId := BitVec.ofNat 16 v.toNat }
      (s.variant.links < f 21 16 → exec (.lnkCellWrite v) s = .next { s with cell := { s.cell with err := true } })
      ∧ (f 21 16 ≤ s.variant.links → s.cell.actEnable = b 24 → exec (.lnkCellWrite v) s = .next { s with cell := cell })
      ∧ (f 21 16 ≤ s.variant.links → s.cell.actEnable = false → b 24 = true → ∃ u, exec (.lnkCellWrite v) s = .next u
          ∧ u.cell = { cell with actEnable := true, actMember := cell.member, actCellId := cell.cellId, isolated := false, lostMembers := []
                                 members := BitVec.ofNat 64 (2 ^ cell.member.toNat) }
          ∧ u = { s with cell := u.cell, out := u.out, cxl := u.cxl })
      ∧ (f 21 16 ≤ s.variant.links → s.cell.actEnable = true → b 24 = false → ∃ u, exec (.lnkCellWrite v) s = .next u
          ∧ u.cell.actEnable = false ∧ u.cell.isolated = false ∧ u.cell.members = BitVec.ofNat 64 (2 ^ s.me)
          ∧ (s.embed.waiting = [] → s.embed.tables = [] → u.mem = s.mem))
      ∧ (b 31 = true → f 5 0 ≤ 35 → (s.link (f 5 0)).mode ≠ .notFitted → (s.link (f 5 0)).live = false →
          exec (.lnkKnockWrite v) s = .next { s with
            cell := { s.cell with knockErr := s.cell.knockErr && !b 30 }, out := s.out ++ [.knock (f 5 0)] })
      ∧ (b 31 = true → (35 < f 5 0 ∨ (s.link (f 5 0)).mode = .notFitted ∨ (s.link (f 5 0)).live = true) →
          exec (.lnkKnockWrite v) s = .next { s with cell := { s.cell with knockErr := true } })
      ∧ (s.cxl.mode ≠ .pcie →
          (f 8 0 ≤ 256 → exec (.hifHdmWrite v) s = .next { s with cxl := { s.cxl with err := s.cxl.err && !b 31, sizeGib := f 8 0 } })
          ∧ (256 < f 8 0 → exec (.hifHdmWrite v) s = .next { s with cxl := { s.cxl with err := true } })
          ∧ (b 31 = true → s.cxl.flip = none → f 16 0 < 512 * s.cxl.activeGib →
              exec (.hifBiasFlipWrite v) s = .next { s with cxl := { s.cxl with flip := some (f 16 0, b 30) } })
          ∧ (b 31 = true → (s.cxl.flip ≠ none ∨ 512 * s.cxl.activeGib ≤ f 16 0) →
              exec (.hifBiasFlipWrite v) s = .next { s with cxl := { s.cxl with flipErr := true } }))
      ∧ (s.cxl.mode = .pcie → exec (.hifHdmWrite v) s = .next s ∧ exec (.hifBiasFlipWrite v) s = .next s)
      ∧ (b 31 = true → s.sec.failures < 16 → s.sec.tokenOk = true → ∃ n : Addr, exec (.secDebugSubmit v) s = .next { s with
          fresh := s.fresh + 1
          sec := { s.sec with debugErr := s.sec.debugErr && !b 30, nonce := n, erasing := true
                              scope := BitVec.ofNat 2 (fieldOf s.sec.token 0x10 4) } })
      ∧ (b 31 = true → s.sec.failures < 16 → s.sec.tokenOk = false → ∃ n : Addr, exec (.secDebugSubmit v) s = .next { s.bump 0x00120020 with
          fresh := s.fresh + 1, sec := { s.sec with nonce := n, debugErr := true, failures := s.sec.failures + 1 } })
      ∧ (16 ≤ s.sec.failures → exec (.secDebugSubmit v) s = .next { s with sec := { s.sec with debugErr := s.sec.debugErr && !b 30 } })
      ∧ (b 31 = true → s.sec.opkeyFused = false → exec (.secOpkeyBurn v) s = .next { s with sec := { s.sec with
          opkeyFused := true, opkeyHash := s.sec.opkeyReg, staged := false } })
      ∧ (b 31 = false ∨ s.sec.opkeyFused = true → exec (.secOpkeyBurn v) s = .next s)
      ∧ (s.sec.debugUnlocked = true → s.sec.scope.getLsbD 0 = true → (b 31 = false ∨ 4 < f 30 28 ∨ f 30 28 = 0) →
          exec (.fltInjectWrite v) s = .next { s with flt := { s.flt with
            injArm := false, injKind := BitVec.ofNat 3 (f 30 28), injTarget := BitVec.ofNat 12 (f 27 16) } })
      ∧ (s.sec.debugUnlocked = false ∨ s.sec.scope.getLsbD 0 = false → exec (.fltInjectWrite v) s = .next s))

/-- REGISTER_WRITE: an aligned 4-byte write of a running module does what the register's own rule says; a write of another width or
alignment, past the window, of a reserved offset, or before READY changes nothing; an aligned 8-byte write is its two halves, low first
(00 R14, 19 R506, 21 R540, R541).

Rows that complete here: REGISTER_WRITE. -/
def Obligations.RegisterWrites : Prop :=
  ∀ (s : State) (v : Addr), s.up = true →
    let w : Word := BitVec.ofNat 32 v.toNat
    let wr (off : Nat) : Host.Outcome State Fault Refusal := exec (.registerWrite off 4 v) s
    let f (hi lo : Nat) : Nat := bits w.toNat hi lo
    wr 0x10000 = exec (.pwrCapWrite w) s ∧ wr 0x20000 = exec (.cmdAdminCtrlWrite w) s ∧ wr 0x30000 = exec (.dlrCtrlWrite w) s
    ∧ (∀ t < 64, wr (0x31000 + 4 * t) = exec (.dlrTLimitWrite t w) s ∧ wr (0xB1000 + 4 * t) = exec (.srvTWeightWrite t w) s)
    ∧ wr 0x5F000 = exec (.seatModeWrite w) s ∧ wr 0x60000 = exec (.audCtrlWrite w) s ∧ wr 0x60008 = exec (.audInjectWrite w) s
    ∧ wr 0xB0000 = exec (.srvCtrlWrite w) s ∧ wr 0xB0004 = exec (.srvSpecWrite w) s ∧ wr 0xC0000 = exec (.embCtrlWrite w) s
    ∧ wr 0xF000C = exec (.fltInjectWrite w) s ∧ wr 0x100000 = exec (.lnkCellWrite w) s ∧ wr 0x100018 = exec (.lnkKnockWrite w) s
    ∧ wr 0x110004 = exec (.hifHdmWrite w) s ∧ wr 0x110008 = exec (.hifBiasFlipWrite w) s ∧ wr 0x12000C = exec (.secDebugSubmit w) s
    ∧ wr 0x120024 = exec (.secOpkeyBurn w) s
    ∧ wr 0x60004 = .next (if bitAt w.toNat 31 then { s with audLast := { s.audLast with valid := false } } else s)
    ∧ (s.variant ≠ .v9706 → s.flt.sLost = false → f 23 13 ≤ 2000 → 1 ≤ f 12 0 → f 12 0 ≤ 4096 → wr 0x70000 = .next { s with
        search := { s.search with err := s.search.err && !bitAt w.toNat 31, window := f 23 13, batchMax := f 12 0 } })
    ∧ (50 ≤ f 30 24 → f 30 24 ≤ 95 → 10 ≤ f 22 16 → f 22 16 + 10 ≤ f 30 24 → 1 ≤ f 15 4 → 1 ≤ f 3 0 → f 3 0 ≤ 8 →
        wr 0xE0004 = .next { s with flash := { s.flash with ctrlErr := s.flash.ctrlErr && !bitAt w.toNat 31, foldHigh := f 30 24
                                                            foldLow := f 22 16, hotVisits := f 15 4, bgShare := f 3 0 } })
    ∧ (1 ≤ f 27 24 → 8 ≤ f 23 16 → 1 ≤ f 15 0 → wr 0xE0008 = .next { s with flash := { s.flash with
        patErr := s.flash.patErr && !bitAt w.toNat 31, patBlocks := f 27 24, relocBits := f 23 16, aonStep := f 15 0 } })
    ∧ wr 0xF0004 = .next { s with flt := { s.flt with sticky := w.extractLsb' 0 8 } }
    ∧ (∀ vec < 2048, bitAt w.toNat 0 = true → wr (0x118000 + 16 * vec + 12) = .next { s with cxl := { s.cxl with
        unmasked := s.cxl.unmasked.filter (fun x => x ≠ vec) } })
    ∧ (∀ off, off / 0x10000 ∈ [0, 4, 8, 9, 10, 13, 19, 20] → off % 4 = 0 → wr off = .next s)
    ∧ (∀ off width, (width ≠ 4 ∧ width ≠ 8) ∨ off % 4 ≠ 0 ∨ 2 ^ 26 ≤ off → exec (.registerWrite off width v) s = .next s)
    ∧ (∀ off t, off % 8 = 0 → off < 2 ^ 26 → exec (.registerWrite off 4 v) s = .next t → t.up = true →
        exec (.registerWrite off 8 v) s = exec (.registerWrite (off + 4) 4 (BitVec.ofNat 64 (v.toNat / 2 ^ 32))) t)

/-- COUNTER_LO_READ completes: reading the low word of a 64-bit pair shows its low half and keeps the high half, which the next read of the
high word returns whatever the counter does meanwhile; any other register is read as it stands, and without power nothing answers (02 R61).

What the status registers of each block show (00 R7, 03 R90, 13 R356, 14 R380, 15 R412, 16 R438, 17 R461, 18 R465, 19 R517, R518, 20
R538, 21 R547, 23 R571).

Rows that complete here: COUNTER_LO_READ. -/
def Obligations.RegisterReads : Prop :=
  (
    ∀ (s : State) (off : Nat),
      (s.powered 79 = false → exec (.counterLoRead off) s = .next s)
      ∧ (s.powered 79 = true → s.pair off = none → exec (.counterLoRead off) s = .next { s with out := s.out ++ [.reg off (s.reg false off)] })
      ∧ (∀ v, s.powered 79 = true → s.power.ready = true → off < 2 ^ 26 → off % 4 = 0 → s.pair off = some v →
        let u := { s with out := s.out ++ [.reg off (BitVec.ofNat 32 v)], latch := sparsePut 0 (off + 4) (v / 2 ^ 32) s.latch }
        exec (.counterLoRead off) s = .next u
        ∧ (sparseWf 0 0 s.latch = true → ∀ ctr, { u with ctr := ctr }.reg false (off + 4) = BitVec.ofNat 32 (v / 2 ^ 32))))
  ∧ (
    ∀ (s : State), s.power.ready = true →
      let r (off : Nat) (n : Nat) : Prop := s.reg false off = BitVec.ofNat 32 n
      let b (x : Bool) (n : Nat) : Nat := if x then 2 ^ n else 0
      r 0x18 (2 ^ 8 + s.power.step)
      ∧ r 0x10000 (b s.power.capErr 31 + 2 ^ 16 * s.power.activeW + s.power.capW)
      ∧ r 0x20000 (b s.admin.enable 31 + b s.admin.active 30 + b s.admin.err 29 + 2 ^ 24 * s.admin.entriesLog2.toNat + s.admin.pasid.toNat)
      ∧ r 0x30000 (b s.dlr.err 31 + 2 ^ 16 * s.dlr.runTricks + s.dlr.trickKcyc)
      ∧ r 0x60000 (b s.audCtrl.tolErr 8 + s.audCtrl.tolShift)
      ∧ r 0x60004 (b s.audLast.valid 31 + 2 ^ 28 * s.audLast.kind + 2 ^ 20 * s.audLast.unit + 2 ^ 14 * s.audLast.row + 2 ^ 8 * s.audLast.col)
      ∧ (s.variant ≠ .v9706 → r 0x70000 (b s.search.err 31 + 2 ^ 13 * s.search.window + s.search.batchMax))
      ∧ r 0xB0000 (b s.serving.ctrlErr 31 + 2 ^ 8 * s.serving.parkLimit + s.serving.batchWait)
      ∧ r 0xC0000 (b s.embed.err 31 + s.embed.sketchShift)
      ∧ r 0xE0008 (b s.flash.patErr 31 + 2 ^ 24 * s.flash.patBlocks + 2 ^ 16 * s.flash.relocBits + s.flash.aonStep)
      ∧ r 0xF0004 s.flt.sticky.toNat
      ∧ (s.cxl.mode ≠ .pcie → r 0x110004 (b s.cxl.err 31 + b s.cxl.short 30 + 2 ^ 16 * s.cxl.activeGib + s.cxl.sizeGib))
      ∧ r 0x120000 (b s.sec.debugUnlocked 31 + b s.sec.erasing 30 + b s.sec.opkeyFused 29 + 2 ^ 16 * s.sec.svnFuse + b s.sec.probation 9
          + b s.sec.staged 8 + b s.sec.activeSlot 0)
      ∧ (s.dump.valid = true → r 0x130000 (2 ^ 8 * s.dump.cause + b s.dump.reduced 1 + 1))
      ∧ (∀ g, s.variant.seatFitted g = true → g < 176 → r (0x40004 + 0x100 * g)
          (2 ^ 16 * (if (s.seat g).mode = .quarantined then 3 else min 3 (s.seat g).strikes.length) + (if (s.seat g).mode = .dealt then 2 ^ 8 * (s.seat g).hand else 0)
            + (match (s.seat g).mode with | .dark => 0 | .idle => 1 | .dealt => 2 | .quarantined => 3))))

/-! ### Search (05) -/

/-- SRCH_QUERY takes in one query per vector, each with the snapshot the command took at intake, and waits for them; SEARCH PROBE takes in
one query with the lists the kernel chose, and under WIDEN the later ranks of the coarse ranking (05 R131, R143, R147, R148, R155, 18 R485;
that the kernel's lists stand for the first ranks is the model's choice, notes/assumptions/18.md).

Rows that complete here: SRCH_QUERY, SEARCH_PROBE. -/
def Obligations.SearchAdmission : Prop :=
  ∀ (s : State) (x : Collection),
    (∀ (h : Nat) (c : Cmd) (vk rk : Nat) (filter : List Byte), s.cmdAt h 0x0401 0 = some c → c.legacyOp = none →
      let t := c.tenant
      let fl := c.field 0x16 2
      let n := c.field 0x1B 1
      let k := c.field 0x14 2
      let hand := if bitAt fl 1 || s.seatSearch then some (c.field 0x1A 1) else none
      s.collFor t h (c.field 0x10 2) = some x → bitAt fl 2 = false → bits fl 4 3 = 0 → c.field 0x1C 4 = 0 → c.field 0x30 8 = 0 →
      1 ≤ n → n ≤ 64 → s.resolve t (c.field 0x20 8) (4 * x.desc.dim * n) 4 = some vk →
      s.resolve t (c.field 0x38 8) (resultSize k * n) 8 = some rk → s.filterFor t (c.field 0x28 8) = .inl filter →
      s.searchTrouble x k (c.field 0x12 2) (c.field 0x18 2) (bitAt fl 1) = none →
      (hand.isSome = true → (s.handFor t h (c.field 0x1A 1)).isSome = true ∧ s.noSeats = false) →
      s.poisoned vk (4 * x.desc.dim * n) = false →
      ∃ u, exec (.srchQuery h) s = .next u ∧ u = { s with search := u.search, cmds := u.cmds, ctr := u.ctr, fresh := u.fresh }
        ∧ u.cmds = updWhere (fun y => y.handle == h) (fun y => { y with stage := 1 }) s.cmds
        ∧ u.search.queries = s.search.queries ++ (List.range n).map (fun i =>
            newQuery { cmd := h, idx := i } t x (s.words (vk + 4 * x.desc.dim * i) x.desc.dim) filter k (c.field 0x12 2) (c.field 0x18 2)
              (bitAt fl 0) (bitAt fl 1 && decide (x.desc.kRefine ≠ 0)) c.snapshot hand))
    ∧ (∀ (k : IssueKey) (u : UnitIssue), s.AtUnit k 1 1 u → s.seatSearch = false →
      let b := u.body
      let n := fieldOf b 2 2
      let kk := fieldOf b 4 2
      let refine := bitAt (fieldOf b 6 2) 1 && decide (x.desc.kRefine ≠ 0)
      let slots := if refine then x.desc.kRefine else kk
      let size := if refine then roundUp (32 + 16 * slots) 64 + slots * roundUp x.desc.dim 64 else 32 + 16 * slots
      let lists := (List.range n).map (fun i => fieldOf (s.rdTva u.tenant u.stock (fieldOf b 0x10 8) (4 * n)) (4 * i) 4)
      let vb := s.rdTva u.tenant u.stock (fieldOf b 8 8) (4 * x.desc.dim)
      let vec : List Word := (List.range x.desc.dim).map (fun i => BitVec.ofNat 32 (fieldOf vb (4 * i) 4))
      s.colls.find? (fun y => y.number == fieldOf b 0 2 && y.tenant == u.tenant
        && (match y.evicting with | none => true | some e => e.issues.contains k)) = some x →
      1 ≤ n → fieldOf b 6 2 ≤ 3 → bodyTailZero u 0x28 = true → s.searchTrouble x kk n 0 (bitAt (fieldOf b 6 2) 1) = none →
      fieldOf b 0x18 8 = 0 → s.unitCheck u .load (fieldOf b 8 8) (4 * x.desc.dim) 4 = .ok →
      s.unitCheck u .load (fieldOf b 0x10 8) (4 * n) 4 = .ok → s.unitCheck u .store (fieldOf b 0x20 8) size 8 = .ok →
      (∀ l ∈ lists, l < x.desc.lists) →
      (bitAt (fieldOf b 6 2) 0 = true → s.objectCheck (.issue k) x.tenant x.va.toNat x.image.length = .ok) →
      ∀ v, x.desc.prepare s.fresh (vec.map ofF32) = some v →
      ∃ t, exec (.searchProbe k) s = .next t ∧ t = { s with search := t.search, issues := t.issues, ctr := t.ctr, fresh := t.fresh }
        ∧ ∃ q, t.search.queries = s.search.queries ++ [q] ∧ q.issue = some k ∧ q.probes = lists ∧ q.vec = v.map toF32
          ∧ q.ranking = lists ++ (if bitAt (fieldOf b 6 2) 0 then
              ((x.coarse s.fresh x.desc.nprobeMax v).drop n).filter (fun l => !lists.contains l) else [])
          ∧ q.snapshot = x.published ∧ q.stage = 1 ∧ q.k = kk)

/-- A coarse search gives its query the ranking of 05 R131 and the first NPROBE lists of it; a probe set joins the collecting batch, which
closes at once when full or under WINDOW 0, and waits while four batches are closed; a batch closes at its window (05 R131, R132, R141). The
order of the sums in the ranking is a free value (notes/assumptions/18.md). A coarse search waits while its hand holds no seat or the
collection's centroids are not in T1, and a line of them that no copy restores ends its query with ABORTED_FAULT (01 R20, R22, 12 R308).

The oldest closed batch starts scoring: its number is taken, its lists' visits rise, and no entry, query vector or byte changes; an
exact batch starts only when no ordinary batch is closed; every 65,536 batches VISITS are halved; a rebalance after 4,096 batches moves
lists between places and loses no entry (05 R137, R139, R142, R158).

Rows that complete here: COARSE_SEARCH, PROBE_SET_ARRIVE, BATCH_CLOSE, BATCH_START_SCORING, REBALANCE, VISITS_HALVE, EXACT_BATCH_START. -/
def Obligations.SearchBatches : Prop :=
  (
    ∀ (s : State) (q : QueryKey) (x : Query) (c : Collection), s.query? q = some x → s.coll? x.coll = some c →
      (x.stage = 0 →
        (s.collCheck x c = .wait → exec (.coarseSearch q) s = .next s)
        ∧ (s.collCheck x c = .ok → s.queryHand x = false → exec (.coarseSearch q) s = .next s)
        ∧ (s.collCheck x c = .poison → exec (.coarseSearch q) s = .next (s.finishQuery q St.aborted))
        ∧ (s.collCheck x c = .ok → s.queryHand x = true → ∀ v, c.desc.prepare s.fresh x.values = some v →
          let r := c.coarse s.fresh c.desc.nprobeMax v
          exec (.coarseSearch q) s = .next { s with
            fresh := s.fresh + 1
            search := { s.search with queries := updWhere (fun y => y.key == q) (fun y => { y with
              vec := v.map toF32, ranking := r, probes := r.take x.nprobe, probed := (r.take x.nprobe).length, stage := 1 }) s.search.queries } }))
      ∧ (x.stage = 1 → q ∉ s.search.stalled → s.seatSearch = false →
          let b := s.search.collecting.getD { queries := [], window := s.search.window, batchMax := s.search.batchMax }
          let b' : Batch := { b with queries := b.queries ++ [q] }
          let joined := updWhere (fun y => y.key == q) (fun y => { y with stage := 2 }) s.search.queries
          (4 ≤ s.search.closed.length → exec (.probeSetArrive q) s =
            .next { s.bump 0x00070030 with search := { s.search with stalled := s.search.stalled ++ [q] } })
          ∧ (s.search.closed.length < 4 → b.window ≠ 0 → b'.queries.length < b.batchMax → exec (.probeSetArrive q) s =
            .next { s with search := { s.search with queries := joined, collecting := some b' } })
          ∧ (s.search.closed.length < 4 → (b.window = 0 ∨ b.batchMax ≤ b'.queries.length) → exec (.probeSetArrive q) s =
            .next { s.bump64 0x00070010 1 with search := { s.search with
              queries := joined, collecting := none, closed := s.search.closed ++ [b'], batches := s.search.batches + 1 } }))
      ∧ (∀ b, s.search.collecting = some b → exec (.batchClose .window) s = .next { s.bump64 0x00070010 1 with
          search := { s.search with collecting := none, closed := s.search.closed ++ [b], batches := s.search.batches + 1 } }))
  ∧ (
    ∀ (s : State),
      let segs (s : State) (c l : Nat) : Option (List Segment) := (s.coll? c).map (fun x => (x.llist l).segs)
      let sound := (s.colls.map (fun x => x.number)).Nodup ∧ ∀ x ∈ s.colls, (x.lists.map (fun y => y.number)).Nodup
      (∀ b rest e, s.search.closed = b :: rest → s.search.stalled = [] → s.seatSearch = false → e ∈ s.search.engines → e.mode = .active →
          (∀ w ∈ e.work, w.exact = true) → sound →
          ∃ u, exec .batchStartScoring s = .next u ∧ u = { s with search := u.search, colls := u.colls, ctr := u.ctr }
            ∧ u.search.closed = rest ∧ u.search.nextBatch = s.search.nextBatch + 1 ∧ u.search.queries = s.search.queries
            ∧ ∀ c l, segs u c l = segs s c l)
      ∧ (s.search.exactWaiting ≠ [] → s.search.closed = [] → s.seatSearch = false → sound →
          (∀ k ∈ s.search.exactWaiting, ∃ q, s.query? k = some q ∧ q.full = false) →
          ∃ u, exec .exactBatchStart s = .next u ∧ u = { s with search := u.search, colls := u.colls, ctr := u.ctr }
            ∧ u.search.exactWaiting = [] ∧ u.search.nextBatch = s.search.nextBatch + 1
            ∧ (∀ q ∈ u.search.queries, q.key ∈ s.search.exactWaiting → q.stage = 2) ∧ ∀ c l, segs u c l = segs s c l)
      ∧ (s.search.lastHalve + 65536 ≤ s.search.batches → exec .visitsHalve s = .next { s with
          search := { s.search with lastHalve := s.search.batches }
          colls := s.colls.map (fun x => { x with lists := x.lists.map (fun y => { y with visits := y.visits / 2 }) }) })
      ∧ (s.search.batches < s.search.lastHalve + 65536 → exec .visitsHalve s = .next s)
      ∧ (s.seatSearch = false → s.search.lastRebalance + 4096 ≤ s.search.batches → sound →
          ∃ u, exec .rebalance s = .next u ∧ SameOutsideT1 s u ∧ u.cmds = s.cmds ∧ u.seats = s.seats ∧ u.hands = s.hands
            ∧ u.search = { s.search with lastRebalance := s.search.batches, oldCopies := u.search.oldCopies }
            ∧ ∀ c l, segs u c l = segs s c l))

/-- A pass that the shadow lanes confirm leaves the engine's work, counts, and scores the pass's list for its queries; one whose repeats
fail on both engines ends its queries with ABORTED_FAULT; a far segment that arrives is scored once; when FAR_LIMIT passes the query goes
on without its missing lists (05 R139, R140, R144, R145, 03 R86, R87).

The merge of a query's partial lists keeps the best of them without duplicates; a query that refines then waits for its full vectors,
and one that does not is final; refinement keeps the best k by exact distance and makes the query final. While other queries of the command
are not final, nothing else happens (05 R146, R147, R148, 06 R171, R173). A scanner takes segments of an earlier batch first, and of exact
scans last, 16 queries to a pass; a pass waits while its list is not in T1, and refinement while its hand holds no seat (05 R142, R144, R158,
01 R20, R22).

Rows that complete here: PROBE_PASS, FAR_SEGMENT_SCORE, FAR_LIMIT_EXPIRE, SEARCH_MERGE, REFINE. -/
def Obligations.PassesMergesAndRefine : Prop :=
  (
    ∀ (s : State), s.Inv →
      (∀ (n : Nat) (e : Engine) (p : Pass), s.search.engines[n]? = some e → e.mode = .active → s.powered (48 + n) = true →
        s.flt.sLost = false → e.next = some p → s.variant ≠ .v9706 → n < 18 → ∀ x, s.coll? p.coll = some x →
        (∀ q ∈ s.search.queries, q.key ∈ p.queries → s.listFate q x (x.llist p.list) = none) →
        (s.listAbsent x (x.llist p.list) = true → exec (.probePass n .agree 0) s = .next s)
        ∧ (s.listAbsent x (x.llist p.list) = false → ∃ u, exec (.probePass n .agree 0) s = .next u
          ∧ (s.search.oldCopies = [] → u = { s with search := u.search, ctr := u.ctr, fresh := u.fresh })
          ∧ (∃ e', u.search.engines[n]? = some e' ∧ e'.work = e.work.erase p ∧ e'.passes = e.passes + 1)
          ∧ u.counter 0x00070018 = min (s.counter 0x00070018 + 1) (2 ^ 64 - 1)
          ∧ (∀ q ∈ s.search.queries, q.key ∉ p.queries → ∃ q' ∈ u.search.queries, q' = { q with unsent := q'.unsent })
          ∧ u.search.queries.map (fun q => q.key) = s.search.queries.map (fun q => q.key)))
      ∧ (∀ (c l g : Nat) (j : FarJob), s.search.farWork.find? (fun j => j.coll == c && j.list == l && j.seg == g) = some j →
        (s.farTurn j = false → exec (.farSegmentScore c l g .hard []) s = .next s)
        ∧ (s.farTurn j = true → s.flt.sLost = false → s.unitOut 8 = false → s.farLost j = [] → s.variant ≠ .v9706 → c < 64 →
        ∃ u, exec (.farSegmentScore c l g .hard []) s = .next u
          ∧ (s.search.oldCopies = [] → u = { s with search := u.search, ctr := u.ctr, fresh := u.fresh })
          ∧ u.search.farWork = s.search.farWork.erase j
          ∧ u.search.scanPasses = s.search.scanPasses.modify j.channel (· + (chunks 16 (j.queries.length + 1) j.queries).length)
          ∧ u.counter 0x00070028 = min (s.counter 0x00070028 + 1) (2 ^ 64 - 1)
          ∧ (∀ q ∈ s.search.queries, q.key ∉ j.queries → q ∈ u.search.queries)
          ∧ u.search.queries.map (fun q => q.key) = s.search.queries.map (fun q => q.key)))
      ∧ (∀ (k : QueryKey) (q : Query) (c : Collection), s.query? k = some q → s.coll? q.coll = some c → c.desc.farLimit ≠ 0 → q.stage = 2 →
        let jobs := s.search.farWork.filter (fun j => j.queries.contains k)
        let lists := dedup (jobs.map (fun j => (j.batch, j.coll, j.list)))
        jobs ≠ [] → ∃ u, exec (.farLimitExpire k) s = .next u ∧ u = { s with search := u.search, ctr := u.ctr }
          ∧ (∀ j ∈ u.search.farWork, k ∉ j.queries) ∧ u.search.farWork.length = s.search.farWork.length
          ∧ u.query? k = some { q with farLate := q.farLate + lists.length, late := true }))
  ∧ (
    ∀ (s : State) (k : QueryKey) (q : Query) (c : Collection), s.query? k = some q → s.coll? q.coll = some c → q.issue = none →
      (∃ y ∈ s.search.queries, y.key.cmd = k.cmd ∧ y.key ≠ k ∧ y.issue = none ∧ y.stage ≠ 5) → (∃ d, s.cmd? k.cmd = some d ∧ d.opcode = 0x0401) →
      let keep := q.keep c.desc
      let m := mergeAll 0 c.desc.largest true keep q.partials.length (q.partials.map (fun p => p.2))
      (q.stage = 2 → s.scoringLeft k = false → s.inBatch k = false → q.exact = false → q.widen = false → s.seatSearch = false →
        ∃ u, exec (.searchMerge k []) s = .next u ∧ u = { s with search := u.search, ctr := u.ctr }
          ∧ ∃ q', u.query? k = some q' ∧ q'.merged = m.1.entries ∧ q'.stage = if q.refine then 4 else 5)
      ∧ (q.stage = 4 → s.queryHand q = false → exec (.refine k) s = .next s)
      ∧ (q.stage = 4 → s.queryHand q = true →
        let items := q.merged.filterMap (fun e => (c.item? e.item).map (fun it => (e, it)))
        (c.desc.vecT1 = true ∨ (s.unitOut 8 = false ∧ ∀ i ∈ items, s.mediaLost (i.2.owns c.number true) = false)) →
        let r := c.exactBest q s.fresh (items.map (fun i => (i.1.index, i.1.source, i.1.item, i.2.vec))) true
        ∃ u, exec (.refine k) s = .next u ∧ u = { s with search := u.search, ctr := u.ctr, fresh := u.fresh }
          ∧ u.query? k = some { q with merged := r.entries, tiesLeft := r.ties, unsent := [], stage := 5, status := 0 }))

/-- SRCH_INSERT takes the collection's next epoch and adds the items it accepts; SRCH_DELETE takes one and is complete when its tombstones
are written; the next epoch is published when all of it is written, and only then does its command complete; of memory only T1 changes (05
R149 to R154). An insert waits while the collection's centroids are not in T1 (01 R22).

Rows that complete here: SRCH_INSERT, MARK_WAIT_RELEASE, EPOCH_PUBLISH, SRCH_DELETE. -/
def Obligations.InsertDeletePublish : Prop :=
  ∀ (s : State) (x : Collection),
    (∀ (h : Nat) (c : Cmd) (key fin : Nat) (offs : List Nat), s.cmdAt h 0x0402 0 = some c → c.legacyOp = none → s.epochBlocked c = false →
      let n := c.field 0x14 4
      let bytes := c.field 0x28 8
      s.collFor c.tenant h (c.field 0x10 2) = some x → s.coll? x.number = some x → 1 ≤ n → n ≤ 65536 →
      (s.handFor c.tenant h (c.field 0x12 1)).isSome = true → c.field 0x18 4 = 0xFFFFFFFF →
      s.resolve c.tenant (c.field 0x20 8) bytes 64 = some key → recordOffsets (s.rd key bytes) x.desc.dim n 0 = some (offs, fin) →
      bytes ≤ roundUp fin 64 → s.noSeats = false → s.poisoned key bytes = false →
      (s.objectCheck (.cmd h) x.tenant x.va.toNat x.image.length = .wait → exec (.srchInsert h) s = .next s)
      ∧ (s.objectCheck (.cmd h) x.tenant x.va.toNat x.image.length = .ok →
      ∃ u y, exec (.srchInsert h) s = .next u ∧ u.coll? x.number = some y ∧ y.nextEpoch = x.nextEpoch + 1 ∧ y.published = x.published
        ∧ SameOutsideT1 s u ∧ (∃ e ∈ y.epochs, e.number = x.nextEpoch ∧ e.cmd = h)
        ∧ ∃ new, y.items = x.items ++ new ∧ ∀ i ∈ new, i.epoch = x.nextEpoch))
    ∧ (∀ (h : Nat) (c : Cmd) (key : Nat), s.cmd? h = some c → c.opcode = 0x0403 → c.stage = 0 → c.legacyOp = none →
      s.epochBlocked c = false →
      let n := c.field 0x14 4
      s.collFor c.tenant h (c.field 0x10 2) = some x → s.coll? x.number = some x → 1 ≤ n → n ≤ 65536 →
      s.resolve c.tenant (c.field 0x20 8) (8 * n) 8 = some key → s.poisoned key (8 * n) = false → x.appends = [] →
      (∀ e ∈ x.epochs, e.cmd ≠ h) →
      ∃ u y, exec (.srchDelete h) s = .next u ∧ u.coll? x.number = some y ∧ y.nextEpoch = x.nextEpoch + 1 ∧ y.published = x.published
        ∧ (x.compactCmds = [] → SameOutsideT1 s u)
        ∧ ({ number := x.nextEpoch, cmd := h, written := true, count := n, status := 0 } : Epoch) ∈ y.epochs)
    ∧ (∀ (n : Nat) (e : Epoch), s.coll? n = some x → x.epochs.find? (fun e => e.number == x.published + 1 && e.written) = some e →
      exec (.epochPublish n) s = .next ((((s.updColl n (fun x => { x with
          published := e.number, epochs := x.epochs.filter (fun y => y.number ≠ e.number) })).updFlash
            (fun f => f.record 2 n e.number)).complete e.cmd e.status e.count e.number 0).backgroundCompact n))
    ∧ (∀ n, s.coll? n = some x → x.epochs.find? (fun e => e.number == x.published + 1 && e.written) = none →
      exec (.epochPublish n) s = .next s)
    ∧ (∀ (n l : Nat) (a : Append) (z : LList), s.coll? n = some x → x.appends.find? (fun a => a.list == l) = some a →
      (x.llist l).place1 x.desc.segCap (s.oldestSnapshot x) a.epoch a.entry = some z →
      let w : Collection := { x.putList z with appends := x.appends.erase a }
      let q := s.tenant x.tenant
      q.t1.fits (w.t1Lists - x.t1Lists) = true → q.t2.used + 65792 * (changedSegs x w).length ≤ q.t2.limit * 65536 → s.mediaRefuses = false → s.flash.stopped = false →
      (∃ e ∈ x.epochs, e.number = a.epoch ∧ ∀ e' ∈ x.epochs, e'.cmd = e.cmd ∨ e'.number = e.number → e' = e) →
      ∃ u y, exec (.markWaitRelease n l) s = .next u ∧ u.coll? n = some y ∧ y.appends.length < x.appends.length
        ∧ y.published = x.published ∧ SameOutsideT1 s u)

/-- SRCH_COMPACT completes at once when no list has an entry that no query can see, and joins a compaction that runs; a list whose rewritten
copy is complete loses exactly the entries that the oldest snapshot cannot see, or, where the copy no longer fits or the media refuse it,
stays as it is, which is counted; every other list keeps what it holds, and of memory only T1 changes (05 R156).

Rows that complete here: SRCH_COMPACT, COMPACTION_DONE. -/
def Obligations.CompactionRemovesTheInvisible : Prop :=
  ∀ (s : State) (x : Collection),
    (∀ (h : Nat) (c : Cmd), s.cmdAt h 0x0404 0 = some c → s.collFor c.tenant h (c.field 0x10 2) = some x → s.coll? x.number = some x →
      (x.compactCmds ≠ [] → exec (.srchCompact h) s = .next ((s.updCmd h (fun c => { c with stage := 1 })).updColl x.number (fun x =>
          { x with compactCmds := x.compactCmds ++ [h] })))
      ∧ (x.compactCmds = [] → (∀ y ∈ x.lists, y.removable (s.oldestSnapshot x) = false) →
          ∃ u : State, exec (.srchCompact h) s = .next (u.complete h 0 0 0 0)
            ∧ u = { s with cmds := u.cmds, colls := u.colls } ∧ (∃ d, u.cmd? h = some d ∧ d = { c with stage := 1 })
            ∧ ∃ y, u.coll? x.number = some y ∧ y.lists = x.lists ∧ y.items = x.items))
    ∧ (∀ (n l : Nat), s.coll? n = some x → x.number = n → (x.lists.map (fun y => y.number)).Nodup → ((x.llist l).rewriting.isSome = true) → (∃ m ∈ x.compacting, m ≠ l) →
      let z := (x.llist l).compacted x.desc.segCap (s.oldestSnapshot x)
      ∃ u y, exec (.compactionDone n l) s = .next u ∧ u.coll? n = some y ∧ y.compacting = x.compacting.filter (fun m => m ≠ l)
        ∧ (y.llist l = { z with pages := (y.llist l).pages, tombPages := (y.llist l).tombPages }
          ∨ (y.llist l = { x.llist l with rewriting := none }
            ∧ u.counter (collReg n 0x34) = min (s.counter (collReg n 0x34) + 1) 0xFFFFFFFF))
        ∧ (∀ m, m ≠ l → y.llist m = { x.llist m with pages := (y.llist m).pages, tombPages := (y.llist m).tombPages })
        ∧ SameOutsideT1 s u)

/-! ### Selection and the meld unit (06) -/

/-- A selection keeps valid entries only, in the order of 06 R165, at most K of them, and leaves out none that ranks before one it keeps;
with K kept, TIES_LEFT counts the valid entries left out whose key equals the last key (06 R165, R167, R170). -/
def Obligations.SelectionKeepsTheBest : Prop :=
  ∀ (fmt : Nat) (largest topp : Bool) (k : Nat) (l : List MEntry),
    let r := selectBest fmt largest false topp k l
    let valid := l.filter (fun e => !e.invalid fmt topp)
    (∀ e ∈ r.entries, e ∈ l ∧ e.invalid fmt topp = false) ∧ r.entries.length = min k valid.length
      ∧ r.entries.Pairwise (fun a b => MEntry.before fmt largest b a = false)
      ∧ (∃ rest, List.Perm valid (r.entries ++ rest) ∧ (∀ a ∈ r.entries, ∀ b ∈ rest, MEntry.before fmt largest b a = false)
          ∧ ∀ e, r.entries.getLast? = some e → r.entries.length = k → r.ties = (rest.filter (fun x => keyEq fmt x.key e.key)).length)
      ∧ r.invalid + valid.length = l.length

/-- The result of a selection in pieces, merged in groups of up to 16, is the same as one selection over the whole row, TIES_LEFT included
(06 R171). -/
def Obligations.PiecewiseSelectionEqualsWhole : Prop :=
  ∀ (fmt : Nat) (largest : Bool) (k fuel : Nat) (pieces : List (List MEntry)),
    let part (l : List MEntry) : MPart :=
      { entries := (selectBest fmt largest false false k l).entries, ties := (selectBest fmt largest false false k l).ties }
    let whole := selectBest fmt largest false false k pieces.flatten
    (mergeAll fmt largest false k fuel (pieces.map part)).1 = { entries := whole.entries, ties := whole.ties }

/-- TOPK, TOPP and MERGE check every field and range first and then begin; each piece and each group of 16 keeps the best K, in its turn,
and the last one ends the selection with its result; a field out of range is BAD_PARAM (06 R171, R172, R174, R175, R176).

Rows that complete here: MELD_TOPK, MELD_MERGE, MELD_TOPP, MELD_PIECE, MELD_MERGE_GROUP. -/
def Obligations.MeldUnit : Prop :=
  ∀ (s : State) (k : IssueKey) (u : UnitIssue) (op : Nat),
    let b := u.body
    let count := fieldOf b 0x10 8
    let kk := fieldOf b 0x18 2
    let row (c : Instr) (topp : Bool) : Prop := s.AtUnit k 2 op u → s.fitted 6 = true →
      (meldFieldsOk u false topp = false → exec c s = .next (s.finishIssue k 0x05 0))
      ∧ (meldFieldsOk u false topp = true → s.unitCheck u .load (fieldOf b 0 8) (count * keyBytes (fieldOf b 0x1A 1)) 8 = .ok →
          (fieldOf b 8 8 = 0 ∨ s.unitCheck u .load (fieldOf b 8 8) (count * 8) 8 = .ok) →
          s.unitCheck u .store (fieldOf b 0x20 8) (32 + 16 * kk) 8 = .ok →
          exec c s = .next { s.beginIssue k with selections := s.selections ++ [selectionOf u op (s.rowEntries u) []] })
    (op = 1 → row (.meldTopk k) false) ∧ (op = 3 → row (.meldTopp k) true)
    ∧ (s.AtUnit k 2 2 u → s.fitted 6 = true → meldFieldsOk u true false = true →
        s.unitCheck u .load (fieldOf b 0 8) (8 * count) 8 = .ok → s.unitCheck u .store (fieldOf b 0x20 8) (32 + 16 * kk) 8 = .ok →
        (∀ i < count, s.unitCheck u .load (fieldOf b 0 8 + 8 * i) 8 8 = .ok ∧ s.unitCheck u .load (s.mergeAddr u i) 32 8 = .ok
          ∧ leNat (s.rdTva u.tenant u.stock (s.mergeAddr u i) 4) ≤ 4096
          ∧ s.unitCheck u .load (s.mergeAddr u i) (32 + 16 * leNat (s.rdTva u.tenant u.stock (s.mergeAddr u i) 4)) 8 = .ok) →
        exec (.meldMerge k) s = .next { s.beginIssue k with
          selections := s.selections ++ [selectionOf u 2 [] ((List.range count).map (s.mergeInput u))] })
    ∧ (∀ x, s.selection? k = some x →
        let r := selectBest x.keyfmt x.largest x.unique (x.op == 3) x.k (x.rest.take 65536)
        let p : MPart := { entries := r.entries, ties := r.ties }
        let y : Selection := { x with rest := x.rest.drop 65536, levels := addLevel 0 p x.levels, invalid := x.invalid + r.invalid
                                      duplicates := x.duplicates + r.duplicates }
        let piece : State := (({ s with selections := s.selections.filter (fun (z : Selection) => z.key ≠ k) ++ [y] }).bump64 0x00080008 1).countExcluded
          r.invalid r.duplicates
        (x.rest ≠ [] → s.pieceTurn ≠ some k → exec (.meldPiece k .agree) s = .next s)
        ∧ (x.rest ≠ [] → s.pieceTurn = some k → exec (.meldPiece k .agree) s = .next (piece.settleSelection k))
        ∧ (x.rest ≠ [] → s.pieceTurn = some k → x.rest.length ≤ 65536 → x.levels = [] → x.raw = false →
            exec (.meldPiece k .agree) s = .next (piece.finishSelection y p))
        ∧ (∀ i, x.group? = some i →
            let m := mergeParts x.keyfmt x.largest x.unique (x.op == 3) x.k ((x.levels.getD i []).take 16)
            (s.mergeTurn ≠ some k → exec (.meldMergeGroup k .agree) s = .next s)
            ∧ (s.mergeTurn = some k → exec (.meldMergeGroup k .agree) s = .next (((s.updSelection k (fun _ => { x with
                levels := addLevel (i + 1) m.1 (x.levels.modify i (fun l => l.drop 16)), invalid := x.invalid + m.2.1
                duplicates := x.duplicates + m.2.2, lastMerge := (s.selections.map (fun z => z.lastMerge)).foldl max 0 + 1 })).countExcluded
                  m.2.1 m.2.2).settleSelection k))))

/-! ### Pipeline queries (01, 07) -/

/-- PIPE_QUERY, QUERY_TOKENIZE, EMBED, PASSAGE_FETCH, RERANK, PACK and PIPE_RETURN each complete. A PIPE_QUERY whose checks pass, with
or without GENERATE, is in flight with its question and control blocks, its output buffer open; its question is tokenized in each deck its
stages need; the vector its embedding model gives enters the search. The model's output is an operand of the command
(notes/assumptions/7.md) (01 R20, R22, R26, 18 R485).

The candidates' passages come into scratch, charged to the tenant; the pairs, placed first-fit into sequences, are scored and ranked, best
first, NaN losing its candidate; the prompt is placed within the budget; the output is written and the command completes, or its prompt
goes to a generation request. The heads' outputs are an operand of the command (notes/assumptions/7.md). Texts that a cross-encoder's deck,
loaded since, has not cut are cut at the re-rank; bytes of the output range that the output does not take are those of intake, or a free value
where another command in flight had the range (notes/assumptions/7.md) (01 R24, R25, 07 R183 to R194).

Rows that complete here: PIPE_QUERY, QUERY_TOKENIZE, EMBED, PASSAGE_FETCH, RERANK, PACK, PIPE_RETURN. -/
def Obligations.PipelineStartsAndFinishes : Prop :=
  (
    ∀ (s : State) (h : Nat) (x : Collection),
      (∀ (c : Cmd) (qk ok : Nat) (f pb gb : List Byte), s.cmdAt h 0x0501 0 = some c →
        let t := c.tenant
        let k := c.field 0x14 2
        let fl := c.field 0x16 2
        let qn := c.field 0x48 4
        let n := 64 + packMap pb + 4 * packBudget pb
        let genDeck := ((s.modelFor t h (fieldOf gb 8 4)).filter (fun m => m.kind == 1)).map (fun m => mdlDeck m.image)
        s.collFor t h (c.field 0x10 2) = some x → s.resolve t (c.field 0x20 8) qn 1 = some qk → s.filterFor t (c.field 0x28 8) = .inl f →
        s.packRead t (c.field 0x30 8) = .inl pb →
        (bitAt fl 2 = false → gb = [] ∧ c.field 0x38 8 = 0) →
        (bitAt fl 2 = true → s.genRead t (c.field 0x38 8) = .inl gb ∧ s.genBad t h gb = false ∧ s.tooWide (genParams gb).topK = false
          ∧ (genDeck = none ∨ genDeck = some (packDeck pb))) →
        (s.handFor t h (c.field 0x1A 1)).isSome = true → (s.handFor t h (c.field 0x1B 1)).isSome = true → 1 ≤ qn → qn ≤ 65536 →
        c.field 0x1C 4 ≤ 2 → packOk pb (s.deckFor t h (packDeck pb)) k = true → s.resolve t (fieldOf pb 0x18 8) n 64 = some ok →
        s.searchTrouble x k (c.field 0x12 2) (c.field 0x18 2) (bitAt fl 1) = none → s.poisoned qk qn = false → s.noSeats = false →
        ∃ u l p, exec (.pipeQuery h) s = .next u ∧ u = { s with pipes := l ++ [p], cmds := u.cmds, mem := u.mem, fresh := u.fresh }
          ∧ l.map (fun q => { q with shared := false }) = s.pipes.map (fun q => { q with shared := false }) ∧ p.under = s.rd ok n
          ∧ u.cmds = updWhere (fun y => y.handle == h) (fun y => { y with stage := 1 }) s.cmds ∧ SameOutside s u ok n
          ∧ p.cmd = h ∧ p.tenant = t ∧ p.coll = x.number ∧ p.packBlock = pb ∧ p.genBlock = gb ∧ p.snapshot = c.snapshot ∧ p.stage = 1
          ∧ p.embedHand = c.field 0x1A 1 ∧ p.rerankHand = c.field 0x1B 1 ∧ p.policy = c.field 0x1C 1
          ∧ p.question = s.rd qk qn)
      ∧ (∀ p, s.pipe? h = some p → p.stage = 1 →
        let decks := dedup (((s.embedModel p).map (fun m => mdlDeck m.image)).toList ++ ((s.crossModel p).map (fun m => mdlDeck m.image)).toList
          ++ [packDeck p.packBlock])
        let ts := decks.filterMap (fun n => (s.deckFor p.tenant h n).map (fun d => (d, tokenizeAll d p.policy p.question)))
        let counted := ts.foldl (fun s x => s.countTokenized x.1 x.2) s
        let done := counted.updPipe h (fun p => { p with
          tokens := ts.map (fun x => (x.1.number, x.2.cuts.map (fun c => c.token))), stage := 2 })
        (s.cutCheck h ts = .wait → exec (.queryTokenize h) s = .next s)
        ∧ (s.cutCheck h ts = .ok → (∃ x ∈ ts, x.2.rejected = true) →
          exec (.queryTokenize h) s = .next ((counted.bump 0x00090024).failPipe h St.inputInvalid))
        ∧ (s.cutCheck h ts = .ok → (∀ x ∈ ts, x.2.rejected = false) →
          exec (.queryTokenize h) s = .next (match s.embedModel p with | some m => done.noteReady p.embedHand m.number 0 | none => done)))
      ∧ (∀ p c m f vec, s.pipe? h = some p → s.cmd? h = some c → p.stage = 2 → s.coll? p.coll = some x → s.embedModel p = some m →
        s.noSeats = false → s.objectCheck (.cmd h) m.tenant m.va.toNat m.bytes.length = .ok → s.handTakes p.embedHand m.number 0 = true →
        let w := s.useHand p.embedHand m.number 0
        let fl := c.field 0x16 2
        w.filterFor p.tenant (c.field 0x28 8) = .inl f →
        exec (.embed h vec) s = .next ((w.updPipe h (fun p => { p with stage := 3 })).addQuery
          (newQuery { cmd := h, idx := 0 } p.tenant x ((vec ++ List.replicate x.desc.dim 0).take x.desc.dim) f (c.field 0x14 2) (c.field 0x12 2)
            (c.field 0x18 2) (bitAt fl 0) (bitAt fl 1) p.snapshot (some p.embedHand)))))
  ∧ (
    ∀ (s : State) (h : Nat) (p : Pipe), s.pipe? h = some p →
      (∀ q x reads, p.stage = 3 → s.query? { cmd := h, idx := 0 } = some q → q.stage = 5 → s.coll? p.coll = some x → s.passageTurn h = true →
        let final := q.merged.take (packN p.packBlock)
        let items := final.filterMap (fun e => (x.item? e.item).filter (fun it => !it.text.isEmpty))
        let gone (it : Item) : Bool := has (fun y => y.1 == it.id && y.2 == ReadResult.lost) reads
          || s.mediaLost (it.owns x.number false)
        let good := items.filter (fun it => !gone it)
        let cross := ((s.crossModel p).map (fun m => mdlDeck m.image)).bind (s.deckFor p.tenant h)
        let pack := s.deckFor p.tenant h (packDeck p.packBlock)
        let cands := good.map (candidateOf cross pack)
        let scratch := roundUp (sumNat ((good.zip cands).map (fun c => candidateBytes c.1 c.2))) 65536
        (s.unitOut 13 = false ∨ items = []) → s.cutCheck h (good.flatMap (passageWork cross pack)) = .ok →
        (s.tenant p.tenant).t1.fits scratch = true →
        ∃ (u : State) (p' : Pipe), exec (.passageFetch h reads) s = .next u.settleEvictions ∧ u.pipe? h = some p' ∧ u.mem = s.mem
          ∧ p' = { p with candidates := cands, taken := final.length, scratch := scratch, stage := 10, lost := p'.lost, partial' := p'.partial'
                          crossDeck := cross.map (fun d => d.number) }
          ∧ p'.lost + good.length = p.lost + final.length ∧ p'.partial' = (p.partial' || decide (q.merged.length < q.k))
          ∧ u.tenants = (s.chargeT1 p.tenant scratch).tenants
          ∧ u.search.queries = s.search.queries.filter (fun y => y.key ≠ q.key))
      ∧ (∀ m heads shadow, p.stage = 10 → s.crossModel p = some m → s.noSeats = false →
        let asked := s.crossTokens p m
        s.objectCheck (.cmd h) m.tenant m.va.toNat m.bytes.length = .ok → s.cutCheck h asked.2 = .ok → s.handTakes p.rerankHand m.number 2 = true →
        (∀ w ∈ asked.2, w.2.rejected = false) → (s.tenant p.tenant).t1.fits (asked.1.scratch - p.scratch) = true →
        (shadow ≠ .failed ∨ s.seatSearch = true ∨ p.candidates = []) →
        let question := ((asked.1.tokens.find? (fun y => y.1 == mdlDeck m.image)).map (fun y => y.2)).getD []
        let seqs := packPairs (fieldOf m.image 0x16 2) (asked.1.candidates.map (fun c => buildPair m.image question c.cross))
        ∃ u p', exec (.rerank h ⟨some heads, shadow⟩) s = .next u ∧ u.pipe? h = some p' ∧ p'.stage = 11 ∧ SameOutsidePots s u ∧ p'.seqs = seqs
          ∧ (∀ c ∈ p'.candidates, ∃ i, (p.candidates[i]?).map (fun y => y.id) = some c.id ∧ c.score = pairScore seqs heads i)
          ∧ p'.candidates.map (fun c => c.rank) = List.range p'.candidates.length
          ∧ p'.candidates.Pairwise (fun a b => (ofF32 a.score).lt (ofF32 b.score) = false)
          ∧ (∀ c ∈ p'.candidates, (ofF32 c.score).isNan = false)
          ∧ p'.candidates.length + (p'.lost - p.lost) = p.candidates.length)
      ∧ (∀ d k, p.stage = 11 → packOk p.packBlock d k = true → s.noSeats = false → s.handSeated p.rerankHand = true →
        let b := p.packBlock
        let question := if has (fun g => g.kind == 2) (packSegs b) then
          ((p.tokens.find? (fun x => x.1 == packDeck b)).map (fun x => x.2)).getD [] else []
        (packBudget b < packText b + question.length → ∀ fl, exec (.pack ⟨h, fl⟩) s = .next (s.failPipe h St.badParam))
        ∧ (packText b + question.length ≤ packBudget b →
          ∃ u p', exec (.pack ⟨h, false⟩) s = .next u ∧ u = { s with pipes := u.pipes, ctr := u.ctr } ∧ u.pipe? h = some p' ∧ p'.stage = 12
            ∧ p'.prompt.length ≤ packBudget b ∧ p'.candidates = p.candidates))
      ∧ (∀ k, p.stage = 12 → s.resolve p.tenant (fieldOf p.packBlock 0x18 8) (64 + packMap p.packBlock + 4 * packBudget p.packBlock) 64 = some k →
        let st := if p.partial' then 0x01 else 0x00
        let written := (s.wr k p.under).wr k p.out
        let full := if p.genBlock = [] then written.wr (k + 64 + packMap p.packBlock) (p.prompt.flatMap (leBytes 4)) else written
        let w := if p.shared then full.spoilOut p else full
        (p.genBlock = [] → exec (.pipeReturn h) s = .next ((w.dropPipe h).complete h st 0 0 0))
        ∧ (p.genBlock ≠ [] → w.genBad p.tenant h p.genBlock = false → p.prompt ≠ [] →
          let g := (w.updPipe h (fun p => { p with stage := 13 })).genAdmit h p.tenant p.genBlock p.prompt st w.noSeats
          exec (.pipeReturn h) s = .next (if (g.cmd? h).isNone then
            ((g.pipes.filter (fun q => q.cmd == h)).foldl State.spoilOut g).dropPipe h else g))))

/-! ### Tokenizer and grammar (08, 09) -/

/-- A whole text under REPLACE or BYTES is cut into tokens that together cover every byte of it, once (08 R201, R204). -/
def Obligations.TokenizerCoversEveryByte : Prop :=
  ∀ (d : Deck) (policy : Nat) (text : List Byte), deckOk d.image = true → policy ≤ 1 → d.fffd ≠ [] →
    let t := tokenizeAll d policy text
    sumNat (t.cuts.map (fun c => c.bytes)) = text.length ∧ t.openBytes = [] ∧ t.rejected = false ∧ t.taken = text.length

/-- TOKENIZE and DETOKENIZE, taken by a lane, with sound fields and ranges write their output and then the completion record, with a carry
or without one; a missing deck or a field out of range is BAD_PARAM. DECK_CACHE_FILL brings a missed line in as the most recently used, and
leaves a line that is there alone (08 R201 to R211, R213 to R215).

Rows that complete here: TOKENIZE, DETOKENIZE, DECK_CACHE_FILL. -/
def Obligations.TokenizerIssues : Prop :=
  ∀ (s : State) (k : IssueKey) (u : UnitIssue) (d : Deck), s.fresh < 2 ^ 64 →
    let b := u.body
    let len := fieldOf b 0x10 4
    let cap := fieldOf b 0x14 4
    let ca := fieldOf b 0x20 8
    let final := bitAt (fieldOf b 5 1) 0
    let input := s.rdTva u.tenant u.stock (fieldOf b 8 8) len
    (s.AtUnit k 3 1 u → s.inLane u = true → (s.tenant u.tenant).reset = none →
      (s.deckOf u (fieldOf b 0 4) = none → exec (.tokenize k) s = .next (s.finishIssue k 0x05 0))
      ∧ (s.deckOf u (fieldOf b 0 4) = some d → (2 < fieldOf b 4 1 ∨ 16777216 < len) → exec (.tokenize k) s = .next (s.finishIssue k 0x05 0))
      ∧ (s.deckOf u (fieldOf b 0 4) = some d → fieldOf b 4 1 ≤ 2 → fieldOf b 5 1 ≤ 1 → fieldOf b 6 2 = 0 → len ≤ 16777216 →
          (if fieldOf b 4 1 = 0 then d.fffd.length else 1) * (len + 130) ≤ cap → bodyTailZero u 0x28 = true →
          s.unitCheck u .load (fieldOf b 8 8) len 1 = .ok → s.unitCheck u .store (fieldOf b 0x18 8) (4 * cap) 4 = .ok →
          (final = true → ca = 0 → 1 ≤ deckNodes d.image →
            let t := tokenizeBytes d.image d.fffd (fieldOf b 4 1) true [] [] input
            s.deckCheck (.issue k) d (nodeLines d.image t.nodes) = .ok → t.rejected = false →
            exec (.tokenize k) s = .next (((s.draw.countTokenized d t).wrTva u.tenant u.stock (fieldOf b 0x18 8)
              (t.cuts.flatMap (fun c => leBytes 4 c.token))).finishIssue k 0x00 t.cuts.length))
          ∧ (ca ≠ 0 → s.unitCheck u .load ca 256 64 = .ok → s.unitCheck u .store ca 256 64 = .ok →
            let carry := s.rdTva u.tenant u.stock ca 256
            (carryOk d.image d.number carry = false → exec (.tokenize k) s = .next (s.finishIssue k 0x05 0))
            ∧ (carryOk d.image d.number carry = true → len = 0 → final = false → exec (.tokenize k) s = .next (s.finishIssue k 0x00 0))
            ∧ (carryOk d.image d.number carry = true → carrySound d.image carry = true → (0 < len ∨ final = true) →
              let t := tokenizeBytes d.image d.fffd (fieldOf b 4 1) final (carryMatch carry) (carryPend carry) input
              s.deckCheck (.issue k) d (nodeLines d.image t.nodes) = .ok → t.rejected = false →
              exec (.tokenize k) s = .next ((((s.draw.countTokenized d t).wrTva u.tenant u.stock (fieldOf b 0x18 8)
                (t.cuts.flatMap (fun c => leBytes 4 c.token))).wrTva u.tenant u.stock ca
                  (carryBytes d.image d.number carry final t)).finishIssue k 0x00 t.cuts.length)))))
    ∧ (s.AtUnit k 4 1 u → s.inLane u = true → (s.tenant u.tenant).reset = none →
      (s.deckOf u (fieldOf b 0 4) = none → exec (.detokenize k) s = .next (s.finishIssue k 0x05 0))
      ∧ (s.deckOf u (fieldOf b 0 4) = some d → fieldOf b 4 1 = 0 → fieldOf b 5 1 ≤ 1 → fieldOf b 6 2 = 0 → len ≤ 131072 →
          128 * len + 3 ≤ cap → bodyTailZero u 0x28 = true →
          s.unitCheck u .load (fieldOf b 8 8) (4 * len) 4 = .ok → s.unitCheck u .store (fieldOf b 0x18 8) cap 1 = .ok →
          let raw := s.rdTva u.tenant u.stock (fieldOf b 8 8) (4 * len)
          let ids := (List.range len).map (fun i => fieldOf raw (4 * i) 4)
          s.deckCheck (.issue k) d (tokenLines d.image ids) = .ok →
          (final = true → ca = 0 →
            let r := detokenizeIds d.image true [] ids
            exec (.detokenize k) s = .next (((s.draw.countDetok d ids r.2.2.1 r.2.2.2).wrTva u.tenant u.stock (fieldOf b 0x18 8) r.1).finishIssue
              k (if 0 < r.2.2.2 then 0x01 else 0x00) r.1.length))
          ∧ (ca ≠ 0 → s.unitCheck u .load ca 32 32 = .ok → s.unitCheck u .store ca 32 32 = .ok →
            let carry := s.rdTva u.tenant u.stock ca 32
            (detokCarryOk d.number carry = false → exec (.detokenize k) s = .next (s.finishIssue k 0x05 0))
            ∧ (detokCarryOk d.number carry = true → detokCarrySound carry = true → (0 < len ∨ final = true) →
              let r := detokenizeIds d.image final ((carry.drop 8).take (fieldOf carry 1 1)) ids
              exec (.detokenize k) s = .next ((((s.draw.countDetok d ids r.2.2.1 r.2.2.2).wrTva u.tenant u.stock (fieldOf b 0x18 8) r.1).wrTva
                u.tenant u.stock ca (detokCarryBytes d.number carry final r.2.1 len r.1.length)).finishIssue
                  k (if 0 < r.2.2.2 then 0x01 else 0x00) r.1.length)))))
    ∧ (∀ n line, s.decks.find? (fun d => d.number == n) = some d →
      (s.deckHit d line = false →
        ∃ u, exec (.deckCacheFill n line false) s = .next u ∧ u = { s with deckCache := u.deckCache, ctr := u.ctr }
          ∧ u.deckCache.getLast? = some (n, line) ∧ u.deckHit d line = true)
      ∧ (s.deckHit d line = true → exec (.deckCacheFill n line false) s = .next s))

/-- MASK, taken by a walker, writes the mask of the record's state; ADVANCE moves the record through the token's bytes or, when the
automaton does not take it, leaves the record and completes with BAD_PARAM; FORK copies the record (09 R225 to R230, R234).

Rows that complete here: GRAMMAR_MASK, GRAMMAR_ADVANCE, GRAMMAR_FORK. -/
def Obligations.GrammarIssues : Prop :=
  ∀ (s : State) (k : IssueKey) (u : UnitIssue) (a : Automaton) (d : Deck),
    let b := u.body
    let at8 := fieldOf b 8 8
    let r := s.rdTva u.tenant u.stock at8 576
    let g := recState r
    s.autAt u (fieldOf b 0 8) = some a → s.decks.find? (fun d => d.number == autDeck a.image && d.tenant == a.tenant) = some d →
    bodyTailZero u 0x28 = true → fieldOf b 0x1C 4 = 0 → s.unitCheck u .load at8 576 64 = .ok → s.unitCheck u .store at8 576 64 = .ok →
    recOk a r = true → s.inLane u = true → (s.tenant u.tenant).reset = none →
      (s.AtUnit k 5 1 u → fieldOf b 0x18 4 = 0 → fieldOf b 0x20 8 = 0 → s.unitCheck u .store (fieldOf b 0x10 8) 131072 1 = .ok →
        let m := s.mask a d g
        let w := if m.2.2 then m.1.recoveredIssue k else m.1
        (s.storedMask a d g = none → m.2.1 = (allowed a.image d.image g).tokens)
        ∧ (∀ e, s.storedMask a d g = some e → e.parityBad = true → m.2.1 = (allowed a.image d.image g).tokens ∧ m.2.2 = true)
        ∧ (∀ e, s.storedMask a d g = some e → e.parityBad = false → m.2.1 = e.allowed ∧ m.2.2 = false)
        ∧ (g.ended = true → exec (.grammarMask k) s = .next (s.finishIssue k 0x05 0))
        ∧ (g.ended = false → s.maskCheck (.issue k) a d g = .ok → exec (.grammarMask k) s = .next
            (((w.wrTva u.tenant u.stock at8 (recHeader a g (fieldOf r 0x10 8) (fieldOf r 0x18 8))).wrTva u.tenant u.stock (fieldOf b 0x10 8)
              (maskBytes (deckVocab d.image) m.2.1)).finishIssue k (if m.2.1 = [] then 0x09 else 0x00) 0)))
      ∧ (s.AtUnit k 5 2 u → fieldOf b 0x10 8 = 0 → fieldOf b 0x20 8 = 0 →
        let tok := fieldOf b 0x18 4
        let lines := advanceLines a.image d.image g tok
        let w := ((if s.imageParity a lines.1 then s.recoveredIssue k else s).readImage a lines.1).readDeck d lines.2
        (deckVocab d.image ≤ tok → exec (.grammarAdvance k) s = .next (s.finishIssue k 0x05 0))
        ∧ (tok < deckVocab d.image → s.walkCheck (.issue k) a d lines.1 lines.2 = .ok → (advance a.image d.image 0 g tok).1 = none →
            exec (.grammarAdvance k) s = .next ((w.bump 0x000A0024).finishIssue k 0x05 0))
        ∧ (∀ g', tok < deckVocab d.image → s.walkCheck (.issue k) a d lines.1 lines.2 = .ok → (advance a.image d.image 0 g tok).1 = some g' →
            let n := if g'.ended then 0 else (tokenBytes d.image tok).length
            exec (.grammarAdvance k) s = .next (((w.bump64 0x000A0018 1).wrTva u.tenant u.stock at8
              (recBytes a g' (fieldOf r 0x10 8 + n) (fieldOf r 0x18 8 + if g'.ended then 0 else 1))).finishIssue k 0x00 n)))
      ∧ (s.AtUnit k 5 3 u → fieldOf b 0x10 8 = 0 → fieldOf b 0x18 4 = 0 →
        let dst := fieldOf b 0x20 8
        (at8 + 576 ≤ dst ∨ dst + 576 ≤ at8) → s.unitCheck u .store dst 576 64 = .ok →
        let bytes := recBytes a g (fieldOf r 0x10 8) (fieldOf r 0x18 8)
        exec (.grammarFork k) s = .next (((s.wrTva u.tenant u.stock at8 bytes).wrTva u.tenant u.stock dst bytes).finishIssue k 0x00 0))

/-! ### Completions (18) -/

/-- A command completes: one entry is written at its CQ's next place with the pair's phase, the CQ moves on by one and the phase turns at
the end, the slot held for it is released, the command is no longer in flight, the pair's vector is raised, and no other byte changes (18
R473, R474, R476). -/
def Obligations.CompletionPostsOneEntry : Prop :=
  ∀ (s : State) (h n r0 r1 k : Nat) (c : Cmd) (q : QPair), s.Inv → s.cmd? h = some c → c.recovered = false → s.queue c.tenant c.queue = some q →
    q.legacy = false → q.deleting = none → (∀ j, j ≠ c.queue → ∀ p, s.queue c.tenant j = some p → p.deleting = none) →
    s.resolve c.tenant (q.cqBase.toNat + 32 * q.cqTail) 32 1 = some k → s.poisoned k 32 = false →
    let t := s.complete h St.ok n r0 r1
    let next := (q.cqTail + 1) % max q.cqEntries 1
    t.rd k 32 = completionBytes c q St.ok n r0 r1 ∧ SameOutside s t k 32 ∧ t.cmd? h = none
      ∧ t.cmds = s.cmds.filter (fun x => x.handle ≠ h)
      ∧ t.queue c.tenant c.queue = some { q with
          cqTail := next, phase := if next = 0 then !q.phase else q.phase, reserved := q.reserved - 1 }
      ∧ (q.noIrq = false → 32 * c.tenant + c.queue ∈ s.cxl.unmasked → t.out = s.out ++ [.msix (32 * c.tenant + c.queue)])
      ∧ (q.noIrq = false → 32 * c.tenant + c.queue ∉ s.cxl.unmasked → 32 * c.tenant + c.queue ∈ t.cxl.pendingVec ∧ t.out = s.out)
      ∧ (∀ g, t.seat g = s.seat g) ∧ t.flash = s.flash ∧ t.serving = s.serving ∧ t.search = s.search ∧ t.ctr = s.ctr

/-! ### Hands, seats and kernels (04, 14) -/

/-- DEAL_HAND gives the lowest free hand the best of the allowed IDLE seats, which are DEALT and cleared; RESIZE_HAND reserves the seats it
grows by; FREE_HAND closes the hand to new commands; a cleared seat is zero and idle; a saved seat is yielded (14 R360 to R369, 02 R32).

Rows that complete here: SEAT_CLEAR_DONE, SEAT_SAVE_DONE, DEAL_HAND, RESIZE_HAND, FREE_HAND. -/
def Obligations.HandsAndSeats : Prop :=
  ∀ (s : State), s.hands.length = 64 →
    (∀ (h : Nat) (c : Cmd) (hd n : Nat) (pool : List Nat), s.cmdAt h 0x0901 0 = some c →
      let p := handParams c
      let owner := if c.tenant = 0 then p.tenant else c.tenant
      (c.tenant ≠ 0 → p.tenant = 0) → (c.tenant = 0 → (s.tenant owner).reset = none) → owner ≤ 63 → (s.tenant owner).live = true →
      s.handBad owner h p = false → s.affinityLeaves owner h p = false → s.dealsEarlier h = false → s.noSeats = false →
      (List.range 64).find? (fun i => !(s.hand i).valid) = some hd → s.grant owner hd p [] [] = .inl (n, pool) →
      ∃ u, exec (.dealHand h) s = .next u
        ∧ (let x := u.hand hd
          x.valid = true ∧ x.tenant = owner ∧ x.dealing = some h ∧ x.seats.length = n
            ∧ (∀ g ∈ x.seats, g ∈ pool ∧ (u.seat g).mode = .dealt ∧ (u.seat g).hand = hd ∧ (u.seat g).clearing = true)
            ∧ (∀ g, g ∉ x.seats → u.seat g = s.seat g)
            ∧ (let key := s.seatKey hd owner (placeModel .none p.affinity) []
              ∀ a ∈ x.seats, ∀ b ∈ pool, b ∉ x.seats → keyLt (key b) (key a) = false))
        ∧ (∀ i, i ≠ hd → u.hand i = s.hand i))
    ∧ (∀ (g : Nat), g < 176 → g < s.seats.length → (s.seat g).clearing = true → (s.seat g).mode = .dealt → (s.hand (s.seat g).hand).dealing = none →
        ∃ u, exec (.seatClearDone g) s = .next u ∧ (u.seat g).clearing = false ∧ (u.seat g).sets = [] ∧ (u.seat g).queue = []
          ∧ (u.seat g).inv = none ∧ (∀ i, (u.seat g).ctx i = .idle) ∧ (∀ a < sbufBytes, memGet u.mem ((Space.seat g).key a) = 0)
          ∧ (∀ j, j ≠ g → u.seat j = s.seat j) ∧ u = { s with seats := u.seats, mem := u.mem })
    ∧ (∀ (g d : Nat), g < 176 → g < s.seats.length → (s.seat g).clearing = true → (s.seat g).mode = .dealt →
        (s.hand (s.seat g).hand).dealing = some d → (∀ j ∈ (s.hand (s.seat g).hand).seats, j ≠ g → (s.seat j).clearing = false) →
        ∃ w : State, w = { s with seats := w.seats, mem := w.mem, hands := w.hands } ∧ (w.seat g).clearing = false
          ∧ (w.hand (s.seat g).hand).dealing = none
          ∧ exec (.seatClearDone g) s = .next (w.complete d St.ok 0 (s.seat g).hand (s.hand (s.seat g).hand).seats.length))
    ∧ (∀ (h n : Nat) (c : Cmd) (x : Hand) (pool : List Nat), s.cmdAt h 0x0902 0 = some c →
      let p := handParams c
      s.handOf c p = .inl x → s.handBad x.tenant h p = false → s.affinityLeaves x.tenant h p = false →
      (p.hi ≤ x.seats.length ∨ s.dealsEarlier h = false) → s.noSeats = false → (∀ r, x.resize = some r → r.applied = false) →
      s.grant x.tenant p.hand p x.seats (match x.resize with | some r => r.grow | none => []) = .inl (n, pool) →
      ∃ u r, exec (.resizeHand h) s = .next u ∧ u.hand p.hand = { x with resize := some r } ∧ r.target = n ∧ r.applied = false
        ∧ h ∈ r.cmds ∧ r.grow.length = n - x.seats.length ∧ (∀ g ∈ r.grow, g ∈ pool ∧ (u.seat g).clearing = true) ∧ u.mem = s.mem)
    ∧ (∀ (h : Nat) (c : Cmd) (x : Hand), s.cmdAt h 0x0903 0 = some c → s.handOf c (handParams c) = .inl x → x.seats ≠ [] →
        exec (.freeHand h) s = .next ((s.updHand (handParams c).hand (fun y => { y with freeing := some (h, (handParams c).force) })).updCmd h
          (fun y => { y with stage := 1 })))
    ∧ (∀ g, (s.seat g).saving = true → (s.hand (s.seat g).hand).resize = none →
        exec (.seatSaveDone g) s = .next (s.updSeat g (fun x => { x.emptied with
          mode := if x.mode = .dealt then .idle else x.mode, hand := 0, saving := false, clearing := false
          steady := { x.steady with on := s.steadyLoad } })))

/-- TRICK_BOUNDARY, KERNEL_RUN and STEADY_LOAD_WINDOW complete. A boundary of a hand that holds seats counts the trick, takes the hand's
new settings and then does what is due in the order the Dealer has it; KERNEL_RUN starts context 0 of each seat with the entry, its
argument, rank and seat count; a steady-load window ramps down in a gap, holds work to the rate and the throttles, and fills a shortfall to
within a tenth of the average as far as the throttles allow; for a seat whose mode is off, DARK or QUARANTINED it changes nothing (14 R363,
R364, R380, 04 R126, 02 R55 to R57). How the free values lie within the tenth is notes/assumptions/22.md.

Rows that complete here: STEADY_LOAD_WINDOW, TRICK_BOUNDARY, KERNEL_RUN. -/
def Obligations.TricksAndKernels : Prop :=
  ∀ (s : State),
    (∀ h, (s.hand h).valid = true → (s.hand h).dealing = none → (s.hand h).seats ≠ [] → s.up = true →
      let b := (s.countBoundary h).stepStops h
      let x := s.hand h
      let due := match x.freeing with | some f => f.2 || !b.handBusy h | none => false
      let less := (b.stepShrink h).stepReplace h
      let changed := (less.stepGrow h).settleResize h
      ((b.tenant x.tenant).reset = none → due = false → ((less.hand h).freeing = none ∨ (less.hand h).seats ≠ []) → exec (.trickBoundary h) s =
        .next ((((changed.stepSwitch h (changed.resized (b.hand h) h)).stepResume h).pollParked h).boundaryBatches h))
      ∧ ((b.tenant x.tenant).reset = none → due = false → (less.hand h).freeing.isSome = true → (less.hand h).seats = [] →
        exec (.trickBoundary h) s = .next (less.freeHand h))
      ∧ ((b.tenant x.tenant).reset = none → due = true → exec (.trickBoundary h) s = .next (b.freeHand h))
      ∧ ((b.tenant x.tenant).reset.isSome = true → exec (.trickBoundary h) s =
        .next (if (b.freeHand h).holdsSeats x.tenant then b.freeHand h else (b.freeHand h).finishReset x.tenant))
      ∧ (h < s.hands.length → (s.countBoundary h).hand h = { x with
          tricks := min (x.tricks + 1) (2 ^ 64 - 1), runTricks := s.dlr.runTricks, trickKcyc := s.dlr.trickKcyc
          parkLimit := s.serving.parkLimit, batchWait := s.serving.batchWait }))
    ∧ (∀ h, h < s.hands.length → (s.hand h).valid = true → (s.hand h).dealing = none → (s.hand h).seats ≠ [] → s.up = true →
      (s.tenant (s.hand h).tenant).reset = none → (s.hand h).freeing = none → (s.hand h).resize = none →
      (∀ g ∈ (s.hand h).seats, (s.seat g).mode ≠ .quarantined) → (∀ v ∈ s.invs, v.hand ≠ h) → (∀ r ∈ s.serving.reqs, r.hand ≠ h) →
      ∃ u, exec (.trickBoundary h) s = .next u ∧ (u.hand h).tricks = min ((s.hand h).tricks + 1) (2 ^ 64 - 1)
        ∧ (u.hand h).runTricks = s.dlr.runTricks ∧ (u.hand h).trickKcyc = s.dlr.trickKcyc ∧ (u.hand h).parkLimit = s.serving.parkLimit
        ∧ (u.hand h).batchWait = s.serving.batchWait ∧ (∀ g ∈ (s.hand h).seats, (u.seat g).steady.on = s.steadyLoad ∨ s.seats.length ≤ g)
        ∧ SameOutsidePots s u)
    ∧ (∀ (h q : Nat) (c : Cmd) (m : Model) (k : Kernel), s.cmd? h = some c → c.opcode = 0x0304 → c.stage = 0 → (∀ v ∈ s.invs, v.cmd ≠ h) →
      let hd := c.field 0x10 1
      let x := s.hand hd
      s.modelFor c.tenant h (c.field 0x14 4) = some m → m.kernel? (c.field 0x18 4) = some k →
      s.resolve c.tenant (c.field 0x28 8) 32 32 = some q → (s.handFor c.tenant h hd).isSome = true → s.noSeats = false → k.minSeats ≤ x.seats.length →
      (x.model = none ∨ x.model = some m.number) → x.seats ≠ [] → x.seats.Nodup → 1 ≤ k.maxSeats →
      let free := x.seats.filter (fun g => (s.seat g).inv.isNone && (s.seat g).mode = .dealt && !(s.seat g).clearing)
      let n := min x.seats.length k.maxSeats
      n ≤ free.length →
      ∃ u, exec (.kernelRun h) s = .next u ∧ SameOutsidePots s u
        ∧ (∀ i g, (free.take n)[i]? = some g → (u.seat g).inv = some s.nextInv
            ∧ (u.seat g).ctx 0 = Ctx.start (BitVec.ofNat 64 (m.va.toNat - 2 ^ 47 + m.place (k.off + 32) + k.entry))
                (BitVec.ofNat 64 (c.field 0x20 8)) i n
            ∧ ∀ j, 0 < j → (u.seat g).ctx j = .idle)
        ∧ (∀ g, g ∉ free.take n → u.seat g = s.seat g))
    ∧ (∀ g active gap,
      let x := s.seat g
      let y := x.steady
      let level := s.power.issueLevel
      let limit := 4096 * level / 16
      (y.on = false ∨ x.mode = .dark ∨ x.mode = .quarantined → exec (.steadyLoadWindow g active gap) s = .next s)
      ∧ (y.on = true → x.mode ≠ .dark → x.mode ≠ .quarantined → g < 176 →
        ∃ u, exec (.steadyLoadWindow g active gap) s = .next u ∧ u = { s with seats := u.seats, ctr := u.ctr, fresh := u.fresh }
          ∧ (∀ i, i ≠ g → u.seat i = s.seat i)
          ∧ (let z := (u.seat g).steady
            u.seat g = { x with steady := z } ∧ z.on = true
            ∧ (3600 ≤ gap → z.dummy ≤ y.dummy - 1 ∧ z.dummy ≤ limit ∧ z.gapped = true ∧ z.rate = 0 ∧ z.average = z.dummy)
            ∧ (gap < 3600 →
              let a := min active (min limit (4096 * z.rate / 10))
              z.rate = min (if y.gapped then min 10 (y.rate + 1) else y.rate) ((10 * level + 15) / 16)
              ∧ (9 * y.average ≤ 10 * a → z.dummy = 0)
              ∧ (10 * a < 9 * y.average → a + z.dummy ≤ limit ∧ 10 * (a + z.dummy) ≤ 11 * y.average + 10
                ∧ (9 * y.average ≤ 10 * (a + z.dummy) ∨ a + z.dummy = limit))
              ∧ min y.average (a + z.dummy) ≤ z.average ∧ z.average ≤ max y.average (a + z.dummy)))))

/-! ### Objects (12, 14, 18) -/

/-- MODEL_LOAD reads the image, checks it whole before it takes anything, and completes with the object's number; a deck that fails its
checks is BAD_PARAM, a model whose stock kernel does not verify is ABORTED_SECURITY; MODEL_EVICT refuses an object in use and otherwise
waits for its last user, after which it is freed (18 R483, R484, 20 R528, 14 R373, 08 R216, 11 R299).

Rows that complete here: MODEL_LOAD, MODEL_EVICT, EVICTION_COMPLETE. -/
def Obligations.ObjectLoads : Prop :=
  ∀ (s : State) (h : Nat) (c : Cmd),
    (s.cmdAt h 0x0301 0 = some c → s.flash.stopped = false → 64 ≤ c.field 0x20 8 → c.field 0x20 8 ≤ 2 ^ 40 →
      let kind := c.field 0x10 1
      let fl := c.field 0x11 1
      let t := c.tenant
      (∀ b, s.loadBytes c = .inl b →
        (kind = 6 → c.field 0x14 4 = 0 → deckOk b = false → exec (.modelLoad h) s = .next (s.fail h St.badParam))
        ∧ (∀ n s', kind = 6 → c.field 0x14 4 = 0 → deckOk b = true → freeNumber 128 (s.decks.map (fun d => d.number)) = some n →
            s.draw.install t { kind := 6, number := n, tiered := bitAt fl 0, codec := false, blocks := plainBlocks s.fresh (s.nextVa t) t 0 b
                               va := s.nextVa t, t1 := if bitAt fl 0 then 0 else roundUp b.length 65536 } = .inl s' →
            exec (.modelLoad h) s = .next ((({ s' with decks := s'.decks ++ [{
              number := n, tenant := t, image := b, fffd := deckFffd b, va := BitVec.ofNat 64 (s.nextVa t)
              t1Bytes := if bitAt fl 0 then 0 else roundUp b.length 65536, evicting := none }] } : State).pinDeck).complete h St.ok 0 n 0))
        ∧ (1 ≤ kind → kind ≤ 4 → c.field 0x14 4 = 0 → mdlOk b kind (s.decks.filter (fun d => d.tenant == t && d.evicting.isNone)) = true →
            signaturesOk b = false → exec (.modelLoad h) s = .next ((s.bump 0x00120018).fail h St.security))
        ∧ (kind = 8 → embDescOk (s.variant.links + 1) (c.field 0x14 4) (b.take 64) = true → s.table? (c.field 0x14 4) = none →
            let x := EmbTable.start t (c.field 0x14 4) (b.take 64)
            let blocks := x.genBlocks s.fresh 0 x.ckpt
            (s.tenant t).t2.fits (2 * sumNat (blocks.map (fun y => y.2.charge))) = true → s.mediaRefuses = false →
            ∀ z, s.draw.mediaPuts t blocks = (z, blocks.length) →
              exec (.modelLoad h) s = .next ((z.updEmbed (fun y => { y with tables := y.tables ++ [x] })).complete h St.ok 0 (c.field 0x14 4) 0)
                ∧ z.embed = s.embed ∧ x.rows = [] ∧ x.remap = embMembers (b.take 64)))
      ∧ (kind = 0 ∨ 8 < kind → exec (.modelLoad h) s = .next (s.fail h St.badParam)))
    ∧ (s.cmdAt h 0x0302 0 = some c → c.field 0x10 1 = 6 →
      let n := c.field 0x14 4
      let used := has (fun m => m.tenant == c.tenant && m.kind != 4 && mdlDeck m.image == n) s.models
        || has (fun a => a.tenant == c.tenant && autDeck a.image == n) s.automata
      (used = true → exec (.modelEvict h) s = .next (s.fail h St.badParam))
      ∧ (used = false → (∃ d ∈ s.decks, d.number = n ∧ d.tenant = c.tenant ∧ d.evicting = none) →
          exec (.modelEvict h) s = .next (({ s with decks := (updWhere (fun x => x.number == n)
            (fun x => { x with evicting := some { cmd := h, issues := s.issuesAt c.tenant 3 ++ s.issuesAt c.tenant 4 } }) s.decks) } : State).updCmd
            h (fun c => { c with stage := 1 }))))
    ∧ (∀ n e d, (s.decks.find? (fun x => x.number == n)) = some d → d.evicting = some e → (∀ y ∈ s.cmds, s.names 6 n e.cmd y = false) →
      ((∀ k ∈ e.issues, s.issue? k = none) → exec (.evictionComplete 6 n) s = .next ((s.freeDeck n).complete e.cmd St.ok 0 0 0))
      ∧ (∀ k ∈ e.issues, s.issue? k ≠ none → exec (.evictionComplete 6 n) s = .next s)
      ∧ (∀ x ∈ (s.freeDeck n).decks, x.number ≠ n))

/-! ### Generation (10) -/

/-- GEN_START charges the tenant, clears the ring's tail and makes the request live at its prompt; a prefill chunk of the request whose turn
it is charges its tokens once; GEN_CANCEL lets the step in flight finish; BUDGET_DEPOSIT sets or adds to a balance and returns it (10 R239 to
R242, R244, R255, R256, R267).

Rows that complete here: GEN_START, PREFILL_CHUNK, GEN_CANCEL, BUDGET_DEPOSIT. -/
def Obligations.GenerationAdmission : Prop :=
  ∀ (s : State),
    (∀ (h k kk : Nat) (c : Cmd) (b : List Byte) (m : Model) (d : Deck), s.Inv → s.cmdAt h 0x0601 0 = some c → s.genRead c.tenant (c.field 0x10 8) = .inl b →
      let t := c.tenant
      let n := c.field 0x20 4
      let p := genParams b
      let prompt := (List.range n).map (fun i => fieldOf (s.rd k (4 * n)) (4 * i) 4)
      let shared := s.sharedFrames t p.model prompt (List.range (ceilDiv n 64))
      let bytes := (ceilDiv (n + p.maxTokens) 64 - shared.length + 2) * frameBytes m.image + 4 * (n + p.maxTokens)
      s.genBad t h b = false → 1 ≤ n → n ≤ 131072 → s.resolve t (c.field 0x18 8) (4 * n) 4 = some k → s.poisoned k (4 * n) = false →
      s.noSeats = false → s.modelFor t h p.model = some m → m.kind = 1 →
      s.decks.find? (fun d => d.number == mdlDeck m.image && d.tenant == t) = some d → (∀ i ∈ prompt, i < deckVocab d.image) →
      n + 1 ≤ mdlContext m.image → s.tooWide p.topK = false → s.serving.reqs.length < 16384 → (s.tenant t).t1.fits bytes = true →
      s.resolve t p.tailAddr.toNat 4 4 = some kk →
      ∃ u r, exec (.genStart h) s = .next u ∧ r ∈ u.serving.reqs ∧ r.cmd = h ∧ r.tenant = t ∧ r.tag = p.tag ∧ r.prompt = prompt ∧ r.output = []
        ∧ r.prefilled = 0 ∧ r.committed = n - 1 ∧ r.reserved = bytes ∧ r.tail = 0 ∧ r.ended = none
        ∧ (u.tenant t).t1.used = (s.tenant t).t1.used + bytes ∧ u.rdNat kk 4 = 0
        ∧ (∀ a, ¬ (kk ≤ a ∧ a < kk + 4) → (∀ d, d < 4 → a / 2 ^ 64 ≠ (Space.t1 d).index) → memGet u.mem a = memGet s.mem a))
    ∧ (∀ (id : Nat) (r x : Request) (m : Model), s.req? id = some r → s.reqModel r = some m →
        nextByAccount (s.hand r.hand).lastPre (s.waitPrefill r.hand) = some x → x.id = id →
        s.handTakes r.hand r.model 3 = true → s.noSeats = false → s.passCheck r m = .ok → r.tenant < s.tenants.length →
        let n := min 1024 (r.prompt.length - r.shared - r.prefilled)
        ∃ u, exec (.prefillChunk id) s = .next u ∧ (u.req? id).map (fun y => y.prefilled) = some (r.prefilled + n)
          ∧ (u.account r.tenant r.account).balance = (s.account r.tenant r.account).balance - n * (s.tenant r.tenant).weight
          ∧ (u.account r.tenant r.account).charged = (s.account r.tenant r.account).charged + n * (s.tenant r.tenant).weight
          ∧ SameOutsideT1AndPots s u)
    ∧ (∀ (h : Nat) (c : Cmd), s.cmdAt h 0x0603 0 = some c →
      let mine := s.serving.reqs.find? (fun r => r.tenant == c.tenant && r.tag.toNat == c.field 0x10 8)
      (mine = none → exec (.genCancel h) s = .next (s.complete h St.badParam 0 0 0))
      ∧ (∀ r, mine = some r → s.inStep r.id = true →
          exec (.genCancel h) s = .next ((s.complete h St.ok 0 0 0).updReq r.id (fun x => { x with cancel := true })))
      ∧ (∀ r, mine = some r → s.inStep r.id = false → exec (.genCancel h) s = .next ((s.complete h St.ok 0 0 0).endRequest r.id 6 St.ok)))
    ∧ (∀ (h : Nat) (c : Cmd), s.cmdAt h 0x0604 0 = some c →
      let a := c.field 0x10 4
      let mode := c.field 0x14 1
      let v : Int := (c.field 0x18 4 * 256 : Nat) + (if mode = 0 then (s.account c.tenant a).balance else 0)
      ((65535 < a ∨ 1 < mode) → exec (.budgetDeposit h) s = .next (s.complete h St.badParam 0 0 0))
      ∧ (a ≤ 65535 → mode ≤ 1 → v ≤ 2 ^ 55 - 1 → exec (.budgetDeposit h) s =
          .next ((s.updAccount c.tenant a (fun x => { x with balance := v })).complete h St.ok 0 (v % 2 ^ 64).toNat 0))
      ∧ (a ≤ 65535 → mode ≤ 1 → 2 ^ 55 - 1 < v → exec (.budgetDeposit h) s = .next (((s.bump 0x000B0070).updAccount c.tenant a
          (fun x => { x with balance := 2 ^ 55 - 1 })).complete h St.ok 0 (2 ^ 55 - 1) 0)))

/-- DRAFT_TREE, ACCEPT_STEP, RING_STALL and KV_REBUILD complete. A draft tree within its caps is taken in index order, pruned by the
grammar, and any other is cut to its root; an accepting step walks the tree and emits one token for each accepted node and one more, each
charged one token; the first of two batches keeps its logits; a request parked beyond the limit ends with RING_STALL; a KV page is rebuilt
with its step marked (10 R246 to R253, R255, R263, 09 R233, 02 R51). The exponential and the logarithm are free values
(notes/assumptions/6.md).

Rows that complete here: DRAFT_TREE, ACCEPT_STEP, RING_STALL, KV_REBUILD. -/
def Obligations.GenerationSteps : Prop :=
  ∀ (s : State) (id : Nat) (r : Request), s.req? id = some r →
    (∀ (m : Model) (d : Deck) nodes, s.reqModel r = some m → s.reqDeck r = some d → s.inStep id = true → r.tree = [] → s.drafts r = true →
      s.handTakes r.hand r.model 4 = true → s.passCheck r m = .ok →
      let ok := treeOk d.image r.nodeCap r.depthCap nodes
      let drafts := nodes.map (fun n => ({ token := n.token, parent := n.parent, depth := n.depth, pruned := false, gstate := none } : TreeNode))
      (r.automaton = none → ok = true →
        exec (.draftTree id nodes) s = .next ((s.bump64 0x000B0020 nodes.length).updReq id (fun x => x.setTree (r.root :: drafts))))
      ∧ (r.automaton = none → ok = false →
        exec (.draftTree id nodes) s = .next (((s.bump 0x000B0048).bump64 0x000B0020 0).updReq id (fun x => x.setTree [r.root])))
      ∧ (∀ n a, r.automaton = some n → s.automata.find? (fun a => a.number == n) = some a →
        let p := if ok then s.pruneTree a d [r.root] drafts else (s.bump 0x000B0048, [r.root])
        let lines := treeLines a.image d.image p.2
        s.walkCheck (.cmd r.cmd) a d lines.1 lines.2 = .ok →
        exec (.draftTree id nodes) s = .next ((p.1.bump64 0x000B0020 ((p.2.filter (fun n => !n.pruned)).length - 1)).updReq id
          (fun x => { x.setTree p.2 with stepRecovered := x.stepRecovered || s.imageParity a lines.1 }))))
    ∧ (∀ (m : Model) (d : Deck) logits mended, s.reqModel r = some m → s.reqDeck r = some d → s.inStep id = true → r.tree ≠ [] →
        s.noSeats = false → s.handTakes r.hand r.model 4 = true → s.stepUnitsOut r = false → s.passCheck r m = .ok →
        let aut := r.automaton.bind (fun n => s.automata.find? (fun a => a.number == n))
        let x : State × List (GState × List Nat) × Bool := match aut with
          | some a => s.draw.treeMasks a d r.tree [] false
          | none => (s.draw, [], false)
        let mask (i : Nat) : Option (List Nat) := match aut with
          | none => none
          | some _ => ((r.tree[i]?).bind (fun n => n.gstate)).bind (fun g => (x.2.1.find? (fun y => y.1 == g)).map (fun y => y.2))
        let w := walkTree r.tree r.depthCap (fun node n => sampleToken r (mask node) ((((r.verified ++ logits).getD node []) ++
          List.replicate (deckVocab d.image) 0x7FC00000).take (deckVocab d.image)) s.fresh (node * 2 ^ 20) n) r.tree.length 0 r.output.length
        let adv := match aut, lastAdvance r.tree w with
          | some a, some (g, t) => s.imageParity a (advanceLines a.image d.image g t).1
          | _, _ => false
        let again := mended || r.stepRecovered || x.2.2 || adv
        w.path.length = w.emitted.length + boolNat (w.dead || w.nan)
        ∧ (∀ i ∈ w.path, i < r.tree.length)
        ∧ (s.stepPart id = 1 → exec (.acceptStep id logits mended) s = .next (s.secondBatch id logits mended))
        ∧ (s.stepPart id ≠ 1 → s.stepCheck (.cmd r.cmd) aut d r.tree w = .ok →
          (w.nan = false → exec (.acceptStep id logits mended) s = .next (x.1.acceptWalk r m d aut r.tree w again))
          ∧ (w.nan = true → exec (.acceptStep id logits mended) s = .next ((((x.1.leaveStep id).bump 0x000B0074).updReq id
              (fun y => { y with recovered := y.recovered || again })).endRequest id 8 St.aborted))))
    ∧ (∀ (m : Model) (d : Deck) ends mended pos (e : Nat × Word), r.ended = none → r.tenant < s.tenants.length →
        let u := s.emitToken id m d ends mended pos e
        u.account r.tenant r.account = { id := r.account, balance := (s.account r.tenant r.account).balance - 256
                                         charged := (s.account r.tenant r.account).charged + 256 }
        ∧ (u.req? id).map (fun x => x.output) = some (r.output ++ [e.1])
        ∧ (u.req? id).map (fun x => x.decodeCharged) = some (r.decodeCharged + 1) ∧ u.mem = s.mem)
    ∧ (∀ r', r.isParked = true →
        let limit := if 63 < r.hand then s.serving.parkLimit else (s.hand r.hand).parkLimit
        limit ≠ 0 → (63 < r.hand ∨ limit < r.parked) →
        (s.writeRing id).req? id = some r' → r'.isParked = true →
        exec (.ringStall id) s = .next (((((s.writeRing id).bump 0x000B0058).bumpBy 0x000B005C r'.queue.length).updReq id
          (fun x => { x with queue := [], isParked := false })).finishRequest id St.ringStall))
    ∧ (∀ (m : Model) page, s.reqModel r = some m → page < r.pages.length → r.ended = none → exec (.kvRebuild id page) s =
        .next (((s.bump 0x000B0078).recomputeKv m.image (r.pages.getD page 0)).updReq id
          (fun x => { x with stepRecovered := true, recovered := true })))

/-! ### Embedding tables (11) -/

/-- A lookup asks each owner once and completes when every request is answered, rows present written in index order with their bitmap; an
owner answers LOOKUP_REQ from its rows; an answer nobody waits for is counted (11 R281 to R288).

Rows that complete here: EMB_LOOKUP, GATHER_LOOKUP, LOOKUP_REQ, LOOKUP_RSP, SKETCH_HALVE. -/
def Obligations.EmbeddingLookups : Prop :=
  ∀ (s : State),
    (∀ (h k q : Nat) (c : Cmd) (t : EmbTable), s.cmdAt h 0x0701 0 = some c → c.legacyOp = none →
      let n := c.field 0x14 4
      let ids := embIndices n (s.rd k (8 * n))
      s.tableFor c.tenant (c.field 0x10 1) = some t → 1 ≤ n → n ≤ 16777216 → s.resolve c.tenant (c.field 0x18 8) (8 * n) 8 = some k →
      s.resolve c.tenant (c.field 0x20 8) (embOutBytes t.desc n) 64 = some q → s.poisoned k (8 * n) = false →
      (exec (.embLookup h) s = .next ((s.updCmd h (fun c => { c with stage := 1 })).startLookup (.cmd h) c.tenant true t ids (c.field 0x20 8)))
      ∧ (let pass := (embPass [] [] ids).1
        (∃ i ∈ pass, i < embRows t.desc ∧ t.owner i ≠ s.me ∧ s.inCell (t.owner i) = true) → embFrozen t.desc = false →
          s.table? t.number = some t → (∀ i ∈ pass, i ∉ t.unbuilt) →
          (∀ y ∈ s.embed.waiting, y.batch ≠ s.embed.nextBatch ∧ y.batch ≠ (s.embed.nextBatch + 1) % 2 ^ 32) →
          ∃ u x, exec (.embLookup h) s = .next u ∧ u.embed.waiting = s.embed.waiting ++ [x] ∧ x.batch = (s.embed.nextBatch + 1) % 2 ^ 32
            ∧ x.who = .cmd h ∧ x.indices = ids ∧ x.update = false ∧ x.pass = pass ∧ x.pass ++ x.rest = ids ∧ u.mem = s.mem
            ∧ (∀ i ∈ pass, i < embRows t.desc → t.owner i ≠ s.me → s.inCell (t.owner i) = true →
                ∃ a ∈ x.asked, a.1 = t.owner i ∧ i ∈ a.2.2)
            ∧ (∀ i w, (i, w) ∈ x.got → i ∈ pass ∧ t.owner i = s.me ∧ t.present i = some w)))
    ∧ (∀ (k : IssueKey) (u : UnitIssue) (t : EmbTable), s.AtUnit k 7 1 u →
      let b := u.body
      let n := fieldOf b 4 4
      s.tableFor u.tenant (fieldOf b 0 2) = some t → 1 ≤ n → n ≤ 16777216 → fieldOf b 2 2 = 0 → fieldOf b 0x18 8 = 0 → bodyTailZero u 0x20 = true →
      s.unitCheck u .load (fieldOf b 8 8) (8 * n) 8 = .ok → s.unitCheck u .store (fieldOf b 0x10 8) (embOutBytes t.desc n) 64 = .ok →
      exec (.gatherLookup k) s = .next ((s.beginIssue k).startLookup (.issue k) u.tenant u.stock t
        (embIndices n (s.rdTva u.tenant u.stock (fieldOf b 8 8) (8 * n))) (fieldOf b 0x10 8)))
    ∧ (∀ (msg : List Byte) (old t : EmbTable), s.takes 1 msg = true → s.table? (fieldOf msg 1 1) = some old → old.digest.toNat = fieldOf msg 8 8 →
      let n := fieldOf msg 4 4
      let ids := embIndices n (msg.drop 64)
      let w := (s.rebuildRows (fieldOf msg 1 1) ids).1
      ((∀ i ∈ ids, i ∉ old.unbuilt) → w = s) ∧ (w.table? (fieldOf msg 1 1) = some t → t.digest = old.digest →
      let rows := ids.map (fun i => if t.owner i = s.me then t.present i else none)
      let found := (rows.filter Option.isSome).length
      exec (.lookupReq msg) s = .next (w.send (fieldOf msg 2 1) 1 (embHeader 2 (fieldOf msg 1 1) s.me (fieldOf msg 2 1) n (fieldOf msg 8 8) 0
        (fieldOf msg 0x18 4) (fieldOf msg 0x1C 2) 0 found (n - found) ++ embBitmap (ceilDiv n 64 * 8) (rows.map Option.isSome)
        ++ rows.flatMap (fun r => match r with | some y => embOutRow t.desc y | none => [])))))
    ∧ (∀ (msg : List Byte) (x : Exchange) (a : Nat × Nat × List Nat), s.takes 2 msg = true →
        s.embed.waiting.find? (fun y => y.batch == fieldOf msg 0x18 4 && !y.update) = some x →
        x.asked.find? (fun a => a.1 == fieldOf msg 2 1 && a.2.1 == fieldOf msg 0x1C 2) = some a →
        let rows := embAnswers x.desc (msg.drop 64) a.2.2.length a.2.2 0 0
        let w := s.updExchange x.batch (fun y => { y with
          asked := y.asked.filter (fun b => !(b.1 == fieldOf msg 2 1 && b.2.1 == fieldOf msg 0x1C 2)), got := y.got ++ rows })
        ((embDigest x.desc).toNat ≠ fieldOf msg 8 8 → exec (.lookupRsp msg) s = .next (s.bump 0x000C0034))
        ∧ ((embDigest x.desc).toNat = fieldOf msg 8 8 → (∀ t, s.table? x.table = some t → embFrozen t.desc = false) →
          exec (.lookupRsp msg) s = .next (w.settleExchange x.batch))
        ∧ (∀ t, (embDigest x.desc).toNat = fieldOf msg 8 8 → s.table? x.table = some t → embFrozen t.desc = true → t.desc = x.desc →
          exec (.lookupRsp msg) s = .next ((rows.foldl (fun s r => s.cacheAdmit x.table r.1) (w.updTable t.number (fun y => { y with
            remote := y.remote.filter (fun g => !rows.any (fun r => r.1 == g.1)) ++ rows }))).settleExchange x.batch)))
    ∧ (∀ msg : List Byte, s.takes 2 msg = true → (∀ y ∈ s.embed.waiting, y.batch ≠ fieldOf msg 0x18 4) →
        (∀ t, s.table? (fieldOf msg 1 1) = some t → t.digest.toNat = fieldOf msg 8 8) →
        exec (.lookupRsp msg) s = .next (s.bump 0x00100034))
    ∧ (s.embed.accesses < 2 ^ s.embed.sketchShift → exec .sketchHalve s = .next s)
    ∧ (2 ^ s.embed.sketchShift ≤ s.embed.accesses → 
        ∃ u, exec .sketchHalve s = .next u ∧ u = { s with embed := u.embed } ∧ u.embed.accesses = s.embed.accesses - 2 ^ s.embed.sketchShift
          ∧ (sparseWf 0 0 s.embed.sketch = true → ∀ i, sparseGet 0 i u.embed.sketch = sparseGet 0 i s.embed.sketch / 2))

/-- An update that passes its checks goes to every owner; an owner takes a batch once, drops what is late and counts what is foreign, and
answers when the CLOSE arrives; a step applies once every participant has closed it; a checkpoint that fell due is taken or skipped and
replaces the older one when it is complete (11 R289 to R296).

Rows that complete here: EMB_UPDATE, GATHER_UPDATE, UPDATE, UPDATE_ACK, LOAD, EMB_CHECKPOINT, EMB_CHECKPOINT_DONE. -/
def Obligations.EmbeddingUpdates : Prop :=
  ∀ (s : State) (t : EmbTable),
    (∀ (h dk ik : Nat) (c : Cmd), s.cmdAt h 0x0702 0 = some c → s.tableFor c.tenant (c.field 0x10 1) = some t →
      let n := c.field 0x14 4
      let len := embDataBytes t.desc n (fieldOf (s.rd dk 64) 4 1 == 1)
      let u : EmbUpdate := { n := n, step := c.field 0x28 8, block := s.rd dk 64, indices := embIndices n (s.rd ik (8 * n))
                             payload := s.rd (dk + 64) (len - 64) }
      s.resolve c.tenant (c.field 0x20 8) 64 64 = some dk → s.resolve c.tenant (c.field 0x20 8) len 64 = some dk →
      s.resolve c.tenant (c.field 0x18 8) (8 * n) 8 = some ik → n ≤ 16777216 → s.poisoned ik (8 * n) = false → s.poisoned dk len = false →
      (s.embUpdateBad t u = true → exec (.embUpdate h) s = .next (s.complete h St.badParam 0 0 0))
      ∧ (s.embUpdateBad t u = false → exec (.embUpdate h) s =
          .next ((s.updCmd h (fun c => { c with stage := 1 })).startUpdate (.cmd h) c.tenant true t u)))
    ∧ (∀ (k : IssueKey) (u : UnitIssue), s.AtUnit k 7 2 u →
      let b := u.body
      let n := fieldOf b 4 4
      let block := s.rdTva u.tenant u.stock (fieldOf b 0x10 8) 64
      let len := embDataBytes t.desc n (fieldOf block 4 1 == 1)
      let up : EmbUpdate := { n := n, step := fieldOf b 0x18 8, block := block
                              indices := embIndices n (s.rdTva u.tenant u.stock (fieldOf b 8 8) (8 * n))
                              payload := s.rdTva u.tenant u.stock (fieldOf b 0x10 8 + 64) (len - 64) }
      s.tableFor u.tenant (fieldOf b 0 2) = some t → n ≤ 16777216 → fieldOf b 2 2 = 0 → bodyTailZero u 0x20 = true →
      s.unitCheck u .load (fieldOf b 0x10 8) 64 64 = .ok → s.unitCheck u .load (fieldOf b 8 8) (8 * n) 8 = .ok →
      s.unitCheck u .load (fieldOf b 0x10 8) len 64 = .ok →
      (s.embUpdateBad t up = true → exec (.gatherUpdate k) s = .next (s.finishIssue k St.badParam 0))
      ∧ (s.embUpdateBad t up = false → exec (.gatherUpdate k) s = .next ((s.beginIssue k).startUpdate (.issue k) u.tenant u.stock t up)))
    ∧ (∀ (msg : List Byte),
      let num := fieldOf msg 1 1
      let src := fieldOf msg 2 1
      let n := fieldOf msg 4 4
      let step := fieldOf msg 0x10 8
      let key := (src, step, fieldOf msg 0x1C 2)
      let made (acc drop : Nat) (shed late dup : Bool) : EmbTaken := { accepted := acc, dropped := drop, shed := shed, late := late, dup := dup }
      ((s.table? num = none ∨ (s.table? num = some t ∧ t.digest.toNat ≠ fieldOf msg 8 8)) →
          let u := (s.bump 0x000C0034).embAnswer msg (made 0 n false false false)
          (s.takes 3 msg = true → exec (.update msg) s = .next u) ∧ (s.takes 5 msg = true → exec (.load msg) s = .next u))
      ∧ (s.table? num = some t → t.digest.toNat = fieldOf msg 8 8 → key ∈ t.seen →
          let u := (s.bump 0x000C0044).embAnswer msg (made 0 0 false false true)
          (s.takes 3 msg = true → exec (.update msg) s = .next u) ∧ (s.takes 5 msg = true → exec (.load msg) s = .next u))
      ∧ (s.table? num = some t → t.digest.toNat = fieldOf msg 8 8 → key ∉ t.seen → step ≤ t.applied →
          let u := ((s.bumpBy 0x000C0040 n).updTable num (fun x => { x with seen := x.seen ++ [key] })).embAnswer msg (made 0 n false true false)
          (s.takes 3 msg = true → exec (.update msg) s = .next u) ∧ (s.takes 5 msg = true → exec (.load msg) s = .next u))
      ∧ (s.table? num = some t → t.digest.toNat = fieldOf msg 8 8 → key ∉ t.seen → t.applied < step →
          let open' : OpenStep := (t.steps.find? (fun o => o.step == step)).getD
            { step := step, lr := BitVec.ofNat 32 (Config.free s.fresh 0), participants := BitVec.ofNat 64 (Config.free s.fresh 1)
              closes := [], sums := [], rows := [], shed := [] }
          let closes := if bitAt (fieldOf msg 0x1E 1) 0 && !open'.closes.contains src then open'.closes ++ [src] else open'.closes
          let put (w : State) (o : OpenStep) : State := (w.putTable { t with
            steps := t.steps.filter (fun x => x.step ≠ step) ++ [o], seen := t.seen ++ [key] }).applySteps num (t.steps.length + 1)
          let sums := (embBatchOf t s.me 3 msg).sums
          let rows := (embBatchOf t s.me 5 msg).rows
          let room := s.embFit t (t.rows.map (fun r => r.id) ++ t.steps.flatMap (fun o => o.rows.map (fun x => x.2.id))) rows
          (src ∈ open'.shed →
            let u := (put (s.draw.bumpBy 0x000C003C n) { open' with closes := closes }).embAnswer msg (made 0 n true false false)
            (s.takes 3 msg = true → exec (.update msg) s = .next u) ∧ (s.takes 5 msg = true → exec (.load msg) s = .next u))
          ∧ (src ∉ open'.shed → s.takes 3 msg = true →
            (2 ^ 29 < s.combineUsed + sums.length * embEntry t.desc false → exec (.update msg) s =
              .next ((put ((s.draw.bump 0x000C0038).bumpBy 0x000C003C (n + (open'.shedOf src).2)) (open'.shedOf src).1).embAnswer msg
                (made 0 (n + (open'.shedOf src).2) true false false)))
            ∧ (s.combineUsed + sums.length * embEntry t.desc false ≤ 2 ^ 29 → exec (.update msg) s =
              .next ((put (s.draw.bumpBy 0x000C0048 0) { open' with
                sums := open'.sums ++ sums.map (fun x => (src, x.1, x.2)), closes := closes }).embAnswer msg
                  (made sums.length (n - sums.length) false false false))))
          ∧ (src ∉ open'.shed → s.takes 5 msg = true →
            (2 ^ 29 < s.combineUsed + rows.length * embEntry t.desc true → exec (.load msg) s =
              .next ((put ((s.draw.bump 0x000C0038).bumpBy 0x000C003C (n + (open'.shedOf src).2)) (open'.shedOf src).1).embAnswer msg
                (made 0 (n + (open'.shedOf src).2) true false false)))
            ∧ (s.combineUsed + rows.length * embEntry t.desc true ≤ 2 ^ 29 → exec (.load msg) s =
              .next ((put (s.draw.bumpBy 0x000C0048 (rows.length - room.length)) { open' with
                rows := open'.rows ++ room.map (fun r => (src, r)), closes := closes }).embAnswer msg
                  (made (rows.length - (rows.length - room.length)) (n - rows.length + (rows.length - room.length)) false false false)))))
      ∧ (∀ k : EmbTaken,
          let z := s.embAnswer msg k
          let sum := (s.tallyOf msg).add k
          (bitAt (fieldOf msg 0x1E 1) 0 = false → z = { s with embed := z.embed } ∧ z.tallyOf msg = sum ∧ z.embed.tables = s.embed.tables)
          ∧ (bitAt (fieldOf msg 0x1E 1) 0 = true → ∃ flags, z = ({ s with embed := z.embed } : State).send src 1 (embHeader 4 num s.me src 0
              (fieldOf msg 8 8) step (fieldOf msg 0x18 4) (fieldOf msg 0x1C 2) flags sum.accepted sum.dropped)
            ∧ (bitAt flags 1 = sum.shed ∧ bitAt flags 2 = sum.late ∧ bitAt flags 3 = sum.dup) ∧ ∀ x ∈ z.embed.tally, EmbTally.isOf msg x = false)))
    ∧ (∀ (msg : List Byte) (x : Exchange), s.takes 4 msg = true →
        s.embed.waiting.find? (fun y => y.update && y.batch == fieldOf msg 0x18 4 && has (fun o => o.1 == fieldOf msg 2 1) y.owners) = some x →
        ((embDigest x.desc).toNat ≠ fieldOf msg 8 8 → exec (.updateAck msg) s = .next (s.bump 0x000C0034))
        ∧ ((embDigest x.desc).toNat = fieldOf msg 8 8 → exec (.updateAck msg) s = .next ((s.updExchange x.batch (fun y => { y with
          owners := y.owners.filter (fun o => o.1 ≠ fieldOf msg 2 1)
          accepted := y.accepted + fieldOf msg 0x20 4
          dropped := y.dropped || fieldOf msg 0x24 4 ≠ 0 })).settleExchange x.batch)))
    ∧ (∀ o, s.stepDue t = some o → o ∈ t.steps ∧ (∀ p ∈ t.steps, o.step ≤ p.step)
        ∧ ((∀ m, bitAt o.participants.toNat m = true → m < 64 → s.inCell m = true → m ∈ o.closes) ∨ ∃ p ∈ t.steps, o.step + 2 ≤ p.step))
    ∧ (∀ due, s.table? t.number = some t → t.ckptDue = some due → t.ckptNew = none →
        let blocks := t.genBlocks s.fresh (t.ckptGen + 1) due
        let room := (s.tenant t.tenant).t2.fits (sumNat (blocks.map (fun x => x.2.charge)))
        let skip (w : State) : State := (w.bump 0x000C0050).updTable t.number (fun x => { x with ckptDue := none })
        (room = false ∨ s.flash.stopped = true → exec (.embCheckpoint t.number) s = .next (skip s.draw))
        ∧ (room = true → s.flash.stopped = false → s.mediaRefuses = true →
            exec (.embCheckpoint t.number) s = .next (skip (s.draw.bump 0x000E0058)))
        ∧ (room = true → s.flash.stopped = false → s.mediaRefuses = false → ∀ z, s.draw.mediaPuts t.tenant blocks = (z, blocks.length) →
            exec (.embCheckpoint t.number) s = .next (z.updTable t.number (fun x => { x with ckptDue := none, ckptNew := some due }))
              ∧ z.embed = s.embed ∧ z.mem = s.mem ∧ z.seats = s.seats))
    ∧ (∀ new, s.table? t.number = some t → t.ckptNew = some new → exec (.embCheckpointDone t.number) s =
        .next ((s.mediaFree (isGen t.number t.ckptGen)).updTable t.number
          (fun x => { x with ckptNew := none, ckpt := new, ckptGen := x.ckptGen + 1 })))

/-! ### Memory tiers and media (12, 13) -/

/-- FETCH makes blocks resident and WRITEBACK writes them home and leaves them clean, COUNT giving the blocks moved; each class of tier work
takes its turn; a demand for an absent page is queued, and its completion, in arrival order, brings the page in from its home and resumes its
waiters; a line whose tag failed is repaired from its source, or poisoned; QUOTA_SET sets one limit (12 R308, R311 to R313, R319).

Rows that complete here: DEMAND_FETCH, FETCH_COMPLETE, TIER_FETCH, TIER_WRITEBACK, T1_LINE_REPAIR_DONE, QUOTA_SET. -/
def Obligations.TiersAndQuotas : Prop :=
  ∀ (s : State),
    (∀ (k : IssueKey) (u : UnitIssue), s.AtUnit k 6 1 u → s.tierTurn k 1 = true →
      (s.tierBlocks u = none → exec (.tierFetch k) s = .next ((s.finishIssue k St.badParam 0).settleEvictions))
      ∧ (∀ l, s.tierBlocks u = some l →
        let todo := l.filter (fun x => !x.present)
        ((∃ x ∈ todo, s.frameStalls x.tenant x.block = true) → exec (.tierFetch k) s = .next s)
        ∧ ((∀ x ∈ todo, s.frameStalls x.tenant x.block = false) → (s.tenant u.tenant).t1.fits (sumNat (todo.map (fun x => x.bytes))) = true →
          exec (.tierFetch k) s = .next ((((s.fetchBlocks todo 0).1.finishIssue k (s.fetchBlocks todo 0).2.1
            (s.fetchBlocks todo 0).2.2)).settleEvictions)
          ∧ (todo = [] → exec (.tierFetch k) s = .next ((s.finishIssue k St.ok 0).settleEvictions))
          ∧ (∀ x, todo = [x] → s.pageLost x.tenant x.block = false → s.pageBad x.tenant x.block = false →
              exec (.tierFetch k) s = .next (((s.bringIn x false).1.finishIssue k St.ok 1).settleEvictions))
          ∧ (∀ x, todo = [x] → s.pageLost x.tenant x.block = true →
              exec (.tierFetch k) s = .next (((s.countPageLost x.tenant x.block).finishIssue k St.aborted 0).settleEvictions)))))
    ∧ (∀ (x : TBlock), s.Inv → s.block? x.tenant x.block = some x →
        let w := (s.bringIn x false).1
        w.block? x.tenant x.block = some { x with present := true, dirty := false }
          ∧ w.counter 0x000D0000 = min (s.counter 0x000D0000 + 1) (2 ^ 64 - 1) ∧ w.flash = s.flash
          ∧ (∀ a, ¬ (s.frameKey x.tenant x.block ≤ a ∧ a < s.frameKey x.tenant x.block + 65536) → memGet w.mem a = memGet s.mem a))
    ∧ (∀ k, (s.tierTurn k 1 = false → exec (.tierFetch k) s = .next s) ∧ (s.tierTurn k 2 = false → exec (.tierWriteback k) s = .next s))
    ∧ (∀ (k : IssueKey) (u : UnitIssue), s.AtUnit k 6 2 u → s.tierTurn k 2 = true →
      (s.tierBlocks u = none → exec (.tierWriteback k) s = .next ((s.finishIssue k St.badParam 0).settleEvictions))
      ∧ (∀ l, s.tierBlocks u = some l → (s.flash.stopped = false ∨ ∀ x ∈ l, x.dirty = true → x.home = 3) →
          let dirty := l.filter (fun x => x.dirty)
          exec (.tierWriteback k) s = .next (((s.writeBlocks dirty 0).1.finishIssue k (s.writeBlocks dirty 0).2.1
            (s.writeBlocks dirty 0).2.2).settleEvictions)
          ∧ (dirty = [] → exec (.tierWriteback k) s = .next ((s.finishIssue k St.ok 0).settleEvictions))
          ∧ (∀ x z, dirty = [x] → s.writebackRefused x = false → s.writeHome x = (z, St.ok) → exec (.tierWriteback k) s =
              .next ((((z.bump64 0x000D0008 1).updBlock x.tenant x.block (fun y => { y with dirty := false })).finishIssue k St.ok 1).settleEvictions))))
    ∧ (∀ t b, s.up = true → s.canon t b = b →
      let key := s.frameKey t b
      (s.absentAt t b = true → s.dieLost (bits (s.ptEntry t 0 (65536 * b)).toNat 10 9) = false → (t, b) ∉ s.tier.queue →
          exec (.demandFetch t b) s = .next ((s.updTier (fun z => { z with
            queue := z.queue ++ [(t, b)], failed := z.failed.filter (fun x => !(x.tenant == t && x.block == b)) })).bump64 0x000D0010 1))
      ∧ (s.tier.queue.head? ≠ some (t, b) → ∀ ok, exec (.fetchComplete t b ok) s = .next s)
      ∧ (s.tier.queue.head? = some (t, b) → s.absentAt t b = true → s.frameStalls t b = true → ∀ ok, exec (.fetchComplete t b ok) s = .next s)
      ∧ (s.tier.queue.head? = some (t, b) → s.absentAt t b = true → s.frameStalls t b = false → s.pageLost t b = true →
          ∀ ok, exec (.fetchComplete t b ok) s = .next (((s.countPageLost t b).failFetch t b St.aborted).settleEvictions))
      ∧ (s.tier.queue.head? = some (t, b) → s.absentAt t b = true → s.frameStalls t b = false → s.pageLost t b = false →
        (∀ x : TBlock, s.block? t b = some x → x.home ≠ 3 → (s.tenant t).t1.fits x.bytes = true → exec (.fetchComplete t b true) s =
            .next (((s.bringIn x false).1.updTier (fun z => { z with queue := z.queue.filter (fun q => q ≠ (t, b)) })).settleEvictions))
        ∧ (∀ o, s.block? t b = none → s.pageHolds t b = .object o → exec (.fetchComplete t b true) s =
            .next ((((((s.wrPage key [(0, s.pageSource t b)]).setPresent t b true).wakePage t b).bump64 0x000D0000 1).updTier
              (fun z => { z with queue := z.queue.filter (fun q => q ≠ (t, b)) })).settleEvictions))
        ∧ (∀ f, s.block? t b = none → s.pageHolds t b = .kv f → ∀ ok, exec (.fetchComplete t b ok) s =
            .next ((((s.rebuildFrame f).wakePage t b).updTier (fun z => { z with queue := z.queue.filter (fun q => q ≠ (t, b)) })).settleEvictions))))
    ∧ (∀ line, s.up = true →
      let c := s.bump 0x000D0018
      (∀ t b, c.lineHolds line = .page t b →
        (∀ o, c.pageHolds t b = .object o → c.sourceless t b = false → c.pageLost t b = false → c.pageBad t b = false →
          exec (.t1LineRepairDone line) s =
            .next (((c.bump 0x000D001C).wrPage (c.frameKey t b) [(0, c.pageSource t b)]).recoverPage t b))
        ∧ (∀ o, c.pageHolds t b = .object o → c.sourceless t b = true → exec (.t1LineRepairDone line) s = .next (c.poisonLine line))
        ∧ (∀ f, c.pageHolds t b = .kv f → exec (.t1LineRepairDone line) s = .next (c.rebuildFrame f)))
      ∧ (∀ t id, c.lineHolds line = .row t id → exec (.t1LineRepairDone line) s = .next (c.revertRow t id))
      ∧ (c.lineHolds line = .other → exec (.t1LineRepairDone line) s = .next (c.poisonLine line)
          ∧ line ∈ (c.poisonLine line).tier.poison))
    ∧ (∀ h c, s.cmdAt h 0x0303 0 = some c →
      let t := c.field 0x10 1
      let limit := c.field 0x14 4
      (s.tenant t).reset = none → t ≤ 63 → (s.tenant t).live = true → c.field 0x12 2 = 0 → c.field 0x18 8 = 0 →
      (c.field 0x11 1 = 2 → sumNat ((List.range 64).map (fun i => if i = t then limit else (s.tenant i).t2.limit)) * 65536 ≤ s.variant.mediaBytes →
          exec (.quotaSet h) s = .next ((s.updTenant t (fun x => { x with t2 := { x.t2 with limit := limit } })).complete h St.ok 0 0 0))
      ∧ (c.field 0x11 1 = 1 → sumNat ((List.range 64).map (fun i => if i = t then limit else (s.tenant i).t1.limit)) ≤ s.tier.assignable →
          exec (.quotaSet h) s = .next ((((s.updTenant t (fun x => { x with t1 := { x.t1 with limit := limit } })).complete h St.ok 0 0 0).updTier
            (fun z => { z with evicting := z.evicting.filter (· ≠ t) ++ [t] })).settleEvictions))
      ∧ (c.field 0x11 1 = 1 → s.tier.assignable < sumNat ((List.range 64).map (fun i => if i = t then limit else (s.tenant i).t1.limit)) →
          exec (.quotaSet h) s = .next (s.complete h St.badParam 0 0 0))
      ∧ ((c.field 0x11 1 = 0 ∨ 3 < c.field 0x11 1) → exec (.quotaSet h) s = .next (s.complete h St.badParam 0 0 0)))

/-- The media commands check their range, keep order over what they touch, and write, read or trim whole blocks; media that come to
refuse writes midway keep the blocks written, and the command answers MEDIA_SEALED; MEDIA_UNSEAL clears a seal only above its reserve (13 R328, R329, R337, R349, R351, R353).

Rows that complete here: MEDIA_WRITE, MEDIA_READ, MEDIA_TRIM, MEDIA_UNSEAL. -/
def Obligations.MediaCommands : Prop :=
  ∀ (s : State) (h : Nat) (c : Cmd), c.legacyOp = none →
    let off := c.field 0x10 8
    let len := c.field 0x18 4
    let buf := c.field 0x20 8
    let blocks := (List.range (ceilDiv len 65536)).map (fun i => off / 65536 + i)
    let mine (o : Owner) : Bool := blocks.any (fun b => isSpace c.tenant b o)
    let bad := off % 65536 ≠ 0 ∨ 2 ^ 48 < off + len ∨ len = 0 ∨ 2 ^ 30 < len
    (s.cmdAt h 0x0801 0 = some c → s.mediaBlocked c = true → ∀ res, exec (.mediaWrite h res) s = .next s)
    ∧ (s.cmdAt h 0x0801 0 = some c → s.mediaBlocked c = false → bad → ∀ res, exec (.mediaWrite h res) s = .next (s.complete h St.badParam 0 0 0))
    ∧ (∀ key, s.cmdAt h 0x0801 0 = some c → s.mediaBlocked c = false → ¬ bad → s.resolve c.tenant buf len 64 = some key → s.flash.stopped = false →
        (s.tenant c.tenant).t2.used + tierCharges s.fresh blocks.length ≤ (s.tenant c.tenant).t2.limit * 65536 + s.mediaCharge mine →
        (s.mediaRefuses = true → ∀ res, exec (.mediaWrite h res) s = .next ((s.draw.bump 0x000E0058).complete h St.sealed 0 0 0))
        ∧ (s.mediaRefuses = false → s.poisoned key len = false →
          exec (.mediaWrite h .failed) s = .next (((State.failPrograms 3 s.draw).announceFls s).complete h St.aborted 0 0 0)
          ∧ ∃ (u : State) (n : Nat), n ≤ blocks.length
            ∧ exec (.mediaWrite h .done) s = .next (u.complete h (if n < blocks.length then St.sealed else St.ok) n 0 0)
            ∧ (∀ i < n, ∃ e ∈ u.flash.extents, e.owner = .space c.tenant (off / 65536 + i) ∧ e.tenant = c.tenant
                ∧ e.stored.data.take (min 65536 (len - 65536 * i)) = ((s.rd key len).drop (65536 * i)).take 65536)
            ∧ (∀ e ∈ s.flash.extents, (∀ i < n, e.owner ≠ .space c.tenant (off / 65536 + i)) → e ∈ u.flash.extents)
            ∧ u.mem = s.mem ∧ u.cmds = s.cmds ∧ u.seats = s.seats))
    ∧ (∀ key, s.cmdAt h 0x0802 0 = some c → ¬ bad → s.resolve c.tenant buf (roundUp len 64 + ceilDiv blocks.length 8) 64 = some key →
        (∀ b ∈ blocks, s.mediaLost (isSpace c.tenant b) = false) → s.Inv → (s.spaceBytes c.tenant off len).length = len →
        ∃ u : State, exec (.mediaRead h) s = .next (u.complete h St.ok blocks.length 0 0) ∧ u.rd key len = s.spaceBytes c.tenant off len
          ∧ SameOutside s u key (roundUp len 64 + ceilDiv blocks.length 8) ∧ u.cmds = s.cmds ∧ u.flash = s.flash)
    ∧ (s.cmdAt h 0x0803 0 = some c → s.mediaBlocked c = false → ¬ bad → buf = 0 →
        ∃ u : State, exec (.mediaTrim h) s = .next (u.complete h St.ok blocks.length 0 0)
          ∧ (∀ b ∈ blocks, u.spaceBlock c.tenant b = List.replicate 65536 0) ∧ (∀ e ∈ u.flash.extents, mine e.owner = false)
          ∧ (∀ e ∈ s.flash.extents, mine e.owner = false → e ∈ u.flash.extents) ∧ u.mem = s.mem ∧ u.cmds = s.cmds)
    ∧ (s.cmdAt h 0x0804 0 = some c →
        (s.flash.sealed = false → exec (.mediaUnseal h) s = .next (s.complete h St.ok 0 0 0))
        ∧ (s.flash.sealed = true → 50 * s.flash.reserve s.variant ≤ s.variant.flashBlocks → exec (.mediaUnseal h) s = .next (s.complete h St.sealed 0 0 0))
        ∧ (s.flash.sealed = true → s.variant.flashBlocks < 50 * s.flash.reserve s.variant → ∃ u : State,
            exec (.mediaUnseal h) s = .next (u.complete h St.ok 0 0 0) ∧ u.flash.sealed = false ∧ u.flash.limited = false ∧ u.mem = s.mem))

/-- The flash's own events: a page of journal becomes durable, a checkpoint switches slots, a read counts toward its block and queues or
loses it, a failed program retires its block, a die that fails rebuilds and then is FAILED, a patrol step moves on, and a supply warning
flushes the journal (13 R331 to R347, R352).

Rows that complete here: JOURNAL_PROGRAM, MAP_CHECKPOINT, NAND_READ_DONE, NAND_PROGRAM_DONE, DIE_FAIL, DIE_REBUILD_DONE, PATROL_STEP,
HOLDUP_FLUSH. -/
def Obligations.FlashEvents : Prop :=
  ∀ (s : State),
    (∀ n, n = 512 * s.variant.flashChannels → s.flash.stopped = false → n ≤ s.flash.journal.length →
        ∃ u, exec (.journalProgram .done) s = .next u ∧ u = { s with flash := u.flash } ∧ u.flash.durable ++ u.flash.journal = s.flash.durable ++ s.flash.journal
          ∧ u.flash.journal.length + n = s.flash.journal.length ∧ u.flash.map = s.flash.map)
    ∧ (2 ^ 30 ≤ s.flash.sinceCkpt → s.flash.stopped = false →
        ∃ u, exec .mapCheckpoint s = .next u ∧ u = { s with flash := u.flash } ∧ u.flash.ckptSlot = 1 - s.flash.ckptSlot ∧ u.flash.ckpt = s.ckptNow
          ∧ u.flash.journal = [] ∧ u.flash.sinceCkpt = 0 ∧ u.flash.map = s.flash.map)
    ∧ (∀ lpn ppn cw, s.flash.map.find? (fun x => x.1 == lpn) = some (lpn, .at ppn) →
        let b := s.flash.blk (ppn / 4096)
        ((s.flash.die (ppn / 2 ^ 24)).1 = .good → ∃ u, exec (.nandReadDone lpn .soft cw) s = .next u ∧ u = { s with flash := u.flash, ctr := u.ctr }
          ∧ u.flash.blk (ppn / 4096) = { b with reads := b.reads + 1, queued := true } ∧ u.flash.map = s.flash.map)
        ∧ (∃ u, exec (.nandReadDone lpn .lost cw) s = .next u ∧ (lpn, PageAt.lost) ∈ u.flash.map ∧ (lpn, PageAt.at ppn) ∉ u.flash.map
          ∧ u.mem = s.mem))
    ∧ (∀ b, s.Inv → s.flash.eligible s.variant b = true → (s.flash.blk b).use ≠ .retired →
        ∃ u : State, exec (.nandProgramDone b .failed) s = .next u ∧ (∀ x ∈ u.flash.blks, x.num = b → x.use = .retired) ∧ u.mem = s.mem
          ∧ u.counter 0x000E0050 = min (s.counter 0x000E0050 + 1) 0xFFFFFFFF)
    ∧ (∀ d, d < s.flash.dies.length → (s.flash.die d).1 = .good →
        ∃ u, exec (.dieFail d) s = .next u ∧ (u.flash.die d).1 = .rebuilding ∧ (∀ e, e ≠ d → u.flash.die e = s.flash.die e) ∧ u.mem = s.mem)
    ∧ (∀ d, d < s.flash.dies.length → (s.flash.die d).1 = .rebuilding → s.flash.stopped = false → s.flash.folding = false →
        ∃ u, exec (.dieRebuildDone d) s = .next u ∧ ((u.flash.die d).1 = .failed ∨ u.flash.sealed = true) ∧ u.mem = s.mem ∧ u.seats = s.seats)
    ∧ (∀ corrected, s.flash.stopped = true ∨ s.flash.backWork = true → exec (.patrolStep corrected) s = .next s)
    ∧ (∀ corrected, s.flash.stopped = false → s.flash.backWork = false →
        ∃ u, exec (.patrolStep corrected) s = .next u ∧ u = { s with flash := u.flash }
          ∧ u.flash.patEarly = s.flash.patEarly.drop s.flash.patBlocks
          ∧ u.flash.patNext = (s.flash.patNext + (s.flash.patBlocks - s.flash.patEarly.length)) % s.variant.flashBlocks
          ∧ u.flash.map = s.flash.map)
    ∧ (s.flash.stopped = true → ∃ u, exec .holdupFlush s = .next u ∧ u = { s with flash := u.flash } ∧ u.flash.durable = s.flash.durable ++ s.flash.journal
        ∧ u.flash.journal = [] ∧ u.flash.bufGroup = none ∧ u.flash.qlcGroup = none ∧ u.flash.map = s.flash.map)

/-! ### Failure and recovery (15) -/

/-- A firmware core that misses its watchdog is fenced and replaced from the kitty; a hung active cluster hands over to a ready standby, or
both are reset; a fence raises a generation and refuses one already passed; a hung unit starts its issues again with RECOVERED (15 R391, R392,
R395 to R399, R414). Whether a second hang falls within 2^24 cycles is a free value (notes/assumptions/26.md).

Rows that complete here: CORE_WATCHDOG, CLUSTER_WATCHDOG, FENCE, UNIT_WATCHDOG, CLUSTER_READY, BRIDGE_RETRAIN. -/
def Obligations.FirmwareAndUnitsRecover : Prop :=
  ∀ (s : State), s.fwRuns = true → sparseWf 0 0 s.flt.gens = true →
    (∀ cl core, cl ≤ 1 → core ≤ 7 → 0 < (s.flt.cluster (cl == 1)).kitty →
      ∃ u, exec (.coreWatchdog cl core) s = .next u
        ∧ u.flt.cluster (cl == 1) = { (s.flt.cluster (cl == 1)) with kitty := (s.flt.cluster (cl == 1)).kitty - 1 }
        ∧ u.flt.cluster (cl != 1) = s.flt.cluster (cl != 1)
        ∧ u.generation (holderId 4 (8 * cl + core)) = (s.generation (holderId 4 (8 * cl + core)) + 1) % 65536 ∧ u.mem = s.mem ∧ u.seats = s.seats)
    ∧ (∀ cl, cl ≤ 1 →
      (s.flt.activeB = (cl == 1) → s.flt.standbyOk = true → ∃ u, exec (.clusterWatchdog cl) s = .next u ∧ u.flt.activeB = !s.flt.activeB
        ∧ u.flt.standbyOk = false ∧ u.flt.sticky = s.flt.sticky ||| 1 ∧ u.mem = s.mem ∧ u.seats = s.seats)
      ∧ (s.flt.activeB = (cl != 1) → ∃ u, exec (.clusterWatchdog cl) s = .next u ∧ u.flt.activeB = s.flt.activeB ∧ u.flt.standbyOk = false
        ∧ u.cmds = s.cmds ∧ u.mem = s.mem)
      ∧ (s.flt.activeB = (cl == 1) → s.flt.standbyOk = false → s.flt.failedResets < 2 → ∃ u, exec (.clusterWatchdog cl) s = .next u
        ∧ u.flt.failedResets = s.flt.failedResets + 1 ∧ u.flt.fwResets = min 255 (s.flt.fwResets + 1) ∧ u.flt.sticky = s.flt.sticky ||| 2
        ∧ u.mem = s.mem)
      ∧ (s.flt.activeB = (cl != 1) → exec (.clusterReady cl) s =
          .next ((s.updFlt (fun f => { f with standbyOk := true, failedResets := 0 })).announceFlt s)))
    ∧ (∀ (h g : BitVec 16), h.toNat / 4096 ≤ 8 →
      (s.generation h.toNat < g.toNat → let u := s.fenceTo h.toNat g.toNat
        exec (.fence h g) s = .next (u.reclaim h.toNat) ∧ u.generation h.toNat = g.toNat ∧ u.flt.lastHolder = h
        ∧ u.flt.lastGen = g ∧ (∀ k, k ≠ h.toNat → u.generation k = s.generation k) ∧ u.mem = s.mem)
      ∧ (g.toNat < s.generation h.toNat → exec (.fence h g) s = .next (s.fltBump 0x000F0030 h.toNat 0 g.toNat))
      ∧ (g.toNat = s.generation h.toNat → exec (.fence h g) s = .next s))
    ∧ (∀ unit, s.fitted unit = true → 4 ≤ unit → unit ≤ 14 → s.unitBusy unit = true → (∀ p ∈ s.flt.units, p.unit ≠ unit) →
        (unit ≤ 7 → s.flt.sLost = false) →
        ∃ u, exec (.unitWatchdog unit) s = .next u
          ∧ (unit ≠ 12 → u.issues = updWhere (fun x => issueBit x.unit == unit) (fun x => { x with recovered := true }) s.issues)
          ∧ u.issues.map (fun x => x.key) = s.issues.map (fun x => x.key) ∧ (∀ x ∈ u.issues, issueBit x.unit = unit → x.recovered = true)
          ∧ u.flt.units = s.flt.units ++ [{ unit := unit, out := false }] ∧ u.flt.sticky = s.flt.sticky ||| 0x10 ∧ u.mem = s.mem)
    ∧ (∀ a b, exec (.bridgeRetrain a b) s = .next s)

/-- A lost T1 channel is absorbed by its die while that can; a lost M-die quarantines its seats; without the S-die search goes on and no list
stays in the pot; a third phase caps the module at 400 W and a second converter at 640 W (12 R309, 15 R400 to R405).

Rows that complete here: CHANNEL_LOSS, CHANNEL_REHOME_DONE, DIE_LOSS, S_DIE_LOSS, PHASE_LOSS, CONVERTER_LOSS. -/
def Obligations.ChannelsDiesAndSupply : Prop :=
  ∀ (s : State), s.fwRuns = true →
    (∀ ch, ch / 32 < s.tier.dies.length →
      let d := ch / 32
      let x := s.tier.dies.getD d { lost := [], homing := [], beyond := 0 }
      ch % 32 < s.variant.channels d → s.dieLost d = false → ch ∉ x.lost → x.lost.length - x.beyond < (if s.variant.channels d = 32 then 2 else 1) →
      ∃ u, exec (.channelLoss ch true) s = .next u ∧ u.tier.dies[d]? = some { x with lost := x.lost ++ [ch], homing := x.homing ++ [ch] }
        ∧ u.tier.poison = s.tier.poison ∧ u.pt = s.pt ∧ u.mem = s.mem ∧ u.flt.sticky = s.flt.sticky ||| 8)
    ∧ (∀ ch, exec (.channelRehomeDone ch) s = .next (s.updTier (fun z => { z with dies := z.dies.map (fun x => { x with
        homing := x.homing.filter (fun c => c ≠ ch) }) })).wakeHoming)
    ∧ (∀ d, (1 < d ∨ s.variant.seatFitted (88 * d) = false ∨ s.dieLost d = true → exec (.dieLoss d) s = .next s)
        ∧ (d ≤ 1 → s.variant.seatFitted (88 * d) = true → s.dieLost d = false → ∃ u, exec (.dieLoss d) s = .next u ∧ u.dieLost d = true))
    ∧ (∀ d, d ≤ 1 → s.variant.seatFitted (88 * d) = true → s.dieLost d = false → s.cmds = [] → s.invs = [] → s.serving.reqs = [] → s.pipes = [] →
        ∃ u, exec (.dieLoss d) s = .next u ∧ u.dieLost d = true
          ∧ ∀ g, g / 88 = d → g < s.seats.length → (u.seat g).mode = .quarantined ∧ (u.seat g).hand = 0 ∧ (u.seat g).inv = none)
    ∧ (s.variant ≠ .v9706 → s.flt.sLost = false → ∃ u, exec .sDieLoss s = .next u ∧ u.flt.sLost = true
        ∧ ∀ x ∈ u.colls, ∀ y ∈ x.lists, y.place ≠ .cached)
    ∧ (∀ rail, sparseWf 0 0 s.flt.phasesLost = true →
      let n := sparseGet 0 rail s.flt.phasesLost + 1
      ∃ u, exec (.phaseLoss rail) s = .next u ∧ sparseGet 0 rail u.flt.phasesLost = n
        ∧ u.power = { s.power with activeW := if 3 ≤ n then min s.power.activeW 400 else s.power.activeW } ∧ u.mem = s.mem ∧ u.seats = s.seats
        ∧ u.mgmt.alert = true)
    ∧ (s.flt.converters < 4 → ∃ u, exec .converterLoss s = .next u ∧ u.flt.converters = s.flt.converters + 1
        ∧ u.power = { s.power with activeW := if 1 ≤ s.flt.converters then min s.power.activeW 640 else s.power.activeW } ∧ u.mem = s.mem)

/-! ### Links and the cell (16) -/

/-- Training gives a link the state its first heartbeats decide; a link that fails goes DOWN and tries again; a lost lane degrades it and a
spare restores it; three missed heartbeats bring it down and it retrains (16 R426, R427).

A membership with an epoch above the own one is applied and any other is counted; a member lost to this module is noted; the coordinator
removes one that leaves; a knock, receiver detection or an SMBus transaction wakes a folded module and no other (16 R429 to R433, 19 R514).

Rows that complete here: LINK_TRAINED, HEARTBEAT_TIMEOUT, LANE_FAIL, SPARE_TRAINED, LINK_RETRAIN_RETRY, PEER_LOST, MEMBERSHIP, KNOCK,
RECEIVER_DETECT, SMBUS_WAKE_TRANSACTION, LEAVE, RETRAIN_FAIL, SPARE_TRAIN_FAIL. -/
def Obligations.LinksMembershipAndWake : Prop :=
  (
    ∀ (s : State) (l : Nat), s.up = true →
      (∀ lanes hb, l ≤ 35 → l < s.cell.links.length → s.powered (80 + l / 4) = true → 1 ≤ lanes → lanes ≤ 2 →
        ((s.link l).mode = .idle ∨ (s.link l).mode = .training ∨ (s.link l).mode = .down) →
        ∃ u, exec (.linkTrained l lanes hb) s = .next u
          ∧ (u.link l).mode = (if s.judgeLink hb = .up ∧ lanes < 2 then .degraded else s.judgeLink hb)
          ∧ (u.link l).peer = fieldOf hb 2 1 ∧ (u.link l).peerSerial = fieldOf hb 0x20 8 ∧ u.mem = s.mem)
      ∧ ((s.link l).mode = .training → exec (.retrainFail l) s = .next (s.updLink l (fun k => { k with mode := .down })))
      ∧ ((s.link l).mode = .down →
          exec (.linkRetrainRetry l true) s = .next ((s.bump (linkReg l 0x14)).updLink l (fun k => { k with mode := .training }))
          ∧ exec (.linkRetrainRetry l false) s = .next (s.bump (linkReg l 0x14)))
      ∧ ((s.link l).trained = true →
          exec (.heartbeatTimeout l) s = .next (((s.bumpBy (linkReg l 0x10) (3 - (s.link l).missed)).linkDown l).announceLnk s))
      ∧ (∀ lane, let k := s.link l
          let works := match lane with | 0 => k.laneA | 1 => k.laneB | 2 => k.spare | _ => false
          let t := ((s.draw.bumpBy (linkReg l 0x0C) (Config.free s.fresh 0 % 2 ^ 24)).bump (linkReg l 0x1C)).updLink l (fun k => match lane with
            | 0 => { k with laneA := false } | 1 => { k with laneB := false } | _ => { k with spare := false })
          (works = false → exec (.laneFail l lane) s = .next s)
          ∧ (k.trained = true → works = true → ((t.link l).laneA || (t.link l).laneB || (t.link l).spare) = true →
            exec (.laneFail l lane) s = .next ((t.updLink l (fun k => { k with
              mode := if k.mode = .up then .degraded else k.mode, offered := !s.cell.sparesUsed.contains (l / 4) })).sendCtrl l))
          ∧ (k.trained = true → works = true → ((t.link l).laneA || (t.link l).laneB || (t.link l).spare) = false →
            exec (.laneFail l lane) s = .next ((t.linkDown l).announceLnk s)))
      ∧ ((s.link l).mode = .degraded → (s.link l).offered = true → (s.link l).peerOffered = true →
          exec (.spareTrained l) s = .next (((s.updLink l (fun k => { k with spare := true, mode := .up, offered := false, peerOffered := false })).bump
            0x0010002C).updCell (fun c => { c with sparesUsed := c.sparesUsed ++ [l / 4] }))
          ∧ exec (.spareTrainFail l) s = .next (((s.updLink l (fun k => { k with offered := false, peerOffered := false })).bump (linkReg l 0x1C)).updCell
            (fun c => { c with sparesUsed := c.sparesUsed ++ [l / 4] })))
      ∧ ((s.link l).mode = .degraded → (s.link l).offered = false → exec (.spareTrained l) s = .next s))
  ∧ (
    ∀ (s : State),
      (∀ msg : List Byte, s.up = true → s.cell.actEnable = true →
        (fieldOf msg 0 4 ≤ s.cell.epoch → exec (.membership msg) s = .next ((s.bump 0x00100034).announceLnk s))
        ∧ (s.cell.epoch < fieldOf msg 0 4 → ∃ u, exec (.membership msg) s = .next u ∧ u.cell.epoch = fieldOf msg 0 4
            ∧ u.cell.members = BitVec.ofNat 64 (fieldOf msg 4 8)
            ∧ (fieldOf msg 12 1 = 0 → fieldOf msg 13 1 = s.me → u.cell.isolated = false)))
      ∧ (∀ m, s.up = true → s.cell.actEnable = true → m ≠ s.me → m ≤ 36 → s.cell.members.getLsbD m = true → s.routeTo m = none →
          s.coordinates = false → m ∉ s.cell.lostMembers →
          let t := s.updCell (fun c => { c with lostMembers := c.lostMembers ++ [m] })
          t.coordinates = false → exec (.peerLost m) s = .next (t.announceLnk s))
      ∧ (∀ m, s.up = true → s.coordinates = true → m ≠ s.me → m ≤ 36 → s.cell.members.getLsbD m = true →
          ∃ u, exec (.leave m) s = .next u ∧ u.cell.members.getLsbD m = false ∧ u.cell.epoch = (s.cell.epoch + 1) % 2 ^ 32
            ∧ ∀ i, i ≠ m → u.cell.members.getLsbD i = s.cell.members.getLsbD i)
      ∧ (∀ l, l < s.variant.links →
        (s.power.phase = .fold → ∀ ins cause link, (ins = .knock l ∧ cause = 3 ∧ link = l) ∨ (ins = .receiverDetect ∧ cause = 1 ∧ link = 0)
            ∨ (ins = .smbusWakeTransaction ∧ cause = 4 ∧ link = 0) →
          ∃ u, exec ins s = .next u ∧ u.power.phase = .bringUp ∧ u.power.kind = 3 ∧ u.power.wakeValid = true ∧ u.power.wakeCause = cause
            ∧ u.power.wakeLink = link ∧ (u.mgmt.wake = decide (3 ≤ cause)))
        ∧ (s.power.phase ≠ .fold → exec (.knock l) s = .next s ∧ exec .receiverDetect s = .next s ∧ exec .smbusWakeTransaction s = .next s)))

/-- A bad or out-of-sequence frame is discarded with one NAK; a good one brings its acknowledgement and credits and acts by TYPE; each trained
link with a credit sends one heartbeat an interval (16 R421 to R425, R428).

Rows that complete here: HEARTBEAT_SEND, HEARTBEAT, DATA, CTRL, NAK. -/
def Obligations.FramesActByType : Prop :=
  ∀ (s : State) (l : Nat) (f : List Byte), s.up = true → l ≤ 35 → (s.link l).trained = true →
    (∀ ins : Instr, ins = .data l f ∨ ins = .ctrl l f ∨ ins = .heartbeat l f ∨ ins = .nak l f → frameOk f = false →
      ((s.link l).nakSent = true → ∃ u, exec ins s = .next u ∧ u = { s with ctr := u.ctr, out := u.out, cxl := u.cxl } ∧ u.cell = s.cell)
      ∧ ((s.link l).nakSent = false → exec ins s = .next ((((s.bump (linkReg l 4)).updLink l (fun k => { k with nakSent := true })).putFrame l 3 0
          s.me (s.link l).peer []).announceLnk s)))
    ∧ (frameOk f = true → (frameType f = 3 ∨ frameSeq f = (s.link l).recvSeq) → frameClass f ≠ 3 → (frameBit f 5 = true → frameDst f = s.me) →
      let t := s.updLink l (fun k => { k.heardFrame f with
        recvSeq := if frameType f = 3 then k.recvSeq else (k.recvSeq + 1) % 65536, nakSent := frameType f = 3 && k.nakSent })
      (frameType f = 0 → exec (.data l f) s = .next (((t.dataIn l f).pumpLink l).announceLnk s))
      ∧ (frameType f = 1 → exec (.ctrl l f) s = .next (((t.updLink l (fun k => { k with
          peerOffered := k.peerOffered || Config.ctrlOffer (framePayload f) })).pumpLink l).announceLnk s))
      ∧ (frameType f = 2 → exec (.heartbeat l f) s = .next ((((t.updLink l (fun k => { k with freed1 := k.freed1.upd 0 (· + 1) })).heartbeatIn l
          (framePayload f)).pumpLink l).announceLnk s))
      ∧ (frameType f = 3 → exec (.nak l f) s = .next (((t.resend l).pumpLink l).announceLnk s)))
    ∧ exec .heartbeatSend s = .next ((List.range 36).foldl State.beat s)
    ∧ ((s.link l).first.trump ≠ 0 → ∃ b, (s.beat l).out = s.out ++ [.frame l b] ∧ frameOk b = true ∧ frameType b = 2 ∧ frameSrc b = s.me % 256
        ∧ framePayload b = s.heartbeatPayload l)

/-! ### The host attachment (17) -/

/-- Configuration space waits with Retry Status and names the device; a PERST# edge and the host's resets act as 17 R458 says; the window is
read and written from T1, poisoned before Memory_Active and where a line has poison; a snoop never hits; a flip and a rejected request end (17
R442 to R454, R458, R459).

Rows that complete here: CONFIG_REQUEST, PERST_ASSERT, PERST_DEASSERT, CXL_HOT_RESET, LINK_DOWN, FLR, HDM_READ, HDM_WRITE, SNOOP,
BIAS_FLIP_DONE, MSIX_VECTOR_UNMASK, IDE_FAIL, CXL_LINK_TRAINED, HOST_REJECT. -/
def Obligations.HostPort : Prop :=
  ∀ (s : State),
    (∀ off, s.powered 79 = true → s.cxl.perst = false →
      (s.cxl.configReady = false → exec (.configRequest off) s = .next (s.emit (.config off none)))
      ∧ (s.cxl.configReady = true → ∃ w, exec (.configRequest off) s = .next (s.emit (.config off (some w)))
          ∧ (off = 0 → w.toNat / 65536 = s.variant.deviceId) ∧ (off = 8 → w.toNat / 256 = 0x120000)))
    ∧ (s.cxl.perst = false → s.power.phase ≠ .fold →
        exec .perstAssert s = .next ((s.updCxl (fun c => { c with perst := true, configReady := false })).moduleReset 4))
    ∧ (s.cxl.perst = true → s.power.phase = .running →
        exec .perstDeassert s = .next (s.updCxl (fun c => { c with perst := false, configReady := s.powered 79 })))
    ∧ (s.power.phase = .fold → ∃ u, (s.cxl.perst = false → exec .perstAssert s = .next u) ∧ (s.cxl.perst = true → exec .perstDeassert s = .next u)
        ∧ u.power.kind = 3 ∧ u.power.wakeCause = 2 ∧ u.power.phase = .bringUp)
    ∧ (s.portUp = true →
        (∃ u, exec .cxlHotReset s = .next u ∧ u.power.kind = 6 ∧ u.cxl.width = 0 ∧ u.cmds = [] ∧ (∀ t, (u.tenant t).live = false)
          ∧ u.models.map (fun m => m.number) = s.models.map (fun m => m.number))
        ∧ (∃ u, exec .linkDown s = .next u ∧ u.power.kind = 7 ∧ u.cxl.width = 0 ∧ u.cmds = [] ∧ (∀ t, (u.tenant t).live = false))
        ∧ (∃ u, exec .flr s = .next u ∧ u.power.kind = 8 ∧ u.cxl.width = s.cxl.width ∧ u.cxl.mode = s.cxl.mode ∧ u.cmds = []
            ∧ (∀ t, (u.tenant t).live = false)))
    ∧ (∀ mode width rate, s.powered 79 = true → s.cxl.perst = false → s.cxl.width = 0 → cxlTrains mode width rate = true →
        exec (.cxlLinkTrained mode width rate) s = .next ((s.updCxl (fun c => { c with mode := mode, width := width, rate := rate })).updMgmt
          (fun m => { m with wake := false })))
    ∧ (s.memPort = true →
        (∀ off len, s.cxl.memActive = false → exec (.hdmRead off len) s = .next ((s.bump 0x0011001C).emit (.mem off [] true)))
        ∧ (∀ off len, s.cxl.memActive = true → off + len ≤ s.hdmBytes → s.cxl.flip = none → (∀ p ∈ pagesOf off len, p ∉ s.cxl.devicePages) →
            s.poisoned (Space.hdm.key off) len = false → ∃ u, exec (.hdmRead off len) s = .next u ∧ u.mem = s.mem
              ∧ u.out = s.out ++ [.mem off (s.rd (Space.hdm.key off) len) false])
        ∧ (∀ off len, s.cxl.memActive = true → off + len ≤ s.hdmBytes → s.poisoned (Space.hdm.key off) len = true →
            ∃ u bytes, exec (.hdmRead off len) s = .next u ∧ u.out = s.out ++ [.mem off bytes true])
        ∧ (∀ off bytes, s.Inv → s.cxl.memActive = true → off + bytes.length ≤ s.hdmBytes → ∃ u, exec (.hdmWrite off bytes) s = .next u
            ∧ u.rd (Space.hdm.key off) bytes.length = bytes ∧ SameOutside s u (Space.hdm.key off) bytes.length
            ∧ ∀ l ∈ u.tier.poison, l ∈ s.tier.poison ∧ ¬ (Space.hdm.key off ≤ 128 * l ∧ 128 * (l + 1) ≤ Space.hdm.key off + bytes.length))
        ∧ (∀ a, exec (.snoop a) s = .next (s.emit (.snoopMiss a))))
    ∧ (∀ p dev, s.cxl.flip = some (p, dev) → ∃ u, exec .biasFlipDone s = .next u ∧ u = { s with cxl := u.cxl } ∧ u.cxl.flip = none
        ∧ (p ∈ u.cxl.devicePages ↔ dev = true) ∧ ∀ q, q ≠ p → (q ∈ u.cxl.devicePages ↔ q ∈ s.cxl.devicePages))
    ∧ (∀ v, s.power.ready = true → v < 2048 → v ∉ s.cxl.unmasked → ∃ u, exec (.msixVectorUnmask v) s = .next u ∧ v ∈ u.cxl.unmasked
        ∧ v ∉ u.cxl.pendingVec ∧ u.out = (if v ∈ s.cxl.pendingVec then s.out ++ [.msix v] else s.out))
    ∧ (s.up = true →
        (∀ t q, (s.queue t q).isSome = true → exec (.hostReject (.sqRead t q)) s = .next ((s.bump 0x00110014).tenantFault t 1)
          ∧ exec (.hostReject (.cqWrite t q)) s = .next ((s.bump 0x00110014).tenantFault t 2))
        ∧ (∀ h c, s.cmd? h = some c → exec (.hostReject (.work h)) s = .next ((s.bump 0x00110014).abortCmd c)))
    ∧ (s.portUp = true → s.cxl.ideKeys ≠ none → exec .ideFail s = .next ((s.bump 0x00110024).linkLost))

/-- The mailbox answers its four protocols and the CDAT; SPDM goes through its steps in order, shows one certificate chain, signs
measurements and challenges with the alias key, and programs IDE keys only within a session (17 R455, R456, 20 R531, R532). The bytes of the
answers that the standard leaves to the module are constants of Config (notes/assumptions/33.md).

Rows that complete here: DOE_DISCOVERY, CDAT_READ, GET_VERSION, GET_CAPABILITIES, NEGOTIATE_ALGORITHMS, GET_DIGESTS, GET_CERTIFICATE,
SET_CERTIFICATE, CHALLENGE, GET_MEASUREMENTS, KEY_EXCHANGE, FINISH, END_SESSION, IDE_KM. -/
def Obligations.MailboxAndSpdm : Prop :=
  ∀ (s : State), s.doeUp = true →
    (∀ i, exec (.doeDiscovery i) s = .next (s.emit (.doe (Config.doeDiscovery i))))
    ∧ (∀ i, exec (.cdatRead i) s = .next (s.emit (.doe (Config.cdatEntry i s.hdmBytes 600 200))))
    ∧ (∃ u, exec .getVersion s = .next u ∧ u.sec.spdmStep = 1 ∧ u.sec.session = 0 ∧ u.out = s.out ++ [.spdm 0x04 [0x12]])
    ∧ (1 ≤ s.sec.spdmStep → ∃ u b, exec .getCapabilities s = .next u ∧ u.sec.spdmStep = max s.sec.spdmStep 2 ∧ u.out = s.out ++ [.spdm 0x61 b])
    ∧ (2 ≤ s.sec.spdmStep → ∀ o : BitVec 4, ∃ u, exec (.negotiateAlgorithms o) s = .next u ∧ u.sec.spdmStep = 3
        ∧ u.out = s.out ++ [.spdm 0x63 (leBytes 1 o.toNat)])
    ∧ (s.sec.spdmStep < 3 → ∀ ins nonce keys ok slot ix, ins ∈ [Instr.getDigests, .getCertificate slot, .challenge nonce, .getMeasurements ix,
        .keyExchange, .finish ok, .endSession, .ideKm keys] → exec ins s = .next (s.emit (.spdm 0x7F [])))
    ∧ (∀ slot, exec (.setCertificate slot) s = .next (s.emit (.spdm 0x7F [])))
    ∧ (3 ≤ s.sec.spdmStep →
        exec .getDigests s = .next (s.emit (.spdm 0x01 (sha256 s.sec.chain)))
        ∧ exec (.getCertificate 0) s = .next (s.emit (.spdm 0x02 s.sec.chain))
        ∧ (∀ slot, slot ≠ 0 → exec (.getCertificate slot) s = .next (s.emit (.spdm 0x7F [])))
        ∧ (∀ nonce, exec (.challenge nonce) s = .next (s.emit (.spdm 0x03 (sha256 s.sec.chain ++ nonce
            ++ s.sec.sign (sha256 s.sec.chain ++ nonce)))))
        ∧ (∀ i, 1 ≤ i → i ≤ 5 →
          let b := leBytes 1 i ++ leBytes 2 (s.sec.measurement i).length ++ s.sec.measurement i
          exec (.getMeasurements i) s = .next (s.emit (.spdm 0x60 (b ++ s.sec.sign b))))
        ∧ (∃ u b, exec .keyExchange s = .next u ∧ u.sec.session = 1 ∧ u.out = s.out ++ [.spdm 0x64 b])
        ∧ (s.sec.session = 1 → (∃ u b, exec (.finish true) s = .next u ∧ u.sec.session = 2 ∧ u.out = s.out ++ [.spdm 0x65 b])
            ∧ ∃ u, exec (.finish false) s = .next u ∧ u.sec.session = 0 ∧ u.out = s.out ++ [.spdm 0x7F []])
        ∧ (s.sec.session = 2 → (∃ u, exec .endSession s = .next u ∧ u.sec.session = 0 ∧ u.out = s.out ++ [.spdm 0x6C []])
            ∧ (s.cxl.mode ≠ .pcie → ∀ keys, exec (.ideKm keys) s = .next ((s.updCxl (fun c => { c with ideKeys := some keys })).emit (.spdm 0x7E []))))
        ∧ (s.sec.session ≠ 2 → ∀ keys, exec (.ideKm keys) s = .next (s.emit (.spdm 0x7F []))))

/-! ### Queues, tenants and the module's commands (18) -/

/-- A doorbell in range moves its index and any other is counted; intake takes the entries of one queue's turn in order, gives each the first
status that applies, and skips a queue without a free completion slot (18 R469, R470, R475 to R478).

Each opcode of the 6410 subset runs as its native opcode does (18 R492, R493).

Rows that complete here: SQ_TAIL, CQ_HEAD, TENANT_CTRL, INTAKE, SRCH_QUERY_LEGACY, IDENTIFY_LEGACY, SRCH_INSERT_LEGACY,
SRCH_DELETE_LEGACY, MEDIA_READ_LEGACY, MEDIA_WRITE_LEGACY, EMB_LOOKUP_LEGACY. -/
def Obligations.DoorbellsIntakeAndLegacy : Prop :=
  (
    ∀ (s : State), s.up = true →
      (∀ t q (p : QPair) (v : Word), t ≤ 63 → s.queue t q = some p → (s.tenant t).reset = none →
        (v.toNat < p.sqEntries → ∃ u, exec (.sqTail t q 4 v) s = .next u ∧ u = { s with tenants := u.tenants }
          ∧ u.queue t q = some { p with sqTail := v.toNat })
        ∧ (p.sqEntries ≤ v.toNat → exec (.sqTail t q 4 v) s = .next (s.bump 0x00020028))
        ∧ (v.toNat < p.cqEntries → ∃ u, exec (.cqHead t q 4 v) s = .next u ∧ u = { s with tenants := u.tenants }
          ∧ u.queue t q = some { p with cqHead := v.toNat })
        ∧ (p.cqEntries ≤ v.toNat → exec (.cqHead t q 4 v) s = .next (s.bump 0x00020028)))
      ∧ (∀ t q w v, t ≤ 63 → w ≠ 4 → exec (.sqTail t q w v) s = .next (s.bump 0x00020028) ∧ exec (.cqHead t q w v) s = .next (s.bump 0x00020028)
          ∧ exec (.tenantCtrl t w v) s = .next (s.bump 0x00020028))
      ∧ (∀ t, t ≤ 63 → (s.tenant t).live = true → exec (.tenantCtrl t 4 1) s = .next (s.startReset t false false []))
      ∧ (s.nextTurn = none → exec .intake s = .next s)
      ∧ (∀ t q (p : QPair) key, s.nextTurn = some (t, q) → s.queue t q = some p →
        (p.freeSlots = 0 → ∃ u, exec .intake s = .next u ∧ u.rr = t ∧ u.cmds = s.cmds ∧ u.queue t q = some p
          ∧ (s.Inv → u.counter 0x00020038 = min (s.counter 0x00020038 + 1) 0xFFFFFFFF))
        ∧ (p.legacy = false → 0 < p.freeSlots → (p.sqHead + 1) % max p.sqEntries 1 = p.sqTail →
            s.resolve t (p.sqBase.toNat + 128 * p.sqHead) 128 1 = some key → s.poisoned key 128 = false →
            let e := s.rd key 128
            let c := s.entryCmd t q p e
            bitAt (fieldOf e 2 1) 0 = false → s.intakeStatus c e = none →
            ∃ u, exec .intake s = .next u ∧ u.cmds = s.cmds ++ [c] ∧ u.nextHandle = s.nextHandle + 1 ∧ u.rr = t
              ∧ u.queue t q = some { p with sqHead := p.sqTail, reserved := p.reserved + 1 } ∧ u.mem = s.mem))
      ∧ (∀ (c : Cmd) (e : List Byte), c.legacyOp = none →
        (headClean false e = false → s.intakeStatus c e = some St.badPacket)
        ∧ (opLayout c.opcode = none → s.intakeStatus c e = some St.badPacket)
        ∧ (∀ l, headClean false e = true → opLayout c.opcode = some l → blockClean l c.params = true → c.opcode ∈ adminOnly → c.tenant ≠ 0 →
            s.intakeStatus c e = some St.security)))
  ∧ (
    ∀ (s : State) (h : Nat) (c : Cmd) (op : Nat), s.cmd? h = some c → c.legacyOp = some op → c.stage = 0 →
      (op = 0x01 → ∀ k, s.resolve c.tenant (c.field 0x10 8) 4096 64 = some k →
          exec (.identifyLegacy h) s = .next ((s.wr k (s.identifyPage c.tenant)).complete h St.ok 0 0 0))
      ∧ (op = 0x10 → exec (.srchQueryLegacy h) s = .next (s.srchQuery h c))
      ∧ (op = 0x11 → s.epochBlocked c = false → exec (.srchInsertLegacy h) s = .next (s.srchInsert h c))
      ∧ (op = 0x12 → s.epochBlocked c = false → exec (.srchDeleteLegacy h) s = .next (s.srchDelete h c))
      ∧ (op = 0x20 → exec (.mediaReadLegacy h) s = .next (s.mediaRead h c))
      ∧ (op = 0x21 → s.mediaBlocked c = false → ∀ res, exec (.mediaWriteLegacy h res) s = .next (s.mediaWrite h c res))
      ∧ (op = 0x30 → exec (.embLookupLegacy h) s = .next (s.embLookup h c)))

/-- CMD_ADMIN_CTRL creates tenant 0; TENANT_CREATE and QUEUE_CREATE check whole before they act; TENANT_RESET and TENANT_CTRL reset; IDENTIFY
writes its page; CFG_COMMIT writes the older copy; FOLD completes and leaves only the always-on domain (18 R464 to R467, R481, R482, R494, 19
R512, R513).

Rows that complete here: CMD_ADMIN_CTRL_WRITE, FOLD, IDENTIFY, CFG_COMMIT, TENANT_CREATE, TENANT_RESET, QUEUE_CREATE. -/
def Obligations.AdminCommands : Prop :=
  ∀ (s : State),
    (∀ v : Word, s.up = true → s.admin.enable = false → (s.tenant 0).live = false → s.tenants.length = 64 → bitAt v.toNat 31 = true →
      let n := 2 ^ bits v.toNat 28 24
      let pasid := bits v.toNat 19 0
      (s.pairOk pasid s.admin.sqBase.toNat s.admin.cqBase.toNat n n none = true →
        ∃ u, exec (.cmdAdminCtrlWrite v) s = .next u ∧ u.admin.enable = true ∧ u.admin.active = true ∧ (u.tenant 0).live = true
          ∧ (u.tenant 0).pasid = pasid ∧ u.queue 0 0 = some (QPair.new s.admin.sqBase s.admin.cqBase n n false false)
          ∧ (∀ t, t ≠ 0 → u.tenant t = s.tenant t) ∧ u = { s with admin := u.admin, tenants := u.tenants })
      ∧ (s.pairOk pasid s.admin.sqBase.toNat s.admin.cqBase.toNat n n none = false →
        ∃ u, exec (.cmdAdminCtrlWrite v) s = .next u ∧ u.admin.err = true ∧ u.admin.enable = false ∧ u = { s with admin := u.admin }))
    ∧ (∀ h c, s.cmdAt h 0x0201 0 = some c → s.tenants.length = 64 →
      let t := c.field 0x11 1
      let fl := c.field 0x12 1
      let n := c.field 0x14 4
      1 ≤ t → t ≤ 63 → (s.tenant t).reset = none → (s.tenant t).live = false → (∀ x ∈ s.tenants, x.live = true → x.pasid ≠ c.field 0x18 4) →
      (c.field 0x1C 4 ≤ 160 ∨ c.field 0x1C 4 = 0xFFFFFFFF) → bitAt fl 4 = false →
      s.pairOk (c.field 0x18 4) (c.field 0x20 8) (c.field 0x28 8) n n (some fl) = true →
      ∃ u : State, exec (.tenantCreate h) s = .next (u.complete h St.ok 0 0 0) ∧ u = { s with tenants := u.tenants } ∧ (u.tenant t).live = true
        ∧ (u.tenant t).pasid = c.field 0x18 4 ∧ u.queue t 0 = some (QPair.new (BitVec.ofNat 64 (c.field 0x20 8)) (BitVec.ofNat 64 (c.field 0x28 8)) n n
          (bitAt fl 0) (bitAt fl 3)) ∧ (∀ q, 1 ≤ q → u.queue t q = none) ∧ (u.tenant t).t1.used = (s.tenant t).t1.used
        ∧ ∀ i, i ≠ t → u.tenant i = s.tenant i)
    ∧ (∀ h c, s.cmdAt h 0x0202 0 = some c →
      let t := c.field 0x11 1
      (1 ≤ t → t ≤ 63 → (s.tenant t).live = true → exec (.tenantReset h) s =
        .next ((s.updCmd h (fun c => { c with stage := 1 })).startReset t (bitAt (c.field 0x12 1) 0) false [h]))
      ∧ ((t = 0 ∨ 63 < t) → exec (.tenantReset h) s = .next (s.complete h St.badParam 0 0 0)))
    ∧ (∀ h c, s.cmdAt h 0x0203 0 = some c →
      let q := c.field 0x10 1
      let fl := c.field 0x11 1
      (1 ≤ q → q ≤ 15 → bitAt fl 4 = false → s.queue c.tenant q = none →
        s.pairOk (s.tenant c.tenant).pasid (c.field 0x20 8) (c.field 0x28 8) (c.field 0x14 4) (c.field 0x18 4) (some fl) = true →
        exec (.queueCreate h) s = .next ((s.updTenant c.tenant (fun x => { x with queues := (x.queues.set q (some (QPair.new
          (BitVec.ofNat 64 (c.field 0x20 8)) (BitVec.ofNat 64 (c.field 0x28 8)) (c.field 0x14 4) (c.field 0x18 4) (bitAt fl 0) (bitAt fl 3)))) })).complete
          h St.ok 0 0 0))
      ∧ ((q = 0 ∨ 15 < q) → exec (.queueCreate h) s = .next (s.complete h St.badParam 0 0 0)))
    ∧ (∀ h c k, s.cmdAt h 0x0102 0 = some c → c.legacyOp = none → s.resolve c.tenant (c.field 0x10 8) 4096 64 = some k →
        (s.identifyPage c.tenant).length = 4096
        ∧ exec (.identify h) s = .next ((s.wr k (s.identifyPage c.tenant)).complete h St.ok 0 0 0))
    ∧ (∀ h c, s.cmdAt h 0x0103 0 = some c → c.field 0x10 1 = 1 →
        (∃ u : State, exec (.cfgCommit h .done) s = .next (u.complete h St.ok 0 0 0) ∧ u = { s with power := u.power }
          ∧ u.persistent = (s.settings s.persistent.1.limits, false))
        ∧ exec (.cfgCommit h .failed) s = .next (s.complete h St.aborted 0 0 0))
    ∧ (∀ h c, s.cmdAt h 0x0101 0 = some c →
      ((∃ t, 1 ≤ t ∧ t ≤ 63 ∧ (s.tenant t).live = true) → bitAt (c.field 0x10 1) 0 = false → exec (.fold h) s = .next (s.complete h St.retry 0 0 0))
      ∧ ((∀ t, 1 ≤ t → t ≤ 63 → (s.tenant t).live = false) → s.cell.actEnable = false → ∃ u, exec (.fold h) s = .next u
          ∧ u.power.phase = .fold ∧ u.power.domains = [68] ∧ u.power.ready = false ∧ u.cmds = [] ∧ u.flash.journal = []))

/-! ### Firmware, debug and the dump (20, 23) -/

/-- FW_STAGE verifies and stores a copy in the slot not active; FW_ACTIVATE waits for recoveries, then the standby takes over with the staged
image on probation; passing probation raises the fuse counter; a finished erase unlocks debug; a fatal error writes the dump, whose readers
see it; a ROM mismatch is fatal (20 R529, R534, R536, 23 R564 to R570).

Rows that complete here: DUMP_READ, FW_STAGE, FW_ACTIVATE, PROBATION_PASS, DEBUG_UNLOCK, ROM_CHECK, FATAL_ERROR, DUMP_INFO, DUMP_CHUNK. -/
def Obligations.FirmwareAndDump : Prop :=
  ∀ (s : State),
    (∀ h c k, s.cmdAt h 0x0B01 0 = some c →
      let len := c.field 0x18 4
      let b := s.rd k len
      s.resolve c.tenant (c.field 0x10 8) len 1 = some k → 256 ≤ len → len ≤ 2 ^ 26 → s.poisoned k len = false → len = 256 + fieldOf b 0x0C 4 →
      ((s.activating = true ∨ s.sec.probation = true) → ∀ res, exec (.fwStage h res) s = .next (s.complete h St.retry 0 0 0))
      ∧ (s.activating = false → s.sec.probation = false → (s.sec.imageOk b).1 = true →
          (s.flash.stopped = true → ∀ res, exec (.fwStage h res) s = .next s)
          ∧ (s.flash.stopped = false → exec (.fwStage h .done) s = .next (((s.writeSlot (1 - boolNat s.sec.activeSlot) b).updSec
            (fun x => x.setSpare (some (FwImage.ofBytes b)) true)).complete h St.ok 0 (fieldOf b 4 4) 0)))
      ∧ (s.activating = false → s.sec.probation = false → s.flash.stopped = false → (s.sec.imageOk b).1 = false → ∀ res, exec (.fwStage h res) s =
          .next (((s.countInvalid (s.sec.imageOk b)).updSec (fun x => x.setSpare none false)).complete h St.security 0 0 0)))
    ∧ (∀ h c, s.cmd? h = some c → c.opcode = 0x0B02 → c.stage = 0 →
      (s.sec.stagedImage = none → ∀ ok, exec (.fwActivate h ok) s = .next (s.complete h St.notReady 0 0 0))
      ∧ (∀ i, s.sec.stagedImage = some i → s.sec.erasing = false →
          (s.recovering = true → ∀ ok, exec (.fwActivate h ok) s = .next (s.updCmd h (fun c => { c with stage := 1 })))
          ∧ (s.recovering = false → (s.sec.slotOk (some i)).1 = true → ∃ u : State, exec (.fwActivate h true) s = .next (u.complete h St.ok 0 i.version 0)
              ∧ u.sec = { s.sec with activeSlot := !s.sec.activeSlot, running := some i, staged := false, probation := true }
              ∧ u.flt.activeB = !s.flt.activeB ∧ u.mem = s.mem)))
    ∧ (s.fwRuns = true → s.sec.probation = true → ∀ i, s.sec.running = some i → exec .probationPass s =
        .next (s.updSec (fun x => { x with probation := false, svnFuse := max x.svnFuse (min 64 i.svn) })))
    ∧ (s.fwRuns = true → s.sec.erasing = true → s.activating = false → ∃ u, exec .debugUnlock s = .next u ∧ u.sec.debugUnlocked = true
        ∧ u.sec.erasing = false ∧ u.flash.extents = [] ∧ u.flash.trimmed = [] ∧ ∀ x ∈ u.mem, Space.hostPhys.key 0 ≤ x.1)
    ∧ (∀ cause, s.alwaysOn = true → 1 ≤ cause → cause ≤ 5 → (cause ≤ 2 → s.power.phase = .running) → ∃ u, exec (.fatalError cause) s = .next u
        ∧ u.power.phase = .fatal ∧ u.power.domains = [68] ∧ u.dump.valid = true ∧ u.dump.cause = cause ∧ u.dump.reduced = decide (3 ≤ cause)
        ∧ u.dump.seq = s.dump.seq + 1 ∧ u.mgmt.alive = false ∧ exec (.romCheck true) s = .next s
        ∧ (cause = 3 → exec (.romCheck false) s = .next u))
    ∧ (∀ h c k, s.cmdAt h 0x0A01 0 = some c →
      let off := c.field 0x10 8
      let len := c.field 0x18 4
      off % 64 = 0 → len % 64 = 0 → 64 ≤ len → len ≤ 2 ^ 24 → s.resolve c.tenant (c.field 0x20 8) len 1 = some k →
      (s.dump.valid = false → exec (.dumpRead h) s = .next (s.complete h St.notReady 0 0 0))
      ∧ (s.dump.valid = true → s.dump.image.length ≤ off → exec (.dumpRead h) s = .next (s.complete h St.badParam 0 0 0))
      ∧ (s.dump.valid = true → off < s.dump.image.length → exec (.dumpRead h) s =
          .next ((s.wr k ((s.dump.image.drop off).take len)).complete h St.ok (min len (s.dump.image.length - off)) 0 0)))
    ∧ (s.smbusServed = true → s.dump.valid = true → exec .dumpInfo s = .next (s.emit (.pldm (s.dump.image.take 256)))
        ∧ ∀ off, exec (.dumpChunk off) s = .next (s.emit (.pldm ((s.dump.image.drop off).take 256))))

/-! ### Power, heat and the sideband (19, 22) -/

/-- Supply: power-on starts a hard reset of its kind; a warning drops the seats to level 4 and stops programs, and the steps back are 8, 12
and 16; a brown-out holds the module, and loss of the always-on rail counts as power removed (19 R500, R501, R509, R513, R520).

Rows that complete here: POWER_ON, UV_WARN, UV_RELEASE, ISSUE_LEVEL_STEP, BROWN_OUT, ALWAYS_ON_LOSS, FOLD_OVERCURRENT. -/
def Obligations.SupplyEvents : Prop :=
  ∀ (s : State),
    (s.power.phase = .unpowered → ∃ u, exec .powerOn s = .next u ∧ u.power.phase = .bringUp ∧ u.power.kind = 1 ∧ u.power.ready = false
      ∧ u.power.prevKind = 0 ∧ u.power.wakeValid = false ∧ u.ctr = [])
    ∧ (s.power.phase = .brownOut → s.power.resetTrip = false → ∃ u, exec .powerOn s = .next u ∧ u.power.phase = .bringUp ∧ u.power.kind = 2
        ∧ u.power.resetBrown = true ∧ u.power.resetFoldBrown = s.power.resetFoldBrown)
    ∧ (s.power.phase = .running → exec .uvWarn s =
        .next ((s.updPower (fun p => { p with dip := 1, uvLevel := 4 })).updFlash (fun f => { f with stopped := true })))
    ∧ (s.power.phase = .fold → exec .uvWarn s = .next s)
    ∧ (s.power.phase = .running → s.power.dip = 1 → exec .uvRelease s =
        .next (((s.updPower (fun p => { p with dip := 2, uvLevel := 8 })).bump 0x00010030).updFlash (fun f => { f with stopped := false })))
    ∧ (s.power.dip = 2 → exec .issueLevelStep s = .next (s.updPower (fun p => { p with dip := 3, uvLevel := 12 })))
    ∧ (s.power.dip = 3 → exec .issueLevelStep s = .next (s.updPower (fun p => { p with dip := 0, uvLevel := 16 })))
    ∧ (s.power.phase ≠ .unpowered → s.power.phase ≠ .brownOut → ∃ u, exec .brownOut s = .next u ∧ u.power.phase = .brownOut
        ∧ u.power.domains = [68] ∧ u.power.ready = false ∧ u.power.resetTrip = decide (s.power.phase = .tripped) ∧ u.power.resetFoldBrown = false
        ∧ u.cmds = [] ∧ u.mgmt.alive = false)
    ∧ (∃ u, exec .alwaysOnLoss s = .next u ∧ u.power.phase = .unpowered ∧ u.power.domains = [])
    ∧ (s.power.phase = .fold → ∃ u, exec .foldOvercurrent s = .next u ∧ u.power.phase = .brownOut ∧ u.power.resetFoldBrown = true)
    ∧ (s.power.phase ≠ .fold → exec .foldOvercurrent s = .next s)

/-- The cap window steps the level against the cap in force and takes the pending cap; a trip darkens the module
and its release lets a held reset go on; one domain switches at a time; bring-up ends in READY, or stops without a valid image (19 R499, R503
to R505, R517, R519, 20 R527, 22 R560).

Rows that complete here: CAP_WINDOW, THERMAL_TRIP, TRIP_RELEASE, BRING_UP, DOMAIN_SWITCH, SIDEBAND_RESET. -/
def Obligations.CapHeatAndBringUp : Prop :=
  ∀ (s : State),
    (∀ mv w, s.fwRuns = true → ∃ u, exec (.capWindow mv w) s = .next u ∧ u.power.activeW = s.capLimit ∧ u.power.watts = w % 2 ^ 16
      ∧ u.power.millivolts = mv % 2 ^ 16 ∧ u.mem = s.mem ∧ u.seats = s.seats
      ∧ (s.power.activeW < w → 1 < s.power.capLevel → u.power.capLevel = s.power.capLevel - 1)
      ∧ (100 * w < 97 * s.power.activeW → u.power.capLevel = min 16 (s.power.capLevel + 1))
      ∧ (w ≤ s.power.activeW → 97 * s.power.activeW ≤ 100 * w → u.power.capLevel = s.power.capLevel))
    ∧ (s.power.phase = .running → ∃ u, exec .thermalTrip s = .next u ∧ u.power.phase = .tripped ∧ u.power.domains = [68] ∧ u.power.ready = false
        ∧ u.mgmt.alive = false ∧ u.mgmt.alert = true ∧ u.cmds = [] ∧ u.flash.journal = [])
    ∧ (s.power.phase = .tripped → (s.power.heldReset = none → exec .tripRelease s = .next (s.updPower (fun p => { p with cooled := true })))
        ∧ (∀ k, s.power.heldReset = some k → k ≠ 2 → exec .tripRelease s = .next (s.hardReset k true false))
        ∧ (s.power.cooled = true → exec .sidebandReset s = .next (s.hardReset 5 true false))
        ∧ (s.power.cooled = false → s.power.heldReset = none → exec .sidebandReset s = .next (s.updPower (fun p => { p with heldReset := some 5 }))))
    ∧ (s.power.phase = .running → exec .sidebandReset s = .next (s.hardReset 5 false false))
    ∧ (∀ d on r, s.fwRuns = true → s.power.switches = (d, on) :: r → ∃ u, exec .domainSwitch s = .next u ∧ u = { s with power := u.power }
        ∧ u.power.switches = r ∧ u.powered d = on ∧ ∀ e, e ≠ d → u.powered e = s.powered e)
    ∧ (∀ o : BringUp, s.power.phase = .bringUp → s.power.dip = 0 → (s.power.kind ≠ 4 ∨ s.cxl.perst = false) →
      (s.sec.activeSlot = false → (s.sec.slotOk s.sec.slot0).1 = true → ∃ u, exec (.bringUp o) s = .next u ∧ u.power.phase = .running ∧ u.power.ready = true
          ∧ u.power.step = 7 ∧ u.sec.running = s.sec.slot0 ∧ u.powered 68 = true ∧ u.powered 79 = true ∧ u.cxl.memActive = true
          ∧ u.flt.sLost = (decide (s.variant ≠ .v9706) && !o.sDieStarts) ∧ u.mem = s.mem)
      ∧ ((s.sec.slotOk s.sec.slot0).1 = false → (s.sec.slotOk s.sec.slot1).1 = false → ∃ u, exec (.bringUp o) s = .next u
          ∧ u.power.phase = .bootStopped ∧ u.power.step = 2 ∧ u.power.ready = s.power.ready))

/-- The sideband: readings move sensors, and in fold only three of them; a monitor read answers one sensor, and number 0 collects the oldest
event; a firmware update recovers a module that could not boot; ALIVE toggles (20 R527, 22 R552 to R555, R563). How the answers and the
thresholds are laid out is notes/assumptions/35.md.

The test access port: BYPASS, IDCODE with its value, SAMPLE, and EXTEST and HIGHZ only under PERST# (22 R562).

Rows that complete here: PLDM_MONITOR_READ, PLDM_FW_UPDATE, SENSOR_POLL, ALIVE_TOGGLE, BYPASS, IDCODE, SAMPLE_PRELOAD, EXTEST, HIGHZ. -/
def Obligations.SidebandAndBoundaryScan : Prop :=
  (
    ∀ (s : State),
      (∀ rs, s.smbusServed = true → s.power.phase ≠ .fatal → ∃ u, exec (.sensorPoll rs) s = .next u ∧ u.mgmt.sensors.length = 10
        ∧ (∀ i < 9, s.power.phase ≠ .fold ∨ i ∈ [0, 1, 8] → u.mgmt.sensors[i]? = some (rs.getD i (s.mgmt.sensors.getD i 0)))
        ∧ (∀ i < 10, s.power.phase = .fold → i ∉ [0, 1, 8] → u.mgmt.sensors[i]? = some (s.mgmt.sensors.getD i 0))
        ∧ (s.power.phase ≠ .fold → u.mgmt.sensors[9]? = some s.power.issueLevel) ∧ u.mem = s.mem ∧ u.power = s.power)
      ∧ (s.smbusServed = true →
        (∀ e r, s.mgmt.events = e :: r → ∃ u, exec (.pldmMonitorRead 0) s = .next u ∧ u.mgmt = { s.mgmt with events := r, alert := !r.isEmpty }
            ∧ u.out = s.out ++ [.pldm (leBytes 1 0 ++ leBytes 4 e)])
        ∧ (∀ k, 1 ≤ k → k ≤ 10 → s.power.phase ≠ .fold →
            exec (.pldmMonitorRead k) s = .next (s.emit (.pldm (leBytes 1 k ++ leBytes 1 1 ++ leBytes 4 (s.mgmt.sensors.getD (k - 1) 0))))))
      ∧ (∀ image, s.power.phase = .bootStopped → image.length ≤ 2 ^ 26 → ∃ u, exec (.pldmFwUpdate image) s = .next u ∧ u.power.phase = .bringUp
          ∧ (if s.sec.activeSlot then u.sec.slot1 else u.sec.slot0) = some (FwImage.ofBytes image)
          ∧ (if s.sec.activeSlot then u.sec.slot0 else u.sec.slot1) = (if s.sec.activeSlot then s.sec.slot0 else s.sec.slot1))
      ∧ (s.power.phase = .running → s.mgmt.aliveStopped = false →
          exec .aliveToggle s = .next (s.updMgmt (fun m => { m with alive := !m.alive }))))
  ∧ (
    ∀ (s : State), s.power.phase ≠ .unpowered →
      exec .bypass s = .next (s.updMgmt (fun m => { m with jtag := .bypass }))
      ∧ (∃ u w, exec .idcode s = .next u ∧ u.mgmt.jtag = .idcode ∧ u.out = s.out ++ [.jtag w] ∧ bitAt w.toNat 0 = true ∧ bits w.toNat 11 1 = 0x2B5
          ∧ bits w.toNat 27 12 = s.variant.deviceId ∧ bits w.toNat 31 28 = Config.stepping.toNat % 16)
      ∧ exec .samplePreload s = .next (s.updMgmt (fun m => { m with jtag := .sample }))
      ∧ exec .extest s = .next (s.updMgmt (fun m => { m with jtag := if s.cxl.perst then .extest else .bypass }))
      ∧ exec .highz s = .next (s.updMgmt (fun m => { m with jtag := if s.cxl.perst then .highz else .bypass })))

/-- What a hard reset keeps: the persistent block, the media map and its stored data, the fuses and firmware slots, and across a module reset
the sticky failures, the event log and quarantines; host memory stands, and the persistent settings take hold (19 R507 to R511, 02
R31). -/
def Obligations.HardResetsKeep : Prop :=
  ∀ (s : State) (kind : Nat) (trip fold : Bool), 1 ≤ kind → kind ≤ 5 → s.seats.length = 176 → s.colls = [] →
    let u := s.hardReset kind trip fold
    u.power.copyA = s.power.copyA ∧ u.power.copyB = s.power.copyB ∧ u.power.commits = s.power.commits
      ∧ (s.embed.tables = [] → s.search.oldCopies = [] → u.flash.map = s.flash.map ∧ u.flash.extents = s.flash.extents)
      ∧ (∀ e ∈ s.flash.extents, (∀ i, e.owner ≠ .oldCopy i) →
          (∀ k g b, e.owner = .table k g b → ∀ t ∈ s.embed.tables, t.number = k → g = t.ckptGen) → e ∈ u.flash.extents)
      ∧ u.flash.erases = s.flash.erases ∧ u.flash.journal = []
      ∧ u.sec.svnFuse = s.sec.svnFuse ∧ u.sec.slot0 = s.sec.slot0 ∧ u.sec.slot1 = s.sec.slot1 ∧ u.sec.opkeyHash = s.sec.opkeyHash
      ∧ u.sec.running = none ∧ u.cmds = [] ∧ u.ctr = [] ∧ (∀ h, (u.hand h).valid = false) ∧ (∀ t, (u.tenant t).live = false)
      ∧ (∀ a, Space.hostPhys.key 0 ≤ a → a < (Space.seat 0).key 0 → s.Inv → memGet u.mem a = memGet s.mem a)
      ∧ (∀ g a, g < 176 → a < 2 ^ 64 → memGet u.mem ((Space.seat g).key a) = 0)
      ∧ (4 ≤ kind → u.flt.sticky = s.flt.sticky ∧ u.dump.valid = s.dump.valid
          ∧ ∀ g < 176, (s.seat g).mode = .quarantined → s.dieLost (g / 88) = false → (u.seat g).mode = .quarantined)
      ∧ (kind ≤ 3 → u.flt.sticky = 0 ∧ u.dump.events = [] ∧ ∀ g < 176, (u.seat g).mode ≠ .quarantined)
      ∧ u.search.window = u.persistent.1.window ∧ u.steadyLoad = u.persistent.1.steadyLoad ∧ u.power.capW = u.persistent.1.capW

/-! ### Encodings of the thread instructions, and short rules stated whole -/

/-- Decoding the word that the layout of 04 R98 and the codes of 04 R99 to R102 give a legal thread instruction gives the instruction back,
with every operand at every value its field admits; the long form takes its second word as the immediate. The fault of MDRAIN's compare is
no field of the word and reads as none. That unused fields read as 0 in the encoder is the model's (notes/assumptions/36.md). -/
def Obligations.ThreadEncodingsRoundTrip : Prop :=
  ∀ (i : Iss) (d a b h : BitVec 5) (imm : BitVec 13) (sz : BitVec 2) (off : BitVec 11) (fn : BitVec 8) (bar : BitVec 4) (w : Word) (x y : Bool),
    let rt (ins : Instr) : Prop :=
      threadLegal ins = true → decodeThread i.seat i.ctx (BitVec.ofNat 32 (threadWord ins)) w = some ins
    (∀ op, rt (.addSubAndOrXor i op d a b)) ∧ (∀ op, rt (.shlShrSra i op d a b)) ∧ rt (.mulMulhu i x d a b) ∧ rt (.divuRemu i x d a b)
    ∧ (∀ op, rt (.minMaxMinuMaxu i op d a b)) ∧ (∀ op, rt (.addiAndiOriXori i op d a imm)) ∧ (∀ op, rt (.shliShriSrai i op d a imm))
    ∧ (∀ op, rt (.cmp i op d a b)) ∧ rt (.br i imm) ∧ rt (.jr i a) ∧ rt (.jal i d a imm) ∧ (∀ op, rt (.pandPorPxor i op d a b))
    ∧ rt (.pnot i d a) ∧ rt (.pfromsPtos i x d a) ∧ rt (.ldsSts i x sz d a off) ∧ rt (.ldSt i x sz d a off) ∧ rt (.vldsVsts i x sz d a off)
    ∧ rt (.vldVst i x sz d a off) ∧ rt (.amo i fn d a b) ∧ rt (.fenceAcq i) ∧ rt (.fenceRel i) ∧ rt (.fenceSys i) ∧ rt (.hbarSync i bar)
    ∧ rt (.hbarArrive i bar) ∧ rt (.hbarWait i bar) ∧ rt (.hbarInit i bar a) ∧ rt (.dma i d a) ∧ rt (.dwait i a) ∧ rt (.dtest i d a)
    ∧ rt (.uissue i d a) ∧ rt (.uwait i a) ∧ rt (.utest i d a) ∧ rt (.mstream i a) ∧ rt (.mrun i) ∧ rt (.mwaitRun i) ∧ rt (.mwaitAll i)
    ∧ rt (.mdrain i a b .none) ∧ rt (.relayout i a) ∧ rt (.csrr i d imm) ∧ rt (.tspawn i d a b) ∧ rt (.nop i) ∧ rt (.halt i)
    ∧ rt (.liLih i x d w) ∧ rt (.addl i d a w) ∧ rt (.brl i w)
    ∧ (∀ op ty, rt (.vaddVsubVmul i op ty d a b)) ∧ (∀ ty, rt (.vfma i ty d a b)) ∧ rt (.vdivVsqrt i x d a b) ∧ (∀ ty, rt (.vminVmax i x ty d a b))
    ∧ (∀ ty, rt (.vexp2 i ty d a)) ∧ (∀ op ty, rt (.vandVorVxor i op ty d a b)) ∧ rt (.vshlVsra i y d a b)
    ∧ (∀ op ty, rt (.vcmpeqVcmpltVcmple i op ty d a b)) ∧ (∀ ty, rt (.vsel i ty d a b)) ∧ (∀ op ty, rt (.vredsumVredmaxVredmin i op ty d a))
    ∧ (∀ ty, rt (.vargmax i ty d a)) ∧ (∀ ty, rt (.vbcast i ty d a)) ∧ (∀ ty, rt (.vtos i ty d a b)) ∧ (∀ ty, rt (.vcvt i ty d a))
    ∧ rt (.vwiden i d a h) ∧ rt (.vnarrow i d a h) ∧ rt (.vpack i d a b) ∧ rt (.vmxscale i d a b)

/-- The SAT and NAN options of an FP8 drain, whatever the rounding: 14 · 2^5 is 448 and 7 · 2^13 is 57,344 (03 R71). -/
def Obligations.EightBitDrainOptions : Prop :=
  ∀ (up : Nat → Nat → Nat → Bool) (neg nanOpt : Bool) (m : Nat) (e : Int),
    let out (f : Fmt) (nanOpt : Bool) (v : FVal) : FVal := f.decode (f.drainEncode up nanOpt v)
    (Fmt.e4m3.maxCode < Fmt.e4m3.roundMag up m e →
        out .e4m3 false (.num neg m e) = .num neg 14 5 ∧ out .e4m3 true (.num neg m e) = .nan)
    ∧ (Fmt.e5m2.maxCode < Fmt.e5m2.roundMag up m e →
        out .e5m2 false (.num neg m e) = .num neg 7 13 ∧ out .e5m2 true (.num neg m e) = .nan)
    ∧ out .e4m3 false (.inf neg) = .num neg 14 5 ∧ out .e5m2 false (.inf neg) = .num neg 7 13
    ∧ out .e4m3 true (.inf neg) = .nan ∧ out .e5m2 true (.inf neg) = .inf neg
    ∧ out .e4m3 nanOpt .nan = .nan ∧ out .e5m2 nanOpt .nan = .nan
    ∧ Fmt.e4m3.decode Fmt.e4m3.maxCode = .num false 14 5 ∧ Fmt.e5m2.decode Fmt.e5m2.maxCode = .num false 7 13

/-- Every window of a running module moves the thermal level as 22 R559 says, and touches nothing else.

Rows that complete here: THERMAL_WINDOW. -/
def Obligations.ThermalLevelMoves : Prop :=
  ∀ (s : State) (js : List Nat), s.fwRuns = true → ∃ u, exec (.thermalWindow js) s = .next u ∧ u = { s with power := u.power }
    ∧ u.power = { s.power with thermalLevel := u.power.thermalLevel }
    ∧ ((∃ t ∈ js, 105 ≤ t) → u.power.thermalLevel = max 1 (s.power.thermalLevel - 2))
    ∧ ((∀ t ∈ js, t < 102) → u.power.thermalLevel = min 16 (s.power.thermalLevel + 1))
    ∧ ((∀ t ∈ js, t < 105) → (∃ t ∈ js, 102 ≤ t) → u.power.thermalLevel = s.power.thermalLevel)

/-- PWR_INPUT gives the last window's averages and starts at 0; MOD_SERIAL is the module's own in every state; neither takes a write, and a
step that leaves power alone leaves PWR_INPUT alone (19 R519, 21 R546). -/
def Obligations.ReadOnlyRegisters : Prop :=
  (State.reset.power.millivolts = 0 ∧ State.reset.power.watts = 0)
  ∧ ∀ (s : State),
    s.reg false 0x10 = BitVec.ofNat 32 Config.serial.toNat ∧ s.reg false 0x14 = BitVec.ofNat 32 (Config.serial.toNat / 2 ^ 32)
    ∧ (∀ v, exec (.registerWrite 0x10 4 v) s = .next s ∧ exec (.registerWrite 0x14 4 v) s = .next s)
    ∧ (∀ v, exec (.registerWrite 0x10008 4 v) s = .next s)
    ∧ (∀ mv w, s.fwRuns = true → ∃ u, exec (.capWindow mv w) s = .next u
        ∧ (u.power.ready = true → mv < 2 ^ 16 → w < 2 ^ 16 → (u.reg false 0x10008).toNat / 2 ^ 16 = mv ∧ (u.reg false 0x10008).toNat % 2 ^ 16 = w))
end

