-- ==== Sys2Proof/Laws/Bytes.lean ====
section
/-!
SUPPORT. Fields of byte lists: a field of a list is the field of the chunk it lies in, and chunks of one length lie at multiples of it.
-/
namespace Sys2Proof.Machine

theorem drop_take_within {α : Type} (l : List α) (o k m w : Nat) (h : k + m ≤ w) :
    ((((l.drop o).take w).drop k).take m) = ((l.drop (o + k)).take m) := by
  rw [List.drop_take, List.take_take, List.drop_drop]
  congr 1
  omega

/-- A field within a chunk. -/
theorem fieldOf_chunk {d c : List Byte} {o w : Nat} (h : (d.drop o).take w = c) (k m : Nat) (hk : k + m ≤ w) :
    fieldOf d (o + k) m = fieldOf c k m := by
  subst h
  unfold fieldOf
  rw [drop_take_within d o k m w hk]

/-- What lies behind a prefix. -/
theorem drop_prefix {α : Type} (pre l : List α) (n k : Nat) (h : pre.length = n) : (pre ++ l).drop (n + k) = l.drop k := by
  subst h
  rw [← List.drop_drop, List.drop_left]

/-- The i-th chunk of equal chunks. -/
theorem chunk_flatMap {α : Type} (f : Nat → List α) (w : Nat) (hw : ∀ i, (f i).length = w) (post : List α) :
    ∀ (l : List Nat) (i : Nat) (x : Nat), l[i]? = some x → ((l.flatMap f ++ post).drop (w * i)).take w = f x
  | [], i, x, h => by simp at h
  | y :: l, 0, x, h => by
    simp only [List.getElem?_cons_zero, Option.some.injEq] at h
    subst h
    rw [List.flatMap_cons, List.append_assoc, Nat.mul_zero, List.drop_zero, ← hw y, List.take_left]
  | y :: l, i + 1, x, h => by
    simp only [List.getElem?_cons_succ] at h
    rw [List.flatMap_cons, List.append_assoc, show w * (i + 1) = w + w * i by rw [Nat.mul_succ]; omega, drop_prefix _ _ w _ (hw y)]
    exact chunk_flatMap f w hw post l i x h

end Sys2Proof.Machine
end

