-- ==== Sys2Proof/Laws/Tiers.lean ====
section
/-!
SUPPORT. Bounds on the charge of stored blocks, whatever their compressed length (12 R314, R315).
-/
namespace Sys2Proof.Machine

theorem storedCharge_le {p : Nat} (h : p ≤ 65536) : storedCharge p ≤ 65792 := by
  simp only [storedCharge, roundUp, ceilDiv, if_neg (by decide : ¬ 256 = 0)]
  omega

theorem tierPayload_le (draw i : Nat) : tierPayload draw i ≤ 65536 := by
  unfold tierPayload
  omega

/-- A stored block is charged at most a RAW block's bytes. -/
theorem tierCharge_le (draw i : Nat) : tierCharge draw i ≤ 65792 := by
  unfold tierCharge
  have := tierPayload_le draw i
  split <;> exact storedCharge_le (by omega)

theorem tierCharge_pos (draw i : Nat) : 256 ≤ tierCharge draw i := by
  simp only [tierCharge, storedCharge, roundUp, ceilDiv, if_neg (by decide : ¬ 256 = 0)]
  split <;> omega

theorem tierCharges_one (draw : Nat) : tierCharges draw 1 = tierCharge draw 0 := by
  exact Nat.zero_add _

end Sys2Proof.Machine
end

