-- ==== Sys2Proof/Laws/Media.lean ====
section
/-!
SUPPORT. When a stored block is taken by the media: its number of pages decides, not its bytes (12 R314, 13 R327, R338, R349).
-/
namespace Sys2Proof.Machine

@[simp] theorem blockHeader_ne_nil (m f va t : Nat) (p d : List Byte) : (blockHeader m f va t p d).isEmpty = false := by
  simp [blockHeader, leBytes]

/-- A 64 KiB block in TIER mode is no far-list segment and is charged at most a RAW block's bytes. -/
theorem tierStored_bound (draw i va t : Nat) {data : List Byte} (h : data.length ≤ 65536) :
    (tierStored draw i va t data).far = false ∧ (tierStored draw i va t data).charge ≤ 65792 := by
  simp only [tierStored]
  split
  · exact ⟨by simp [Stored.far], by simpa [Stored.charge, Stored.far] using storedCharge_le h⟩
  · exact ⟨by simp [Stored.far], by simpa [Stored.charge, Stored.far] using storedCharge_le (tierPayload_le draw i)⟩

theorem block64_length (b : List Byte) : (block64 b).length = 65536 := by
  simp only [block64, List.length_append, List.length_take, List.length_replicate]
  omega

/-- Whether the write buffer takes `k` pages, one after the other. -/
def State.placesPages (s : State) (k : Nat) : Bool :=
  let new := s.flash.freeLpns s.variant k
  ((new.map (fun l => [l])).foldl (fun (acc : State × Bool × Bool) u =>
    if !acc.2.1 then acc
    else
      let (z, ok, w) := acc.1.bufferPlace (decide (acc.1.flash.seq ≠ s.flash.seq)) [] u
      (z, ok, acc.2.2 || w)) (s, decide (new.length = k), false)).2.1

/-- A block that starts a page is stored where its number of pages is. -/
theorem mediaPut_stored (s : State) (o : Owner) (t : Nat) {x : Stored} (hp : s.flash.pack = none) (hf : x.far = false)
    (h : s.placesPages (ceilDiv x.charge 16384) = true) : (s.mediaPut [] o t x).2 = true := by
  simp only [State.placesPages] at h
  simp only [State.mediaPut, hf, hp, Bool.false_eq_true, if_false, Option.filter_none, Option.toList_none, List.map_nil, List.nil_append,
    List.length_nil, Nat.sub_zero, Nat.zero_add]
  rw [h]
  rfl

/-- Placing pages in the write buffer changes the flash alone. -/
theorem bufferPlace_frame (s : State) (begun : Bool) (off lpns : List Nat) : ∃ f, (s.bufferPlace begun off lpns).1 = { s with flash := f } := by
  simp only [State.bufferPlace]
  split <;> exact ⟨_, rfl⟩

/-- At most five pages hold a block of 64 KiB. -/
theorem pages_le {n : Nat} (h : n ≤ 65792) : ceilDiv n 16384 ≤ 5 := by
  unfold ceilDiv
  split
  · contradiction
  · omega

/-- One block of 64 KiB is stored by media that take up to five pages. -/
theorem mediaPuts_one (s : State) (o : Owner) (draw i va t : Nat) {data : List Byte} (hp : s.flash.pack = none) (hd : data.length ≤ 65536)
    (h : ∀ k, k ≤ 5 → s.placesPages k = true) :
    s.mediaPuts t [(o, tierStored draw i va t data)] = ((s.mediaPut [] o t (tierStored draw i va t data)).1, 1) := by
  obtain ⟨hf, hc⟩ := tierStored_bound draw i va t hd
  have := mediaPut_stored s o t hp hf (h _ (pages_le hc))
  simp [State.mediaPuts, this, boolNat]

end Sys2Proof.Machine
end

