-- ==== Sys2Proof/Laws/Memory.lean ====
section
/-!
SUPPORT. The canonical form of sparse maps and of the byte memory: every operation keeps it, a byte written reads back, and every
other byte reads as before.
-/
namespace Sys2Proof.Machine

section Sparse
variable {α : Type} [DecidableEq α] {z : α}

/-- A map whose keys rise from a bound also rises from any lower one. -/
theorem sparseWf_mono {l : List (Nat × α)} {lo lo' : Nat} (h : lo' ≤ lo) (w : sparseWf z lo l = true) :
    sparseWf z lo' l = true := by
  cases l with
  | nil => rfl
  | cons x r => simp only [sparseWf, Bool.and_eq_true, decide_eq_true_eq] at w ⊢; exact ⟨⟨by omega, w.1.2⟩, w.2⟩

/-- Setting a key keeps the canonical form. -/
theorem sparsePut_wf (a : Nat) (v : α) : ∀ (l : List (Nat × α)) (lo : Nat), lo ≤ a → sparseWf z lo l = true →
    sparseWf z lo (sparsePut z a v l) = true := by
  intro l
  induction l with
  | nil => intro lo h _; by_cases hv : v = z <;> simp [sparsePut, sparseWf, hv, h]
  | cons x r ih =>
    obtain ⟨k, w⟩ := x
    intro lo h hw
    have hw' := hw
    simp only [sparseWf, Bool.and_eq_true, decide_eq_true_eq] at hw
    obtain ⟨⟨hk, hz⟩, hr⟩ := hw
    simp only [sparsePut]
    split
    · next hlt =>
      simp only [sparseWf, Bool.and_eq_true, decide_eq_true_eq]
      exact ⟨⟨hk, hz⟩, ih (k + 1) hlt hr⟩
    · split
      · next heq =>
        split
        · exact sparseWf_mono (by omega) hr
        · next hv =>
          subst heq
          simp only [sparseWf, Bool.and_eq_true, decide_eq_true_eq]
          exact ⟨⟨hk, hv⟩, hr⟩
      · split
        · exact hw'
        · next hv =>
          simp only [sparseWf, Bool.and_eq_true, decide_eq_true_eq]
          exact ⟨⟨h, hv⟩, ⟨by omega, hz⟩, hr⟩

/-- Dropping entries keeps the canonical form. -/
theorem sparseWf_filter (p : Nat × α → Bool) : ∀ (l : List (Nat × α)) (lo : Nat), sparseWf z lo l = true →
    sparseWf z lo (l.filter p) = true := by
  intro l
  induction l with
  | nil => intro lo _; rfl
  | cons x r ih =>
    obtain ⟨k, w⟩ := x
    intro lo hw
    simp only [sparseWf, Bool.and_eq_true, decide_eq_true_eq] at hw
    obtain ⟨⟨hk, hz⟩, hr⟩ := hw
    by_cases hp : p (k, w) = true
    · simp only [List.filter_cons, hp, if_true, sparseWf, Bool.and_eq_true, decide_eq_true_eq]
      exact ⟨⟨hk, hz⟩, ih (k + 1) hr⟩
    · simp only [List.filter_cons, hp]
      exact sparseWf_mono (by omega) (ih (k + 1) hr)

/-- Keys below the bound of a map read its default. -/
theorem sparseGet_below : ∀ (l : List (Nat × α)) (lo a : Nat), a < lo → sparseWf z lo l = true → sparseGet z a l = z := by
  intro l
  cases l with
  | nil => intros; rfl
  | cons x r =>
    intro lo a h hw
    simp only [sparseWf, Bool.and_eq_true, decide_eq_true_eq] at hw
    simp only [sparseGet]
    rw [if_neg (by omega), if_pos (by omega)]

/-- Reading after setting a key of a canonical map: the value set there, the old value elsewhere. -/
theorem sparseGet_put (a b : Nat) (v : α) : ∀ (l : List (Nat × α)) (lo : Nat), sparseWf z lo l = true →
    sparseGet z b (sparsePut z a v l) = if b = a then v else sparseGet z b l := by
  intro l
  induction l with
  | nil =>
    intro lo _
    by_cases hv : v = z
    · simp [sparsePut, sparseGet, hv]
    · by_cases hb : b = a
      · simp [sparsePut, sparseGet, hv, hb]
      · simp [sparsePut, sparseGet, hv, hb]; omega
  | cons x r ih =>
    obtain ⟨k, w⟩ := x
    intro lo hw
    simp only [sparseWf, Bool.and_eq_true, decide_eq_true_eq] at hw
    obtain ⟨⟨hk, hz⟩, hr⟩ := hw
    have ihr := ih (k + 1) hr
    simp only [sparsePut]
    split
    · next hlt =>
      simp only [sparseGet]
      by_cases hb : k = b
      · rw [if_pos hb, if_neg (by omega), if_pos hb]
      · rw [if_neg hb, if_neg hb]
        by_cases hb' : b < k
        · rw [if_pos hb', if_neg (by omega), if_pos hb']
        · rw [if_neg hb', if_neg hb', ihr]
    · split
      · next heq =>
        subst heq
        have hbelow : ∀ b', b' < k + 1 → sparseGet z b' r = z := fun b' h' => sparseGet_below r (k + 1) b' h' hr
        split
        · next hv =>
          subst hv
          by_cases hb : b = k
          · rw [if_pos hb]; exact hbelow b (by omega)
          · rw [if_neg hb]
            simp only [sparseGet]
            rw [if_neg (fun e => hb e.symm)]
            by_cases hb' : b < k
            · rw [if_pos hb']; exact hbelow b (by omega)
            · rw [if_neg hb']
        · by_cases hb : k = b
          · simp [sparseGet, hb]
          · simp [sparseGet, hb, Ne.symm hb]
      · next hnlt hne =>
        split
        · next hv =>
          subst hv
          by_cases hb : b = a
          · rw [if_pos hb]
            simp only [sparseGet]
            rw [if_neg (by omega), if_pos (by omega)]
          · rw [if_neg hb]
        · by_cases hb : a = b
          · simp [sparseGet, hb]
          · by_cases hb' : b < a
            · have hk1 : ¬ k = b := by omega
              have hk2 : b < k := by omega
              simp [sparseGet, hb, Ne.symm hb, hb', hk1, hk2]
            · simp [sparseGet, hb, Ne.symm hb, hb']

/-- Setting every key of a list keeps the canonical form. -/
theorem foldl_sparsePut_wf (lo : Nat) (cells : List (Nat × α)) : ∀ (m : List (Nat × α)), sparseWf z 0 m = true →
    sparseWf z 0 (cells.foldl (fun m c => sparsePut z (lo + c.1) c.2 m) m) = true := by
  induction cells with
  | nil => intro m h; exact h
  | cons c r ih => intro m h; exact ih _ (sparsePut_wf _ _ _ _ (Nat.zero_le _) h)

end Sparse

/-- Writing bytes keeps the canonical form. -/
theorem memPut_wf : ∀ (bs : List Byte) (a : Nat) (m : List Host.Cell), Memory.wf m = true → Memory.wf (memPut m a bs) = true := by
  intro bs
  induction bs with
  | nil => intro a m h; exact h
  | cons b r ih => intro a m h; exact ih _ _ (sparsePut_wf _ _ _ _ (Nat.zero_le _) h)

/-- Reading after writing bytes: the byte written inside the range, the old byte outside. -/
theorem memGet_memPut : ∀ (bs : List Byte) (a b : Nat) (m : List Host.Cell), Memory.wf m = true →
    memGet (memPut m a bs) b = if a ≤ b ∧ b < a + bs.length then bs.getD (b - a) 0 else memGet m b := by
  intro bs
  induction bs with
  | nil => intro a b m _; rw [if_neg (by simp)]; rfl
  | cons x r ih =>
    intro a b m h
    have h' : Memory.wf (sparsePut 0 a x m) = true := sparsePut_wf a x m 0 (Nat.zero_le _) h
    have hg : memGet (sparsePut 0 a x m) b = if b = a then x else memGet m b := sparseGet_put a b x m 0 h
    show memGet (memPut (sparsePut 0 a x m) (a + 1) r) b = _
    rw [ih (a + 1) b _ h', hg]
    by_cases hb : b = a
    · subst hb
      rw [if_neg (by omega), if_pos rfl, if_pos (by simp)]; simp
    · rw [if_neg hb]
      by_cases hr : a + 1 ≤ b ∧ b < a + 1 + r.length
      · rw [if_pos hr, if_pos (by simp only [List.length_cons]; omega)]
        have : b - a = (b - (a + 1)) + 1 := by omega
        rw [this]; simp
      · rw [if_neg hr, if_neg (by simp only [List.length_cons]; omega)]

/-- A write through the state keeps the canonical form. -/
theorem State.wr_wf (s : State) (k : Nat) (bs : List Byte) (h : Memory.wf s.mem = true) : Memory.wf (s.wr k bs).mem = true :=
  memPut_wf bs k s.mem h

/-- What a byte reads after a write. -/
theorem State.wr_read (s : State) (k : Nat) (bs : List Byte) (b : Nat) (h : Memory.wf s.mem = true) :
    memGet (s.wr k bs).mem b = if k ≤ b ∧ b < k + bs.length then bs.getD (b - k) 0 else memGet s.mem b :=
  memGet_memPut bs k b s.mem h

/-- Dropping bytes keeps the canonical form. -/
theorem Memory.wf_filter (m : List Host.Cell) (p : Host.Cell → Bool) (h : Memory.wf m = true) : Memory.wf (m.filter p) = true :=
  sparseWf_filter p m 0 h

/-- Loading a seat buffer keeps the canonical form. -/
theorem State.setSbuf_wf (s : State) (g : Nat) (l : List Host.Cell) (h : Memory.wf s.mem = true) :
    Memory.wf (s.setSbuf g l).mem = true :=
  foldl_sparsePut_wf _ l _ (Memory.wf_filter _ _ h)

/-- The memory at reset is canonical. -/
theorem reset_mem_wf : Memory.wf State.reset.mem = true := rfl

end Sys2Proof.Machine
end

