-- ==== Sys2Proof/Laws/Ops.lean ====
section
/-!
SUPPORT. One lemma for each shared operation, saying once what it can do: which instruction issues, which command is due, what
completing a command or a unit issue writes, and that each keeps the canonical form of the memory and the counters.
-/
namespace Sys2Proof.Machine

/-! ### The queue of commands -/

/-- A step takes the front command and leaves the rest of the queue. -/
theorem step_cons (s : State) (c : Instr) (l : List Instr) (h : s.pending = c :: l) :
    step s = exec c { s with pending := l } := by simp only [step, h]

/-- On an empty queue the block idles, but for an SRAM upset. -/
theorem step_nil (s : State) (h : s.pending = []) : step s = .next s.upset := by simp only [step, h]

/-! ### Issue of a thread instruction (04 R94 to R99) -/

/-- Words that may be fetched do not stop an instruction (04 R97, R98). -/
theorem Th.Fetchable.fetch {t : Th} {s : State} (h : t.Fetchable s) (f : State) : t.fetch s f = f := by
  obtain ⟨ha, ⟨k, h1⟩, h2⟩ := h
  by_cases hl : t.len = 8
  · obtain ⟨k2, h2⟩ := h2 hl
    simp [Th.fetch, Th.fetchWord, ha, h1, hl, h2]
  · simp [Th.fetch, Th.fetchWord, ha, h1, hl]

/-- Everything a fetch can do: a fault, a wait for a page, or what follows it. -/
theorem Th.fetch_cases (t : Th) (s f : State) :
    (∃ k a, t.fetch s f = t.fault s k a) ∨ (∃ b, t.fetch s f = t.stall s (.page b)) ∨ t.fetch s f = f := by
  have one (va : Nat) (f : State) : (∃ k a, t.fetchWord s va f = t.fault s k a) ∨ (∃ b, t.fetchWord s va f = t.stall s (.page b))
      ∨ t.fetchWord s va f = f := by
    unfold Th.fetchWord
    split
    · exact .inl ⟨_, _, rfl⟩
    · exact .inr (.inl ⟨_, rfl⟩)
    · exact .inr (.inr rfl)
  unfold Th.fetch
  dsimp only
  split
  · exact .inl ⟨_, _, rfl⟩
  · obtain ⟨k, a, e⟩ | ⟨b, e⟩ | e := one t.ctx.pc.toNat (if t.len = 8 then t.fetchWord s (t.ctx.pc.toNat + 4) f else f)
    · exact .inl ⟨k, a, e⟩
    · exact .inr (.inl ⟨b, e⟩)
    · rw [e]
      split
      · exact one _ f
      · exact .inr (.inr rfl)

/-- A scalar or control instruction that issues with its guard set runs its own effect. -/
theorem State.scalar_issues {s : State} {i : Iss} {ins : Instr} {ss : List (BitVec 5)} {t : Th} (f : Th → State → State)
    (h : s.Issues ins i ss [] t) (g : t.Enabled) : s.scalar i ins ss f = f t s := by
  obtain ⟨h1, h2, h3, h4⟩ := h
  have g' : bitAt t.guard.toNat 0 = true := g
  simp [State.scalar, State.issue, h1, h2, h3, h4.fetch, g']

/-- A scalar or control instruction whose guard bit 0 is 0 only advances. -/
theorem State.scalar_skips {s : State} {i : Iss} {ins : Instr} {ss : List (BitVec 5)} {t : Th} (f : Th → State → State)
    (h : s.Issues ins i ss [] t) (g : ¬ t.Enabled) : s.scalar i ins ss f = t.skip s := by
  obtain ⟨h1, h2, h3, h4⟩ := h
  have g' : bitAt t.guard.toNat 0 = false := by simpa [Th.Enabled] using g
  simp [State.scalar, State.issue, h1, h2, h3, h4.fetch, g']

/-- A vector instruction that issues runs its own effect under whatever guard. -/
theorem State.vector_issues {s : State} {i : Iss} {ins : Instr} {ss vs : List (BitVec 5)} {t : Th} (f : Th → State → State)
    (h : s.Issues ins i ss vs t) : s.vector i ins ss vs f = f t s := by
  obtain ⟨h1, h2, h3, h4⟩ := h
  simp [State.vector, State.issue, h1, h2, h3, h4.fetch]

/-- Everything an instruction can do at issue: nothing, a fault, a wait for a page, an advance, or its own effect. -/
theorem State.issue_cases (s : State) (i : Iss) (word len : Nat) (legal vec : Bool) (ss vs : List (BitVec 5)) (f : Th → State → State) :
    s.issue i word len legal vec ss vs f = s ∨
    ∃ t, s.thread i word len = some t ∧
      ((∃ k a, s.issue i word len legal vec ss vs f = t.fault s k a) ∨
       (∃ b, s.issue i word len legal vec ss vs f = t.stall s (.page b)) ∨
       s.issue i word len legal vec ss vs f = t.skip s ∨
       (legal = true ∧ t.ctx.blocked ss vs = false ∧ s.issue i word len legal vec ss vs f = f t s)) := by
  unfold State.issue
  cases ht : s.thread i word len with
  | none => exact .inl rfl
  | some t =>
    dsimp only
    obtain ⟨k, a, e⟩ | ⟨b, e⟩ | e := t.fetch_cases s (if (!legal) = true then t.fault s 1 0 else if t.ctx.blocked ss vs = true then s
      else if (!vec && !bitAt t.guard.toNat 0) = true then t.skip s else f t s)
    · exact .inr ⟨t, rfl, .inl ⟨k, a, e⟩⟩
    · exact .inr ⟨t, rfl, .inr (.inl ⟨b, e⟩)⟩
    · rw [e]
      cases legal
      · exact .inr ⟨t, rfl, .inl ⟨_, _, rfl⟩⟩
      · cases hb : t.ctx.blocked ss vs
        · cases vec <;> cases hg : bitAt t.guard.toNat 0
          · exact .inr ⟨t, rfl, .inr (.inr (.inl (by simp)))⟩
          all_goals exact .inr ⟨t, rfl, .inr (.inr (.inr ⟨rfl, hb, by simp⟩))⟩
        · exact .inl (by simp)

/-- A context store touches only the seats. -/
theorem State.updCtx_frame (s : State) (g c : Nat) (f : Ctx → Ctx) : ∃ l, s.updCtx g c f = { s with seats := l } := ⟨_, rfl⟩

/-- An advance touches only the seats. -/
theorem Th.done_frame (t : Th) (s : State) (k : Ctx) : ∃ l, t.done s k = { s with seats := l } := ⟨_, rfl⟩

/-- A jump touches only the seats. -/
theorem Th.jump_frame (t : Th) (s : State) (k : Ctx) (pc : Addr) : ∃ l, t.jump s k pc = { s with seats := l } := ⟨_, rfl⟩

/-- A skipped instruction touches only the seats. -/
theorem Th.skip_frame (t : Th) (s : State) : ∃ l, t.skip s = { s with seats := l } := ⟨_, rfl⟩

/-- A wait touches only the seats. -/
theorem Th.stall_frame (t : Th) (s : State) (w : Wait) : ∃ l, t.stall s w = { s with seats := l } := ⟨_, rfl⟩

/-! ### Commands in flight (18 R473) -/

/-- A command found at a stage is in flight with that opcode at that stage. -/
theorem State.cmdAt_some {s : State} {h op stage : Nat} {c : Cmd} :
    s.cmdAt h op stage = some c ↔ s.cmd? h = some c ∧ c.opcode = op ∧ c.stage = stage := by
  unfold State.cmdAt
  cases hc : s.cmd? h with
  | none => simp
  | some d => by_cases hd : d.opcode = op ∧ d.stage = stage <;> simp [hd] <;> rintro rfl <;> simp_all

/-- A command that is due is found at its checks. -/
theorem State.Due.cmdAt {s : State} {h op : Nat} {c : Cmd} (d : s.Due h op c) : s.cmdAt h op 0 = some c :=
  State.cmdAt_some.2 ⟨d.1, d.2.1, d.2.2.1⟩

/-- Completing a handle that is not in flight does nothing. -/
theorem State.complete_none {s : State} {h : Nat} (st n r0 r1 : Nat) (hc : s.cmd? h = none) : s.complete h st n r0 r1 = s := by
  simp only [State.complete, hc]

/-- An address a unit resolves is aligned. -/
theorem State.resolve_aligned {s : State} {t a len al k : Nat} (h : s.resolve t a len al = some k) : a % al = 0 := by
  unfold State.resolve at h
  split at h
  · cases h
  · omega

/-! ### The canonical form is kept -/

/-- A change of anything but the memory and the counters keeps the canonical form. -/
theorem State.Inv.congr {s t : State} (h : s.Inv) (hm : t.mem = s.mem) (hc : t.ctr = s.ctr) : t.Inv := by
  unfold State.Inv at *; rw [hm, hc]; exact h

/-- A byte store keeps the canonical form. -/
theorem State.Inv.wr {s : State} (h : s.Inv) (k : Nat) (bs : List Byte) : (s.wr k bs).Inv :=
  ⟨State.wr_wf s k bs h.1, h.2⟩

/-- Counting keeps the canonical form. -/
theorem State.Inv.bumpBy {s : State} (h : s.Inv) (off n : Nat) : (s.bumpBy off n).Inv :=
  ⟨h.1, sparsePut_wf _ _ _ _ (Nat.zero_le _) h.2⟩

/-- Raising a vector keeps the canonical form. -/
theorem State.Inv.msix {s : State} (h : s.Inv) (v : Nat) : (s.msix v).Inv := by
  unfold State.msix; split <;> (try split) <;> exact h.congr rfl rfl

/-- Appending to the failure log keeps the canonical form. -/
theorem State.Inv.event {s : State} (h : s.Inv) (code holder st arg : Nat) : (s.event code holder st arg).Inv := by
  unfold State.event; exact h

/-- A 64-bit count keeps the canonical form. -/
theorem State.Inv.bump64 {s : State} (h : s.Inv) (off n : Nat) : (s.bump64 off n).Inv := by
  exact ⟨h.1, sparsePut_wf _ _ _ _ (Nat.zero_le _) h.2⟩

/-- A counted event keeps the canonical form. -/
theorem State.Inv.fltBump {s : State} (h : s.Inv) (off holder st arg : Nat) : (s.fltBump off holder st arg).Inv :=
  (h.bumpBy off 1).event _ _ _ _

/-- A count of one keeps the canonical form. -/
theorem State.Inv.bump {s : State} (h : s.Inv) (off : Nat) : (s.bump off).Inv := h.bumpBy off 1

/-- A change of a tenant keeps the canonical form. -/
theorem State.Inv.updTenant {s : State} (h : s.Inv) (t : Nat) (f : Tenant → Tenant) : (s.updTenant t f).Inv := h

/-- A change of a queue pair keeps the canonical form. -/
theorem State.Inv.updQueue {s : State} (h : s.Inv) (t q : Nat) (f : QPair → QPair) : (s.updQueue t q f).Inv := h

/-- A tenant's fault keeps the canonical form. -/
theorem State.Inv.tenantFault {s : State} (h : s.Inv) (t cause : Nat) : (s.tenantFault t cause).Inv := by
  unfold State.tenantFault
  split
  · exact h
  · exact ((h.updTenant _ _).msix _).bump _

/-- Writing a completion entry keeps the canonical form. -/
theorem State.Inv.writeEntry {s : State} (h : s.Inv) (c : Cmd) (q : QPair) (st n r0 r1 : Nat) :
    (s.writeEntry c q st n r0 r1).Inv := by
  unfold State.writeEntry
  extract_lets size
  split
  · exact (h.tenantFault _ _).updQueue _ _ _
  · split
    · exact (h.tenantFault _ _).updQueue _ _ _
    · extract_lets s1
      have h1 : s1.Inv := (h.wr _ _).updQueue _ _ _
      split
      · exact h1
      · exact h1.msix _

/-- Counting a completion keeps the canonical form. -/
theorem State.Inv.countCompletion {s : State} (h : s.Inv) (c : Cmd) (st : Nat) : (s.countCompletion c st).Inv := by
  unfold State.countCompletion
  dsimp only
  have h1 : (if st = St.badPacket || st = St.unsupported then s.bump 0x0002002C else s).Inv := by
    split
    · exact h.bumpBy _ _
    · exact h
  generalize (if st = St.badPacket || st = St.unsupported then s.bump 0x0002002C else s) = s1 at *
  have h2 : (if st = St.aborted then s1.fltBump 0x000F001C (holderId 7 c.tenant) st c.opcode else s1).Inv := by
    split
    · exact h1.fltBump _ _ _ _
    · exact h1
  generalize (if st = St.aborted then s1.fltBump 0x000F001C (holderId 7 c.tenant) st c.opcode else s1) = s2 at *
  split
  · exact (h2.bump64 _ _).event _ _ _ _
  · exact h2

/-- Posting one completion keeps the canonical form. -/
theorem State.Inv.postOne {s : State} (h : s.Inv) (hd st n r0 r1 : Nat) : (s.postOne hd st n r0 r1).Inv := by
  unfold State.postOne
  split
  · exact h
  · next c _ =>
    have h1 : State.Inv (State.countCompletion { s with cmds := s.cmds.filter (fun x => x.handle ≠ hd) } c st) := by
      refine State.Inv.countCompletion ?_ c st
      exact h
    dsimp only
    split
    · exact h1
    · exact h1.writeEntry _ _ _ _ _ _

/-- Removing the pairs whose deletion is due keeps the canonical form. -/
theorem State.Inv.settleDeletes (t : Nat) : ∀ (k : Nat) {s : State}, s.Inv → (State.settleDeletes t k s).Inv
  | 0, _, h => h
  | k + 1, s, h => by
    unfold State.settleDeletes
    dsimp only
    split
    · exact h
    · refine State.Inv.settleDeletes t k (State.Inv.postOne ?_ _ _ _ _ _)
      exact h

/-- Completing a command keeps the canonical form. -/
theorem State.Inv.complete {s : State} (h : s.Inv) (hd st n r0 r1 : Nat) : (s.complete hd st n r0 r1).Inv := by
  unfold State.complete
  split
  · exact h
  · exact State.Inv.settleDeletes _ _ (h.postOne _ _ _ _ _)

/-- Completing a command with a status keeps the canonical form. -/
theorem State.Inv.fail {s : State} (h : s.Inv) (hd st : Nat) : (s.fail hd st).Inv := h.complete _ _ _ _ _

/-- A fold whose every step keeps the canonical form keeps it. -/
theorem State.Inv.foldl {α : Type} (f : State → α → State) (hf : ∀ s a, s.Inv → (f s a).Inv) : ∀ (l : List α) {s : State}, s.Inv →
    (l.foldl f s).Inv
  | [], _, h => h
  | a :: r, _, h => State.Inv.foldl f hf r (hf _ a h)

/-- Ending an invocation keeps the canonical form. -/
theorem State.Inv.endInvocation {s : State} (h : s.Inv) (n : Nat) : (s.endInvocation n).Inv := by
  unfold State.endInvocation
  split
  · exact h
  · next v _ =>
    extract_lets s1 s2 s3
    have h3 : s3.Inv := by
      refine State.Inv.foldl _ (fun _ _ hs => ?_) _ ?_
      · exact hs
      · exact h
    split
    · exact h3.fail _ _
    · split
      · exact h3.complete _ _ _ _ _
      · split
        · exact h3.fail _ _
        · split
          · exact h3
          · split
            · exact h3.complete _ _ _ _ _
            · exact (h3.wr _ _).complete _ _ _ _ _

/-- Waking a seat keeps the canonical form. -/
theorem State.Inv.settleSeat {s : State} (h : s.Inv) (g : Nat) : (s.settleSeat g).Inv := by
  unfold State.settleSeat
  have h1 : (s.updSeat g Seat.wake).Inv := h.congr rfl rfl
  dsimp only
  split
  · exact h1
  · unfold State.checkEnd
    split
    · exact h1
    · split
      · exact h1.endInvocation _
      · exact h1

/-- Releasing a parked ticket touches only the invocations. -/
theorem State.Inv.releaseParked {s : State} (h : s.Inv) (k : IssueKey) : (s.releaseParked k).Inv := by
  unfold State.releaseParked
  split
  · exact h
  · exact h

/-- Finishing a unit issue keeps the canonical form. -/
theorem State.Inv.finishIssue {s : State} (h : s.Inv) (k : IssueKey) (st n : Nat) : (s.finishIssue k st n).Inv := by
  unfold State.finishIssue
  split
  · exact h
  · next u _ =>
    extract_lets _ s1 s2 s3 s4 s5 s6
    have h1 : s1.Inv := by
      unfold s1
      split
      · exact h.wr _ _
      · exact h
    have h3 : s3.Inv := by
      unfold s3
      split
      · exact State.Inv.bump64 (h1.congr rfl rfl) _ _
      · exact h1.congr rfl rfl
    have h4 : s4.Inv := by
      unfold s4
      split
      · exact h3.fltBump _ _ _ _
      · exact h3
    have h5 : s5.Inv := by
      unfold s5
      split
      · exact (h4.bump64 _ _).event _ _ _ _
      · exact h4
    have h6 : s6.Inv := by
      refine State.Inv.releaseParked ?_ _
      exact h5.congr rfl rfl
    exact h6.settleSeat _

/-- Completing whoever waits keeps the canonical form. -/
theorem State.Inv.completeWaiter {s : State} (h : s.Inv) (w : Waiter) (st n r0 : Nat) : (s.completeWaiter w st n r0).Inv := by
  cases w with
  | cmd => exact h.complete _ _ _ _ _
  | issue => exact h.finishIssue _ _ _

/-- A thread fault keeps the canonical form. -/
theorem Th.fault_inv {s : State} (h : s.Inv) (t : Th) (k a : Nat) : (t.fault s k a).Inv := by
  unfold Th.fault
  refine State.Inv.fltBump ?_ _ _ _ _
  exact h

/-- Issuing keeps the canonical form if the instruction's own effect does. -/
theorem State.issue_inv {s : State} (h : s.Inv) (i : Iss) (word len : Nat) (legal vec : Bool) (ss vs : List (BitVec 5))
    (f : Th → State → State) (hf : ∀ t, (f t s).Inv) : (s.issue i word len legal vec ss vs f).Inv := by
  obtain e | ⟨t, -, ⟨k, a, e⟩ | ⟨b, e⟩ | e | ⟨-, -, e⟩⟩ := s.issue_cases i word len legal vec ss vs f <;> rw [e]
  · exact h
  · exact Th.fault_inv h t k a
  · exact h.congr rfl rfl
  · exact h.congr rfl rfl
  · exact hf t

/-! ### A hand's pot shares (14 R370) -/

/-- Dealing pot shares touches only the memory, the marks of bad pot words and the hands. -/
theorem State.dealPot_frame (s : State) (h : Nat) : ∃ m b l, s.dealPot h = { s with mem := m, potBad := b, hands := l } := ⟨_, _, _, rfl⟩

/-- Dealing pot shares keeps the canonical form. -/
theorem State.Inv.dealPot {s : State} (hs : s.Inv) (h : Nat) : (s.dealPot h).Inv :=
  ⟨Memory.wf_filter _ _ hs.1, hs.2⟩

/-- Of the hands it changes one, and of that hand its shares. -/
theorem State.dealPot_hands (s : State) (h : Nat) : ∃ p, (s.dealPot h).hands = s.hands.modify h (fun y => { y with pot := p }) := ⟨_, rfl⟩

end Sys2Proof.Machine
end

