-- ==== Sys2Proof/Laws/State.lean ====
section
/-!
SUPPORT. What each update of the state does to each field, true by computation. The update names the one field it changes.
-/
namespace Sys2Proof.Machine

/-! ### State.updSearch -/

@[simp] theorem State.updSearch_variant (s : State) (f : Search → Search) : (s.updSearch f).variant = s.variant := rfl
@[simp] theorem State.updSearch_power (s : State) (f : Search → Search) : (s.updSearch f).power = s.power := rfl
@[simp] theorem State.updSearch_admin (s : State) (f : Search → Search) : (s.updSearch f).admin = s.admin := rfl
@[simp] theorem State.updSearch_tenants (s : State) (f : Search → Search) : (s.updSearch f).tenants = s.tenants := rfl
@[simp] theorem State.updSearch_rr (s : State) (f : Search → Search) : (s.updSearch f).rr = s.rr := rfl
@[simp] theorem State.updSearch_cmds (s : State) (f : Search → Search) : (s.updSearch f).cmds = s.cmds := rfl
@[simp] theorem State.updSearch_nextHandle (s : State) (f : Search → Search) : (s.updSearch f).nextHandle = s.nextHandle := rfl
@[simp] theorem State.updSearch_hostMap (s : State) (f : Search → Search) : (s.updSearch f).hostMap = s.hostMap := rfl
@[simp] theorem State.updSearch_dlr (s : State) (f : Search → Search) : (s.updSearch f).dlr = s.dlr := rfl
@[simp] theorem State.updSearch_hands (s : State) (f : Search → Search) : (s.updSearch f).hands = s.hands := rfl
@[simp] theorem State.updSearch_invs (s : State) (f : Search → Search) : (s.updSearch f).invs = s.invs := rfl
@[simp] theorem State.updSearch_nextInv (s : State) (f : Search → Search) : (s.updSearch f).nextInv = s.nextInv := rfl
@[simp] theorem State.updSearch_seats (s : State) (f : Search → Search) : (s.updSearch f).seats = s.seats := rfl
@[simp] theorem State.updSearch_steadyLoad (s : State) (f : Search → Search) : (s.updSearch f).steadyLoad = s.steadyLoad := rfl
@[simp] theorem State.updSearch_audCtrl (s : State) (f : Search → Search) : (s.updSearch f).audCtrl = s.audCtrl := rfl
@[simp] theorem State.updSearch_audLast (s : State) (f : Search → Search) : (s.updSearch f).audLast = s.audLast := rfl
@[simp] theorem State.updSearch_audInject (s : State) (f : Search → Search) : (s.updSearch f).audInject = s.audInject := rfl
@[simp] theorem State.updSearch_potBad (s : State) (f : Search → Search) : (s.updSearch f).potBad = s.potBad := rfl
@[simp] theorem State.updSearch_pt (s : State) (f : Search → Search) : (s.updSearch f).pt = s.pt := rfl
@[simp] theorem State.updSearch_issues (s : State) (f : Search → Search) : (s.updSearch f).issues = s.issues := rfl
@[simp] theorem State.updSearch_models (s : State) (f : Search → Search) : (s.updSearch f).models = s.models := rfl
@[simp] theorem State.updSearch_decks (s : State) (f : Search → Search) : (s.updSearch f).decks = s.decks := rfl
@[simp] theorem State.updSearch_automata (s : State) (f : Search → Search) : (s.updSearch f).automata = s.automata := rfl
@[simp] theorem State.updSearch_colls (s : State) (f : Search → Search) : (s.updSearch f).colls = s.colls := rfl
@[simp] theorem State.updSearch_dirLen (s : State) (f : Search → Search) : (s.updSearch f).dirLen = s.dirLen := rfl
@[simp] theorem State.updSearch_search (s : State) (f : Search → Search) : (s.updSearch f).search = f s.search := rfl
@[simp] theorem State.updSearch_selections (s : State) (f : Search → Search) : (s.updSearch f).selections = s.selections := rfl
@[simp] theorem State.updSearch_pipes (s : State) (f : Search → Search) : (s.updSearch f).pipes = s.pipes := rfl
@[simp] theorem State.updSearch_deckCache (s : State) (f : Search → Search) : (s.updSearch f).deckCache = s.deckCache := rfl
@[simp] theorem State.updSearch_maskCache (s : State) (f : Search → Search) : (s.updSearch f).maskCache = s.maskCache := rfl
@[simp] theorem State.updSearch_imageBuf (s : State) (f : Search → Search) : (s.updSearch f).imageBuf = s.imageBuf := rfl
@[simp] theorem State.updSearch_imageBad (s : State) (f : Search → Search) : (s.updSearch f).imageBad = s.imageBad := rfl
@[simp] theorem State.updSearch_serving (s : State) (f : Search → Search) : (s.updSearch f).serving = s.serving := rfl
@[simp] theorem State.updSearch_embed (s : State) (f : Search → Search) : (s.updSearch f).embed = s.embed := rfl
@[simp] theorem State.updSearch_tier (s : State) (f : Search → Search) : (s.updSearch f).tier = s.tier := rfl
@[simp] theorem State.updSearch_flash (s : State) (f : Search → Search) : (s.updSearch f).flash = s.flash := rfl
@[simp] theorem State.updSearch_flt (s : State) (f : Search → Search) : (s.updSearch f).flt = s.flt := rfl
@[simp] theorem State.updSearch_cell (s : State) (f : Search → Search) : (s.updSearch f).cell = s.cell := rfl
@[simp] theorem State.updSearch_cxl (s : State) (f : Search → Search) : (s.updSearch f).cxl = s.cxl := rfl
@[simp] theorem State.updSearch_sec (s : State) (f : Search → Search) : (s.updSearch f).sec = s.sec := rfl
@[simp] theorem State.updSearch_mgmt (s : State) (f : Search → Search) : (s.updSearch f).mgmt = s.mgmt := rfl
@[simp] theorem State.updSearch_dump (s : State) (f : Search → Search) : (s.updSearch f).dump = s.dump := rfl
@[simp] theorem State.updSearch_ctr (s : State) (f : Search → Search) : (s.updSearch f).ctr = s.ctr := rfl
@[simp] theorem State.updSearch_latch (s : State) (f : Search → Search) : (s.updSearch f).latch = s.latch := rfl
@[simp] theorem State.updSearch_mem (s : State) (f : Search → Search) : (s.updSearch f).mem = s.mem := rfl
@[simp] theorem State.updSearch_fresh (s : State) (f : Search → Search) : (s.updSearch f).fresh = s.fresh := rfl
@[simp] theorem State.updSearch_out (s : State) (f : Search → Search) : (s.updSearch f).out = s.out := rfl
@[simp] theorem State.updSearch_pending (s : State) (f : Search → Search) : (s.updSearch f).pending = s.pending := rfl

/-! ### State.updFlash -/

@[simp] theorem State.updFlash_variant (s : State) (f : Flash → Flash) : (s.updFlash f).variant = s.variant := rfl
@[simp] theorem State.updFlash_power (s : State) (f : Flash → Flash) : (s.updFlash f).power = s.power := rfl
@[simp] theorem State.updFlash_admin (s : State) (f : Flash → Flash) : (s.updFlash f).admin = s.admin := rfl
@[simp] theorem State.updFlash_tenants (s : State) (f : Flash → Flash) : (s.updFlash f).tenants = s.tenants := rfl
@[simp] theorem State.updFlash_rr (s : State) (f : Flash → Flash) : (s.updFlash f).rr = s.rr := rfl
@[simp] theorem State.updFlash_cmds (s : State) (f : Flash → Flash) : (s.updFlash f).cmds = s.cmds := rfl
@[simp] theorem State.updFlash_nextHandle (s : State) (f : Flash → Flash) : (s.updFlash f).nextHandle = s.nextHandle := rfl
@[simp] theorem State.updFlash_hostMap (s : State) (f : Flash → Flash) : (s.updFlash f).hostMap = s.hostMap := rfl
@[simp] theorem State.updFlash_dlr (s : State) (f : Flash → Flash) : (s.updFlash f).dlr = s.dlr := rfl
@[simp] theorem State.updFlash_hands (s : State) (f : Flash → Flash) : (s.updFlash f).hands = s.hands := rfl
@[simp] theorem State.updFlash_invs (s : State) (f : Flash → Flash) : (s.updFlash f).invs = s.invs := rfl
@[simp] theorem State.updFlash_nextInv (s : State) (f : Flash → Flash) : (s.updFlash f).nextInv = s.nextInv := rfl
@[simp] theorem State.updFlash_seats (s : State) (f : Flash → Flash) : (s.updFlash f).seats = s.seats := rfl
@[simp] theorem State.updFlash_steadyLoad (s : State) (f : Flash → Flash) : (s.updFlash f).steadyLoad = s.steadyLoad := rfl
@[simp] theorem State.updFlash_audCtrl (s : State) (f : Flash → Flash) : (s.updFlash f).audCtrl = s.audCtrl := rfl
@[simp] theorem State.updFlash_audLast (s : State) (f : Flash → Flash) : (s.updFlash f).audLast = s.audLast := rfl
@[simp] theorem State.updFlash_audInject (s : State) (f : Flash → Flash) : (s.updFlash f).audInject = s.audInject := rfl
@[simp] theorem State.updFlash_potBad (s : State) (f : Flash → Flash) : (s.updFlash f).potBad = s.potBad := rfl
@[simp] theorem State.updFlash_pt (s : State) (f : Flash → Flash) : (s.updFlash f).pt = s.pt := rfl
@[simp] theorem State.updFlash_issues (s : State) (f : Flash → Flash) : (s.updFlash f).issues = s.issues := rfl
@[simp] theorem State.updFlash_models (s : State) (f : Flash → Flash) : (s.updFlash f).models = s.models := rfl
@[simp] theorem State.updFlash_decks (s : State) (f : Flash → Flash) : (s.updFlash f).decks = s.decks := rfl
@[simp] theorem State.updFlash_automata (s : State) (f : Flash → Flash) : (s.updFlash f).automata = s.automata := rfl
@[simp] theorem State.updFlash_colls (s : State) (f : Flash → Flash) : (s.updFlash f).colls = s.colls := rfl
@[simp] theorem State.updFlash_dirLen (s : State) (f : Flash → Flash) : (s.updFlash f).dirLen = s.dirLen := rfl
@[simp] theorem State.updFlash_search (s : State) (f : Flash → Flash) : (s.updFlash f).search = s.search := rfl
@[simp] theorem State.updFlash_selections (s : State) (f : Flash → Flash) : (s.updFlash f).selections = s.selections := rfl
@[simp] theorem State.updFlash_pipes (s : State) (f : Flash → Flash) : (s.updFlash f).pipes = s.pipes := rfl
@[simp] theorem State.updFlash_deckCache (s : State) (f : Flash → Flash) : (s.updFlash f).deckCache = s.deckCache := rfl
@[simp] theorem State.updFlash_maskCache (s : State) (f : Flash → Flash) : (s.updFlash f).maskCache = s.maskCache := rfl
@[simp] theorem State.updFlash_imageBuf (s : State) (f : Flash → Flash) : (s.updFlash f).imageBuf = s.imageBuf := rfl
@[simp] theorem State.updFlash_imageBad (s : State) (f : Flash → Flash) : (s.updFlash f).imageBad = s.imageBad := rfl
@[simp] theorem State.updFlash_serving (s : State) (f : Flash → Flash) : (s.updFlash f).serving = s.serving := rfl
@[simp] theorem State.updFlash_embed (s : State) (f : Flash → Flash) : (s.updFlash f).embed = s.embed := rfl
@[simp] theorem State.updFlash_tier (s : State) (f : Flash → Flash) : (s.updFlash f).tier = s.tier := rfl
@[simp] theorem State.updFlash_flash (s : State) (f : Flash → Flash) : (s.updFlash f).flash = f s.flash := rfl
@[simp] theorem State.updFlash_flt (s : State) (f : Flash → Flash) : (s.updFlash f).flt = s.flt := rfl
@[simp] theorem State.updFlash_cell (s : State) (f : Flash → Flash) : (s.updFlash f).cell = s.cell := rfl
@[simp] theorem State.updFlash_cxl (s : State) (f : Flash → Flash) : (s.updFlash f).cxl = s.cxl := rfl
@[simp] theorem State.updFlash_sec (s : State) (f : Flash → Flash) : (s.updFlash f).sec = s.sec := rfl
@[simp] theorem State.updFlash_mgmt (s : State) (f : Flash → Flash) : (s.updFlash f).mgmt = s.mgmt := rfl
@[simp] theorem State.updFlash_dump (s : State) (f : Flash → Flash) : (s.updFlash f).dump = s.dump := rfl
@[simp] theorem State.updFlash_ctr (s : State) (f : Flash → Flash) : (s.updFlash f).ctr = s.ctr := rfl
@[simp] theorem State.updFlash_latch (s : State) (f : Flash → Flash) : (s.updFlash f).latch = s.latch := rfl
@[simp] theorem State.updFlash_mem (s : State) (f : Flash → Flash) : (s.updFlash f).mem = s.mem := rfl
@[simp] theorem State.updFlash_fresh (s : State) (f : Flash → Flash) : (s.updFlash f).fresh = s.fresh := rfl
@[simp] theorem State.updFlash_out (s : State) (f : Flash → Flash) : (s.updFlash f).out = s.out := rfl
@[simp] theorem State.updFlash_pending (s : State) (f : Flash → Flash) : (s.updFlash f).pending = s.pending := rfl

/-! ### State.updTier -/

@[simp] theorem State.updTier_variant (s : State) (f : Tier → Tier) : (s.updTier f).variant = s.variant := rfl
@[simp] theorem State.updTier_power (s : State) (f : Tier → Tier) : (s.updTier f).power = s.power := rfl
@[simp] theorem State.updTier_admin (s : State) (f : Tier → Tier) : (s.updTier f).admin = s.admin := rfl
@[simp] theorem State.updTier_tenants (s : State) (f : Tier → Tier) : (s.updTier f).tenants = s.tenants := rfl
@[simp] theorem State.updTier_rr (s : State) (f : Tier → Tier) : (s.updTier f).rr = s.rr := rfl
@[simp] theorem State.updTier_cmds (s : State) (f : Tier → Tier) : (s.updTier f).cmds = s.cmds := rfl
@[simp] theorem State.updTier_nextHandle (s : State) (f : Tier → Tier) : (s.updTier f).nextHandle = s.nextHandle := rfl
@[simp] theorem State.updTier_hostMap (s : State) (f : Tier → Tier) : (s.updTier f).hostMap = s.hostMap := rfl
@[simp] theorem State.updTier_dlr (s : State) (f : Tier → Tier) : (s.updTier f).dlr = s.dlr := rfl
@[simp] theorem State.updTier_hands (s : State) (f : Tier → Tier) : (s.updTier f).hands = s.hands := rfl
@[simp] theorem State.updTier_invs (s : State) (f : Tier → Tier) : (s.updTier f).invs = s.invs := rfl
@[simp] theorem State.updTier_nextInv (s : State) (f : Tier → Tier) : (s.updTier f).nextInv = s.nextInv := rfl
@[simp] theorem State.updTier_seats (s : State) (f : Tier → Tier) : (s.updTier f).seats = s.seats := rfl
@[simp] theorem State.updTier_steadyLoad (s : State) (f : Tier → Tier) : (s.updTier f).steadyLoad = s.steadyLoad := rfl
@[simp] theorem State.updTier_audCtrl (s : State) (f : Tier → Tier) : (s.updTier f).audCtrl = s.audCtrl := rfl
@[simp] theorem State.updTier_audLast (s : State) (f : Tier → Tier) : (s.updTier f).audLast = s.audLast := rfl
@[simp] theorem State.updTier_audInject (s : State) (f : Tier → Tier) : (s.updTier f).audInject = s.audInject := rfl
@[simp] theorem State.updTier_potBad (s : State) (f : Tier → Tier) : (s.updTier f).potBad = s.potBad := rfl
@[simp] theorem State.updTier_pt (s : State) (f : Tier → Tier) : (s.updTier f).pt = s.pt := rfl
@[simp] theorem State.updTier_issues (s : State) (f : Tier → Tier) : (s.updTier f).issues = s.issues := rfl
@[simp] theorem State.updTier_models (s : State) (f : Tier → Tier) : (s.updTier f).models = s.models := rfl
@[simp] theorem State.updTier_decks (s : State) (f : Tier → Tier) : (s.updTier f).decks = s.decks := rfl
@[simp] theorem State.updTier_automata (s : State) (f : Tier → Tier) : (s.updTier f).automata = s.automata := rfl
@[simp] theorem State.updTier_colls (s : State) (f : Tier → Tier) : (s.updTier f).colls = s.colls := rfl
@[simp] theorem State.updTier_dirLen (s : State) (f : Tier → Tier) : (s.updTier f).dirLen = s.dirLen := rfl
@[simp] theorem State.updTier_search (s : State) (f : Tier → Tier) : (s.updTier f).search = s.search := rfl
@[simp] theorem State.updTier_selections (s : State) (f : Tier → Tier) : (s.updTier f).selections = s.selections := rfl
@[simp] theorem State.updTier_pipes (s : State) (f : Tier → Tier) : (s.updTier f).pipes = s.pipes := rfl
@[simp] theorem State.updTier_deckCache (s : State) (f : Tier → Tier) : (s.updTier f).deckCache = s.deckCache := rfl
@[simp] theorem State.updTier_maskCache (s : State) (f : Tier → Tier) : (s.updTier f).maskCache = s.maskCache := rfl
@[simp] theorem State.updTier_imageBuf (s : State) (f : Tier → Tier) : (s.updTier f).imageBuf = s.imageBuf := rfl
@[simp] theorem State.updTier_imageBad (s : State) (f : Tier → Tier) : (s.updTier f).imageBad = s.imageBad := rfl
@[simp] theorem State.updTier_serving (s : State) (f : Tier → Tier) : (s.updTier f).serving = s.serving := rfl
@[simp] theorem State.updTier_embed (s : State) (f : Tier → Tier) : (s.updTier f).embed = s.embed := rfl
@[simp] theorem State.updTier_tier (s : State) (f : Tier → Tier) : (s.updTier f).tier = f s.tier := rfl
@[simp] theorem State.updTier_flash (s : State) (f : Tier → Tier) : (s.updTier f).flash = s.flash := rfl
@[simp] theorem State.updTier_flt (s : State) (f : Tier → Tier) : (s.updTier f).flt = s.flt := rfl
@[simp] theorem State.updTier_cell (s : State) (f : Tier → Tier) : (s.updTier f).cell = s.cell := rfl
@[simp] theorem State.updTier_cxl (s : State) (f : Tier → Tier) : (s.updTier f).cxl = s.cxl := rfl
@[simp] theorem State.updTier_sec (s : State) (f : Tier → Tier) : (s.updTier f).sec = s.sec := rfl
@[simp] theorem State.updTier_mgmt (s : State) (f : Tier → Tier) : (s.updTier f).mgmt = s.mgmt := rfl
@[simp] theorem State.updTier_dump (s : State) (f : Tier → Tier) : (s.updTier f).dump = s.dump := rfl
@[simp] theorem State.updTier_ctr (s : State) (f : Tier → Tier) : (s.updTier f).ctr = s.ctr := rfl
@[simp] theorem State.updTier_latch (s : State) (f : Tier → Tier) : (s.updTier f).latch = s.latch := rfl
@[simp] theorem State.updTier_mem (s : State) (f : Tier → Tier) : (s.updTier f).mem = s.mem := rfl
@[simp] theorem State.updTier_fresh (s : State) (f : Tier → Tier) : (s.updTier f).fresh = s.fresh := rfl
@[simp] theorem State.updTier_out (s : State) (f : Tier → Tier) : (s.updTier f).out = s.out := rfl
@[simp] theorem State.updTier_pending (s : State) (f : Tier → Tier) : (s.updTier f).pending = s.pending := rfl

/-! ### State.updServing -/

@[simp] theorem State.updServing_variant (s : State) (f : Serving → Serving) : (s.updServing f).variant = s.variant := rfl
@[simp] theorem State.updServing_power (s : State) (f : Serving → Serving) : (s.updServing f).power = s.power := rfl
@[simp] theorem State.updServing_admin (s : State) (f : Serving → Serving) : (s.updServing f).admin = s.admin := rfl
@[simp] theorem State.updServing_tenants (s : State) (f : Serving → Serving) : (s.updServing f).tenants = s.tenants := rfl
@[simp] theorem State.updServing_rr (s : State) (f : Serving → Serving) : (s.updServing f).rr = s.rr := rfl
@[simp] theorem State.updServing_cmds (s : State) (f : Serving → Serving) : (s.updServing f).cmds = s.cmds := rfl
@[simp] theorem State.updServing_nextHandle (s : State) (f : Serving → Serving) : (s.updServing f).nextHandle = s.nextHandle := rfl
@[simp] theorem State.updServing_hostMap (s : State) (f : Serving → Serving) : (s.updServing f).hostMap = s.hostMap := rfl
@[simp] theorem State.updServing_dlr (s : State) (f : Serving → Serving) : (s.updServing f).dlr = s.dlr := rfl
@[simp] theorem State.updServing_hands (s : State) (f : Serving → Serving) : (s.updServing f).hands = s.hands := rfl
@[simp] theorem State.updServing_invs (s : State) (f : Serving → Serving) : (s.updServing f).invs = s.invs := rfl
@[simp] theorem State.updServing_nextInv (s : State) (f : Serving → Serving) : (s.updServing f).nextInv = s.nextInv := rfl
@[simp] theorem State.updServing_seats (s : State) (f : Serving → Serving) : (s.updServing f).seats = s.seats := rfl
@[simp] theorem State.updServing_steadyLoad (s : State) (f : Serving → Serving) : (s.updServing f).steadyLoad = s.steadyLoad := rfl
@[simp] theorem State.updServing_audCtrl (s : State) (f : Serving → Serving) : (s.updServing f).audCtrl = s.audCtrl := rfl
@[simp] theorem State.updServing_audLast (s : State) (f : Serving → Serving) : (s.updServing f).audLast = s.audLast := rfl
@[simp] theorem State.updServing_audInject (s : State) (f : Serving → Serving) : (s.updServing f).audInject = s.audInject := rfl
@[simp] theorem State.updServing_potBad (s : State) (f : Serving → Serving) : (s.updServing f).potBad = s.potBad := rfl
@[simp] theorem State.updServing_pt (s : State) (f : Serving → Serving) : (s.updServing f).pt = s.pt := rfl
@[simp] theorem State.updServing_issues (s : State) (f : Serving → Serving) : (s.updServing f).issues = s.issues := rfl
@[simp] theorem State.updServing_models (s : State) (f : Serving → Serving) : (s.updServing f).models = s.models := rfl
@[simp] theorem State.updServing_decks (s : State) (f : Serving → Serving) : (s.updServing f).decks = s.decks := rfl
@[simp] theorem State.updServing_automata (s : State) (f : Serving → Serving) : (s.updServing f).automata = s.automata := rfl
@[simp] theorem State.updServing_colls (s : State) (f : Serving → Serving) : (s.updServing f).colls = s.colls := rfl
@[simp] theorem State.updServing_dirLen (s : State) (f : Serving → Serving) : (s.updServing f).dirLen = s.dirLen := rfl
@[simp] theorem State.updServing_search (s : State) (f : Serving → Serving) : (s.updServing f).search = s.search := rfl
@[simp] theorem State.updServing_selections (s : State) (f : Serving → Serving) : (s.updServing f).selections = s.selections := rfl
@[simp] theorem State.updServing_pipes (s : State) (f : Serving → Serving) : (s.updServing f).pipes = s.pipes := rfl
@[simp] theorem State.updServing_deckCache (s : State) (f : Serving → Serving) : (s.updServing f).deckCache = s.deckCache := rfl
@[simp] theorem State.updServing_maskCache (s : State) (f : Serving → Serving) : (s.updServing f).maskCache = s.maskCache := rfl
@[simp] theorem State.updServing_imageBuf (s : State) (f : Serving → Serving) : (s.updServing f).imageBuf = s.imageBuf := rfl
@[simp] theorem State.updServing_imageBad (s : State) (f : Serving → Serving) : (s.updServing f).imageBad = s.imageBad := rfl
@[simp] theorem State.updServing_serving (s : State) (f : Serving → Serving) : (s.updServing f).serving = f s.serving := rfl
@[simp] theorem State.updServing_embed (s : State) (f : Serving → Serving) : (s.updServing f).embed = s.embed := rfl
@[simp] theorem State.updServing_tier (s : State) (f : Serving → Serving) : (s.updServing f).tier = s.tier := rfl
@[simp] theorem State.updServing_flash (s : State) (f : Serving → Serving) : (s.updServing f).flash = s.flash := rfl
@[simp] theorem State.updServing_flt (s : State) (f : Serving → Serving) : (s.updServing f).flt = s.flt := rfl
@[simp] theorem State.updServing_cell (s : State) (f : Serving → Serving) : (s.updServing f).cell = s.cell := rfl
@[simp] theorem State.updServing_cxl (s : State) (f : Serving → Serving) : (s.updServing f).cxl = s.cxl := rfl
@[simp] theorem State.updServing_sec (s : State) (f : Serving → Serving) : (s.updServing f).sec = s.sec := rfl
@[simp] theorem State.updServing_mgmt (s : State) (f : Serving → Serving) : (s.updServing f).mgmt = s.mgmt := rfl
@[simp] theorem State.updServing_dump (s : State) (f : Serving → Serving) : (s.updServing f).dump = s.dump := rfl
@[simp] theorem State.updServing_ctr (s : State) (f : Serving → Serving) : (s.updServing f).ctr = s.ctr := rfl
@[simp] theorem State.updServing_latch (s : State) (f : Serving → Serving) : (s.updServing f).latch = s.latch := rfl
@[simp] theorem State.updServing_mem (s : State) (f : Serving → Serving) : (s.updServing f).mem = s.mem := rfl
@[simp] theorem State.updServing_fresh (s : State) (f : Serving → Serving) : (s.updServing f).fresh = s.fresh := rfl
@[simp] theorem State.updServing_out (s : State) (f : Serving → Serving) : (s.updServing f).out = s.out := rfl
@[simp] theorem State.updServing_pending (s : State) (f : Serving → Serving) : (s.updServing f).pending = s.pending := rfl

/-! ### State.updEmbed -/

@[simp] theorem State.updEmbed_variant (s : State) (f : Embed → Embed) : (s.updEmbed f).variant = s.variant := rfl
@[simp] theorem State.updEmbed_power (s : State) (f : Embed → Embed) : (s.updEmbed f).power = s.power := rfl
@[simp] theorem State.updEmbed_admin (s : State) (f : Embed → Embed) : (s.updEmbed f).admin = s.admin := rfl
@[simp] theorem State.updEmbed_tenants (s : State) (f : Embed → Embed) : (s.updEmbed f).tenants = s.tenants := rfl
@[simp] theorem State.updEmbed_rr (s : State) (f : Embed → Embed) : (s.updEmbed f).rr = s.rr := rfl
@[simp] theorem State.updEmbed_cmds (s : State) (f : Embed → Embed) : (s.updEmbed f).cmds = s.cmds := rfl
@[simp] theorem State.updEmbed_nextHandle (s : State) (f : Embed → Embed) : (s.updEmbed f).nextHandle = s.nextHandle := rfl
@[simp] theorem State.updEmbed_hostMap (s : State) (f : Embed → Embed) : (s.updEmbed f).hostMap = s.hostMap := rfl
@[simp] theorem State.updEmbed_dlr (s : State) (f : Embed → Embed) : (s.updEmbed f).dlr = s.dlr := rfl
@[simp] theorem State.updEmbed_hands (s : State) (f : Embed → Embed) : (s.updEmbed f).hands = s.hands := rfl
@[simp] theorem State.updEmbed_invs (s : State) (f : Embed → Embed) : (s.updEmbed f).invs = s.invs := rfl
@[simp] theorem State.updEmbed_nextInv (s : State) (f : Embed → Embed) : (s.updEmbed f).nextInv = s.nextInv := rfl
@[simp] theorem State.updEmbed_seats (s : State) (f : Embed → Embed) : (s.updEmbed f).seats = s.seats := rfl
@[simp] theorem State.updEmbed_steadyLoad (s : State) (f : Embed → Embed) : (s.updEmbed f).steadyLoad = s.steadyLoad := rfl
@[simp] theorem State.updEmbed_audCtrl (s : State) (f : Embed → Embed) : (s.updEmbed f).audCtrl = s.audCtrl := rfl
@[simp] theorem State.updEmbed_audLast (s : State) (f : Embed → Embed) : (s.updEmbed f).audLast = s.audLast := rfl
@[simp] theorem State.updEmbed_audInject (s : State) (f : Embed → Embed) : (s.updEmbed f).audInject = s.audInject := rfl
@[simp] theorem State.updEmbed_potBad (s : State) (f : Embed → Embed) : (s.updEmbed f).potBad = s.potBad := rfl
@[simp] theorem State.updEmbed_pt (s : State) (f : Embed → Embed) : (s.updEmbed f).pt = s.pt := rfl
@[simp] theorem State.updEmbed_issues (s : State) (f : Embed → Embed) : (s.updEmbed f).issues = s.issues := rfl
@[simp] theorem State.updEmbed_models (s : State) (f : Embed → Embed) : (s.updEmbed f).models = s.models := rfl
@[simp] theorem State.updEmbed_decks (s : State) (f : Embed → Embed) : (s.updEmbed f).decks = s.decks := rfl
@[simp] theorem State.updEmbed_automata (s : State) (f : Embed → Embed) : (s.updEmbed f).automata = s.automata := rfl
@[simp] theorem State.updEmbed_colls (s : State) (f : Embed → Embed) : (s.updEmbed f).colls = s.colls := rfl
@[simp] theorem State.updEmbed_dirLen (s : State) (f : Embed → Embed) : (s.updEmbed f).dirLen = s.dirLen := rfl
@[simp] theorem State.updEmbed_search (s : State) (f : Embed → Embed) : (s.updEmbed f).search = s.search := rfl
@[simp] theorem State.updEmbed_selections (s : State) (f : Embed → Embed) : (s.updEmbed f).selections = s.selections := rfl
@[simp] theorem State.updEmbed_pipes (s : State) (f : Embed → Embed) : (s.updEmbed f).pipes = s.pipes := rfl
@[simp] theorem State.updEmbed_deckCache (s : State) (f : Embed → Embed) : (s.updEmbed f).deckCache = s.deckCache := rfl
@[simp] theorem State.updEmbed_maskCache (s : State) (f : Embed → Embed) : (s.updEmbed f).maskCache = s.maskCache := rfl
@[simp] theorem State.updEmbed_imageBuf (s : State) (f : Embed → Embed) : (s.updEmbed f).imageBuf = s.imageBuf := rfl
@[simp] theorem State.updEmbed_imageBad (s : State) (f : Embed → Embed) : (s.updEmbed f).imageBad = s.imageBad := rfl
@[simp] theorem State.updEmbed_serving (s : State) (f : Embed → Embed) : (s.updEmbed f).serving = s.serving := rfl
@[simp] theorem State.updEmbed_embed (s : State) (f : Embed → Embed) : (s.updEmbed f).embed = f s.embed := rfl
@[simp] theorem State.updEmbed_tier (s : State) (f : Embed → Embed) : (s.updEmbed f).tier = s.tier := rfl
@[simp] theorem State.updEmbed_flash (s : State) (f : Embed → Embed) : (s.updEmbed f).flash = s.flash := rfl
@[simp] theorem State.updEmbed_flt (s : State) (f : Embed → Embed) : (s.updEmbed f).flt = s.flt := rfl
@[simp] theorem State.updEmbed_cell (s : State) (f : Embed → Embed) : (s.updEmbed f).cell = s.cell := rfl
@[simp] theorem State.updEmbed_cxl (s : State) (f : Embed → Embed) : (s.updEmbed f).cxl = s.cxl := rfl
@[simp] theorem State.updEmbed_sec (s : State) (f : Embed → Embed) : (s.updEmbed f).sec = s.sec := rfl
@[simp] theorem State.updEmbed_mgmt (s : State) (f : Embed → Embed) : (s.updEmbed f).mgmt = s.mgmt := rfl
@[simp] theorem State.updEmbed_dump (s : State) (f : Embed → Embed) : (s.updEmbed f).dump = s.dump := rfl
@[simp] theorem State.updEmbed_ctr (s : State) (f : Embed → Embed) : (s.updEmbed f).ctr = s.ctr := rfl
@[simp] theorem State.updEmbed_latch (s : State) (f : Embed → Embed) : (s.updEmbed f).latch = s.latch := rfl
@[simp] theorem State.updEmbed_mem (s : State) (f : Embed → Embed) : (s.updEmbed f).mem = s.mem := rfl
@[simp] theorem State.updEmbed_fresh (s : State) (f : Embed → Embed) : (s.updEmbed f).fresh = s.fresh := rfl
@[simp] theorem State.updEmbed_out (s : State) (f : Embed → Embed) : (s.updEmbed f).out = s.out := rfl
@[simp] theorem State.updEmbed_pending (s : State) (f : Embed → Embed) : (s.updEmbed f).pending = s.pending := rfl

/-! ### State.updFlt -/

@[simp] theorem State.updFlt_variant (s : State) (f : Flt → Flt) : (s.updFlt f).variant = s.variant := rfl
@[simp] theorem State.updFlt_power (s : State) (f : Flt → Flt) : (s.updFlt f).power = s.power := rfl
@[simp] theorem State.updFlt_admin (s : State) (f : Flt → Flt) : (s.updFlt f).admin = s.admin := rfl
@[simp] theorem State.updFlt_tenants (s : State) (f : Flt → Flt) : (s.updFlt f).tenants = s.tenants := rfl
@[simp] theorem State.updFlt_rr (s : State) (f : Flt → Flt) : (s.updFlt f).rr = s.rr := rfl
@[simp] theorem State.updFlt_cmds (s : State) (f : Flt → Flt) : (s.updFlt f).cmds = s.cmds := rfl
@[simp] theorem State.updFlt_nextHandle (s : State) (f : Flt → Flt) : (s.updFlt f).nextHandle = s.nextHandle := rfl
@[simp] theorem State.updFlt_hostMap (s : State) (f : Flt → Flt) : (s.updFlt f).hostMap = s.hostMap := rfl
@[simp] theorem State.updFlt_dlr (s : State) (f : Flt → Flt) : (s.updFlt f).dlr = s.dlr := rfl
@[simp] theorem State.updFlt_hands (s : State) (f : Flt → Flt) : (s.updFlt f).hands = s.hands := rfl
@[simp] theorem State.updFlt_invs (s : State) (f : Flt → Flt) : (s.updFlt f).invs = s.invs := rfl
@[simp] theorem State.updFlt_nextInv (s : State) (f : Flt → Flt) : (s.updFlt f).nextInv = s.nextInv := rfl
@[simp] theorem State.updFlt_seats (s : State) (f : Flt → Flt) : (s.updFlt f).seats = s.seats := rfl
@[simp] theorem State.updFlt_steadyLoad (s : State) (f : Flt → Flt) : (s.updFlt f).steadyLoad = s.steadyLoad := rfl
@[simp] theorem State.updFlt_audCtrl (s : State) (f : Flt → Flt) : (s.updFlt f).audCtrl = s.audCtrl := rfl
@[simp] theorem State.updFlt_audLast (s : State) (f : Flt → Flt) : (s.updFlt f).audLast = s.audLast := rfl
@[simp] theorem State.updFlt_audInject (s : State) (f : Flt → Flt) : (s.updFlt f).audInject = s.audInject := rfl
@[simp] theorem State.updFlt_potBad (s : State) (f : Flt → Flt) : (s.updFlt f).potBad = s.potBad := rfl
@[simp] theorem State.updFlt_pt (s : State) (f : Flt → Flt) : (s.updFlt f).pt = s.pt := rfl
@[simp] theorem State.updFlt_issues (s : State) (f : Flt → Flt) : (s.updFlt f).issues = s.issues := rfl
@[simp] theorem State.updFlt_models (s : State) (f : Flt → Flt) : (s.updFlt f).models = s.models := rfl
@[simp] theorem State.updFlt_decks (s : State) (f : Flt → Flt) : (s.updFlt f).decks = s.decks := rfl
@[simp] theorem State.updFlt_automata (s : State) (f : Flt → Flt) : (s.updFlt f).automata = s.automata := rfl
@[simp] theorem State.updFlt_colls (s : State) (f : Flt → Flt) : (s.updFlt f).colls = s.colls := rfl
@[simp] theorem State.updFlt_dirLen (s : State) (f : Flt → Flt) : (s.updFlt f).dirLen = s.dirLen := rfl
@[simp] theorem State.updFlt_search (s : State) (f : Flt → Flt) : (s.updFlt f).search = s.search := rfl
@[simp] theorem State.updFlt_selections (s : State) (f : Flt → Flt) : (s.updFlt f).selections = s.selections := rfl
@[simp] theorem State.updFlt_pipes (s : State) (f : Flt → Flt) : (s.updFlt f).pipes = s.pipes := rfl
@[simp] theorem State.updFlt_deckCache (s : State) (f : Flt → Flt) : (s.updFlt f).deckCache = s.deckCache := rfl
@[simp] theorem State.updFlt_maskCache (s : State) (f : Flt → Flt) : (s.updFlt f).maskCache = s.maskCache := rfl
@[simp] theorem State.updFlt_imageBuf (s : State) (f : Flt → Flt) : (s.updFlt f).imageBuf = s.imageBuf := rfl
@[simp] theorem State.updFlt_imageBad (s : State) (f : Flt → Flt) : (s.updFlt f).imageBad = s.imageBad := rfl
@[simp] theorem State.updFlt_serving (s : State) (f : Flt → Flt) : (s.updFlt f).serving = s.serving := rfl
@[simp] theorem State.updFlt_embed (s : State) (f : Flt → Flt) : (s.updFlt f).embed = s.embed := rfl
@[simp] theorem State.updFlt_tier (s : State) (f : Flt → Flt) : (s.updFlt f).tier = s.tier := rfl
@[simp] theorem State.updFlt_flash (s : State) (f : Flt → Flt) : (s.updFlt f).flash = s.flash := rfl
@[simp] theorem State.updFlt_flt (s : State) (f : Flt → Flt) : (s.updFlt f).flt = f s.flt := rfl
@[simp] theorem State.updFlt_cell (s : State) (f : Flt → Flt) : (s.updFlt f).cell = s.cell := rfl
@[simp] theorem State.updFlt_cxl (s : State) (f : Flt → Flt) : (s.updFlt f).cxl = s.cxl := rfl
@[simp] theorem State.updFlt_sec (s : State) (f : Flt → Flt) : (s.updFlt f).sec = s.sec := rfl
@[simp] theorem State.updFlt_mgmt (s : State) (f : Flt → Flt) : (s.updFlt f).mgmt = s.mgmt := rfl
@[simp] theorem State.updFlt_dump (s : State) (f : Flt → Flt) : (s.updFlt f).dump = s.dump := rfl
@[simp] theorem State.updFlt_ctr (s : State) (f : Flt → Flt) : (s.updFlt f).ctr = s.ctr := rfl
@[simp] theorem State.updFlt_latch (s : State) (f : Flt → Flt) : (s.updFlt f).latch = s.latch := rfl
@[simp] theorem State.updFlt_mem (s : State) (f : Flt → Flt) : (s.updFlt f).mem = s.mem := rfl
@[simp] theorem State.updFlt_fresh (s : State) (f : Flt → Flt) : (s.updFlt f).fresh = s.fresh := rfl
@[simp] theorem State.updFlt_out (s : State) (f : Flt → Flt) : (s.updFlt f).out = s.out := rfl
@[simp] theorem State.updFlt_pending (s : State) (f : Flt → Flt) : (s.updFlt f).pending = s.pending := rfl

/-! ### State.updCell -/

@[simp] theorem State.updCell_variant (s : State) (f : Cell → Cell) : (s.updCell f).variant = s.variant := rfl
@[simp] theorem State.updCell_power (s : State) (f : Cell → Cell) : (s.updCell f).power = s.power := rfl
@[simp] theorem State.updCell_admin (s : State) (f : Cell → Cell) : (s.updCell f).admin = s.admin := rfl
@[simp] theorem State.updCell_tenants (s : State) (f : Cell → Cell) : (s.updCell f).tenants = s.tenants := rfl
@[simp] theorem State.updCell_rr (s : State) (f : Cell → Cell) : (s.updCell f).rr = s.rr := rfl
@[simp] theorem State.updCell_cmds (s : State) (f : Cell → Cell) : (s.updCell f).cmds = s.cmds := rfl
@[simp] theorem State.updCell_nextHandle (s : State) (f : Cell → Cell) : (s.updCell f).nextHandle = s.nextHandle := rfl
@[simp] theorem State.updCell_hostMap (s : State) (f : Cell → Cell) : (s.updCell f).hostMap = s.hostMap := rfl
@[simp] theorem State.updCell_dlr (s : State) (f : Cell → Cell) : (s.updCell f).dlr = s.dlr := rfl
@[simp] theorem State.updCell_hands (s : State) (f : Cell → Cell) : (s.updCell f).hands = s.hands := rfl
@[simp] theorem State.updCell_invs (s : State) (f : Cell → Cell) : (s.updCell f).invs = s.invs := rfl
@[simp] theorem State.updCell_nextInv (s : State) (f : Cell → Cell) : (s.updCell f).nextInv = s.nextInv := rfl
@[simp] theorem State.updCell_seats (s : State) (f : Cell → Cell) : (s.updCell f).seats = s.seats := rfl
@[simp] theorem State.updCell_steadyLoad (s : State) (f : Cell → Cell) : (s.updCell f).steadyLoad = s.steadyLoad := rfl
@[simp] theorem State.updCell_audCtrl (s : State) (f : Cell → Cell) : (s.updCell f).audCtrl = s.audCtrl := rfl
@[simp] theorem State.updCell_audLast (s : State) (f : Cell → Cell) : (s.updCell f).audLast = s.audLast := rfl
@[simp] theorem State.updCell_audInject (s : State) (f : Cell → Cell) : (s.updCell f).audInject = s.audInject := rfl
@[simp] theorem State.updCell_potBad (s : State) (f : Cell → Cell) : (s.updCell f).potBad = s.potBad := rfl
@[simp] theorem State.updCell_pt (s : State) (f : Cell → Cell) : (s.updCell f).pt = s.pt := rfl
@[simp] theorem State.updCell_issues (s : State) (f : Cell → Cell) : (s.updCell f).issues = s.issues := rfl
@[simp] theorem State.updCell_models (s : State) (f : Cell → Cell) : (s.updCell f).models = s.models := rfl
@[simp] theorem State.updCell_decks (s : State) (f : Cell → Cell) : (s.updCell f).decks = s.decks := rfl
@[simp] theorem State.updCell_automata (s : State) (f : Cell → Cell) : (s.updCell f).automata = s.automata := rfl
@[simp] theorem State.updCell_colls (s : State) (f : Cell → Cell) : (s.updCell f).colls = s.colls := rfl
@[simp] theorem State.updCell_dirLen (s : State) (f : Cell → Cell) : (s.updCell f).dirLen = s.dirLen := rfl
@[simp] theorem State.updCell_search (s : State) (f : Cell → Cell) : (s.updCell f).search = s.search := rfl
@[simp] theorem State.updCell_selections (s : State) (f : Cell → Cell) : (s.updCell f).selections = s.selections := rfl
@[simp] theorem State.updCell_pipes (s : State) (f : Cell → Cell) : (s.updCell f).pipes = s.pipes := rfl
@[simp] theorem State.updCell_deckCache (s : State) (f : Cell → Cell) : (s.updCell f).deckCache = s.deckCache := rfl
@[simp] theorem State.updCell_maskCache (s : State) (f : Cell → Cell) : (s.updCell f).maskCache = s.maskCache := rfl
@[simp] theorem State.updCell_imageBuf (s : State) (f : Cell → Cell) : (s.updCell f).imageBuf = s.imageBuf := rfl
@[simp] theorem State.updCell_imageBad (s : State) (f : Cell → Cell) : (s.updCell f).imageBad = s.imageBad := rfl
@[simp] theorem State.updCell_serving (s : State) (f : Cell → Cell) : (s.updCell f).serving = s.serving := rfl
@[simp] theorem State.updCell_embed (s : State) (f : Cell → Cell) : (s.updCell f).embed = s.embed := rfl
@[simp] theorem State.updCell_tier (s : State) (f : Cell → Cell) : (s.updCell f).tier = s.tier := rfl
@[simp] theorem State.updCell_flash (s : State) (f : Cell → Cell) : (s.updCell f).flash = s.flash := rfl
@[simp] theorem State.updCell_flt (s : State) (f : Cell → Cell) : (s.updCell f).flt = s.flt := rfl
@[simp] theorem State.updCell_cell (s : State) (f : Cell → Cell) : (s.updCell f).cell = f s.cell := rfl
@[simp] theorem State.updCell_cxl (s : State) (f : Cell → Cell) : (s.updCell f).cxl = s.cxl := rfl
@[simp] theorem State.updCell_sec (s : State) (f : Cell → Cell) : (s.updCell f).sec = s.sec := rfl
@[simp] theorem State.updCell_mgmt (s : State) (f : Cell → Cell) : (s.updCell f).mgmt = s.mgmt := rfl
@[simp] theorem State.updCell_dump (s : State) (f : Cell → Cell) : (s.updCell f).dump = s.dump := rfl
@[simp] theorem State.updCell_ctr (s : State) (f : Cell → Cell) : (s.updCell f).ctr = s.ctr := rfl
@[simp] theorem State.updCell_latch (s : State) (f : Cell → Cell) : (s.updCell f).latch = s.latch := rfl
@[simp] theorem State.updCell_mem (s : State) (f : Cell → Cell) : (s.updCell f).mem = s.mem := rfl
@[simp] theorem State.updCell_fresh (s : State) (f : Cell → Cell) : (s.updCell f).fresh = s.fresh := rfl
@[simp] theorem State.updCell_out (s : State) (f : Cell → Cell) : (s.updCell f).out = s.out := rfl
@[simp] theorem State.updCell_pending (s : State) (f : Cell → Cell) : (s.updCell f).pending = s.pending := rfl

/-! ### State.updCxl -/

@[simp] theorem State.updCxl_variant (s : State) (f : Cxl → Cxl) : (s.updCxl f).variant = s.variant := rfl
@[simp] theorem State.updCxl_power (s : State) (f : Cxl → Cxl) : (s.updCxl f).power = s.power := rfl
@[simp] theorem State.updCxl_admin (s : State) (f : Cxl → Cxl) : (s.updCxl f).admin = s.admin := rfl
@[simp] theorem State.updCxl_tenants (s : State) (f : Cxl → Cxl) : (s.updCxl f).tenants = s.tenants := rfl
@[simp] theorem State.updCxl_rr (s : State) (f : Cxl → Cxl) : (s.updCxl f).rr = s.rr := rfl
@[simp] theorem State.updCxl_cmds (s : State) (f : Cxl → Cxl) : (s.updCxl f).cmds = s.cmds := rfl
@[simp] theorem State.updCxl_nextHandle (s : State) (f : Cxl → Cxl) : (s.updCxl f).nextHandle = s.nextHandle := rfl
@[simp] theorem State.updCxl_hostMap (s : State) (f : Cxl → Cxl) : (s.updCxl f).hostMap = s.hostMap := rfl
@[simp] theorem State.updCxl_dlr (s : State) (f : Cxl → Cxl) : (s.updCxl f).dlr = s.dlr := rfl
@[simp] theorem State.updCxl_hands (s : State) (f : Cxl → Cxl) : (s.updCxl f).hands = s.hands := rfl
@[simp] theorem State.updCxl_invs (s : State) (f : Cxl → Cxl) : (s.updCxl f).invs = s.invs := rfl
@[simp] theorem State.updCxl_nextInv (s : State) (f : Cxl → Cxl) : (s.updCxl f).nextInv = s.nextInv := rfl
@[simp] theorem State.updCxl_seats (s : State) (f : Cxl → Cxl) : (s.updCxl f).seats = s.seats := rfl
@[simp] theorem State.updCxl_steadyLoad (s : State) (f : Cxl → Cxl) : (s.updCxl f).steadyLoad = s.steadyLoad := rfl
@[simp] theorem State.updCxl_audCtrl (s : State) (f : Cxl → Cxl) : (s.updCxl f).audCtrl = s.audCtrl := rfl
@[simp] theorem State.updCxl_audLast (s : State) (f : Cxl → Cxl) : (s.updCxl f).audLast = s.audLast := rfl
@[simp] theorem State.updCxl_audInject (s : State) (f : Cxl → Cxl) : (s.updCxl f).audInject = s.audInject := rfl
@[simp] theorem State.updCxl_potBad (s : State) (f : Cxl → Cxl) : (s.updCxl f).potBad = s.potBad := rfl
@[simp] theorem State.updCxl_pt (s : State) (f : Cxl → Cxl) : (s.updCxl f).pt = s.pt := rfl
@[simp] theorem State.updCxl_issues (s : State) (f : Cxl → Cxl) : (s.updCxl f).issues = s.issues := rfl
@[simp] theorem State.updCxl_models (s : State) (f : Cxl → Cxl) : (s.updCxl f).models = s.models := rfl
@[simp] theorem State.updCxl_decks (s : State) (f : Cxl → Cxl) : (s.updCxl f).decks = s.decks := rfl
@[simp] theorem State.updCxl_automata (s : State) (f : Cxl → Cxl) : (s.updCxl f).automata = s.automata := rfl
@[simp] theorem State.updCxl_colls (s : State) (f : Cxl → Cxl) : (s.updCxl f).colls = s.colls := rfl
@[simp] theorem State.updCxl_dirLen (s : State) (f : Cxl → Cxl) : (s.updCxl f).dirLen = s.dirLen := rfl
@[simp] theorem State.updCxl_search (s : State) (f : Cxl → Cxl) : (s.updCxl f).search = s.search := rfl
@[simp] theorem State.updCxl_selections (s : State) (f : Cxl → Cxl) : (s.updCxl f).selections = s.selections := rfl
@[simp] theorem State.updCxl_pipes (s : State) (f : Cxl → Cxl) : (s.updCxl f).pipes = s.pipes := rfl
@[simp] theorem State.updCxl_deckCache (s : State) (f : Cxl → Cxl) : (s.updCxl f).deckCache = s.deckCache := rfl
@[simp] theorem State.updCxl_maskCache (s : State) (f : Cxl → Cxl) : (s.updCxl f).maskCache = s.maskCache := rfl
@[simp] theorem State.updCxl_imageBuf (s : State) (f : Cxl → Cxl) : (s.updCxl f).imageBuf = s.imageBuf := rfl
@[simp] theorem State.updCxl_imageBad (s : State) (f : Cxl → Cxl) : (s.updCxl f).imageBad = s.imageBad := rfl
@[simp] theorem State.updCxl_serving (s : State) (f : Cxl → Cxl) : (s.updCxl f).serving = s.serving := rfl
@[simp] theorem State.updCxl_embed (s : State) (f : Cxl → Cxl) : (s.updCxl f).embed = s.embed := rfl
@[simp] theorem State.updCxl_tier (s : State) (f : Cxl → Cxl) : (s.updCxl f).tier = s.tier := rfl
@[simp] theorem State.updCxl_flash (s : State) (f : Cxl → Cxl) : (s.updCxl f).flash = s.flash := rfl
@[simp] theorem State.updCxl_flt (s : State) (f : Cxl → Cxl) : (s.updCxl f).flt = s.flt := rfl
@[simp] theorem State.updCxl_cell (s : State) (f : Cxl → Cxl) : (s.updCxl f).cell = s.cell := rfl
@[simp] theorem State.updCxl_cxl (s : State) (f : Cxl → Cxl) : (s.updCxl f).cxl = f s.cxl := rfl
@[simp] theorem State.updCxl_sec (s : State) (f : Cxl → Cxl) : (s.updCxl f).sec = s.sec := rfl
@[simp] theorem State.updCxl_mgmt (s : State) (f : Cxl → Cxl) : (s.updCxl f).mgmt = s.mgmt := rfl
@[simp] theorem State.updCxl_dump (s : State) (f : Cxl → Cxl) : (s.updCxl f).dump = s.dump := rfl
@[simp] theorem State.updCxl_ctr (s : State) (f : Cxl → Cxl) : (s.updCxl f).ctr = s.ctr := rfl
@[simp] theorem State.updCxl_latch (s : State) (f : Cxl → Cxl) : (s.updCxl f).latch = s.latch := rfl
@[simp] theorem State.updCxl_mem (s : State) (f : Cxl → Cxl) : (s.updCxl f).mem = s.mem := rfl
@[simp] theorem State.updCxl_fresh (s : State) (f : Cxl → Cxl) : (s.updCxl f).fresh = s.fresh := rfl
@[simp] theorem State.updCxl_out (s : State) (f : Cxl → Cxl) : (s.updCxl f).out = s.out := rfl
@[simp] theorem State.updCxl_pending (s : State) (f : Cxl → Cxl) : (s.updCxl f).pending = s.pending := rfl

/-! ### State.updSec -/

@[simp] theorem State.updSec_variant (s : State) (f : Security → Security) : (s.updSec f).variant = s.variant := rfl
@[simp] theorem State.updSec_power (s : State) (f : Security → Security) : (s.updSec f).power = s.power := rfl
@[simp] theorem State.updSec_admin (s : State) (f : Security → Security) : (s.updSec f).admin = s.admin := rfl
@[simp] theorem State.updSec_tenants (s : State) (f : Security → Security) : (s.updSec f).tenants = s.tenants := rfl
@[simp] theorem State.updSec_rr (s : State) (f : Security → Security) : (s.updSec f).rr = s.rr := rfl
@[simp] theorem State.updSec_cmds (s : State) (f : Security → Security) : (s.updSec f).cmds = s.cmds := rfl
@[simp] theorem State.updSec_nextHandle (s : State) (f : Security → Security) : (s.updSec f).nextHandle = s.nextHandle := rfl
@[simp] theorem State.updSec_hostMap (s : State) (f : Security → Security) : (s.updSec f).hostMap = s.hostMap := rfl
@[simp] theorem State.updSec_dlr (s : State) (f : Security → Security) : (s.updSec f).dlr = s.dlr := rfl
@[simp] theorem State.updSec_hands (s : State) (f : Security → Security) : (s.updSec f).hands = s.hands := rfl
@[simp] theorem State.updSec_invs (s : State) (f : Security → Security) : (s.updSec f).invs = s.invs := rfl
@[simp] theorem State.updSec_nextInv (s : State) (f : Security → Security) : (s.updSec f).nextInv = s.nextInv := rfl
@[simp] theorem State.updSec_seats (s : State) (f : Security → Security) : (s.updSec f).seats = s.seats := rfl
@[simp] theorem State.updSec_steadyLoad (s : State) (f : Security → Security) : (s.updSec f).steadyLoad = s.steadyLoad := rfl
@[simp] theorem State.updSec_audCtrl (s : State) (f : Security → Security) : (s.updSec f).audCtrl = s.audCtrl := rfl
@[simp] theorem State.updSec_audLast (s : State) (f : Security → Security) : (s.updSec f).audLast = s.audLast := rfl
@[simp] theorem State.updSec_audInject (s : State) (f : Security → Security) : (s.updSec f).audInject = s.audInject := rfl
@[simp] theorem State.updSec_potBad (s : State) (f : Security → Security) : (s.updSec f).potBad = s.potBad := rfl
@[simp] theorem State.updSec_pt (s : State) (f : Security → Security) : (s.updSec f).pt = s.pt := rfl
@[simp] theorem State.updSec_issues (s : State) (f : Security → Security) : (s.updSec f).issues = s.issues := rfl
@[simp] theorem State.updSec_models (s : State) (f : Security → Security) : (s.updSec f).models = s.models := rfl
@[simp] theorem State.updSec_decks (s : State) (f : Security → Security) : (s.updSec f).decks = s.decks := rfl
@[simp] theorem State.updSec_automata (s : State) (f : Security → Security) : (s.updSec f).automata = s.automata := rfl
@[simp] theorem State.updSec_colls (s : State) (f : Security → Security) : (s.updSec f).colls = s.colls := rfl
@[simp] theorem State.updSec_dirLen (s : State) (f : Security → Security) : (s.updSec f).dirLen = s.dirLen := rfl
@[simp] theorem State.updSec_search (s : State) (f : Security → Security) : (s.updSec f).search = s.search := rfl
@[simp] theorem State.updSec_selections (s : State) (f : Security → Security) : (s.updSec f).selections = s.selections := rfl
@[simp] theorem State.updSec_pipes (s : State) (f : Security → Security) : (s.updSec f).pipes = s.pipes := rfl
@[simp] theorem State.updSec_deckCache (s : State) (f : Security → Security) : (s.updSec f).deckCache = s.deckCache := rfl
@[simp] theorem State.updSec_maskCache (s : State) (f : Security → Security) : (s.updSec f).maskCache = s.maskCache := rfl
@[simp] theorem State.updSec_imageBuf (s : State) (f : Security → Security) : (s.updSec f).imageBuf = s.imageBuf := rfl
@[simp] theorem State.updSec_imageBad (s : State) (f : Security → Security) : (s.updSec f).imageBad = s.imageBad := rfl
@[simp] theorem State.updSec_serving (s : State) (f : Security → Security) : (s.updSec f).serving = s.serving := rfl
@[simp] theorem State.updSec_embed (s : State) (f : Security → Security) : (s.updSec f).embed = s.embed := rfl
@[simp] theorem State.updSec_tier (s : State) (f : Security → Security) : (s.updSec f).tier = s.tier := rfl
@[simp] theorem State.updSec_flash (s : State) (f : Security → Security) : (s.updSec f).flash = s.flash := rfl
@[simp] theorem State.updSec_flt (s : State) (f : Security → Security) : (s.updSec f).flt = s.flt := rfl
@[simp] theorem State.updSec_cell (s : State) (f : Security → Security) : (s.updSec f).cell = s.cell := rfl
@[simp] theorem State.updSec_cxl (s : State) (f : Security → Security) : (s.updSec f).cxl = s.cxl := rfl
@[simp] theorem State.updSec_sec (s : State) (f : Security → Security) : (s.updSec f).sec = f s.sec := rfl
@[simp] theorem State.updSec_mgmt (s : State) (f : Security → Security) : (s.updSec f).mgmt = s.mgmt := rfl
@[simp] theorem State.updSec_dump (s : State) (f : Security → Security) : (s.updSec f).dump = s.dump := rfl
@[simp] theorem State.updSec_ctr (s : State) (f : Security → Security) : (s.updSec f).ctr = s.ctr := rfl
@[simp] theorem State.updSec_latch (s : State) (f : Security → Security) : (s.updSec f).latch = s.latch := rfl
@[simp] theorem State.updSec_mem (s : State) (f : Security → Security) : (s.updSec f).mem = s.mem := rfl
@[simp] theorem State.updSec_fresh (s : State) (f : Security → Security) : (s.updSec f).fresh = s.fresh := rfl
@[simp] theorem State.updSec_out (s : State) (f : Security → Security) : (s.updSec f).out = s.out := rfl
@[simp] theorem State.updSec_pending (s : State) (f : Security → Security) : (s.updSec f).pending = s.pending := rfl

/-! ### State.updMgmt -/

@[simp] theorem State.updMgmt_variant (s : State) (f : Mgmt → Mgmt) : (s.updMgmt f).variant = s.variant := rfl
@[simp] theorem State.updMgmt_power (s : State) (f : Mgmt → Mgmt) : (s.updMgmt f).power = s.power := rfl
@[simp] theorem State.updMgmt_admin (s : State) (f : Mgmt → Mgmt) : (s.updMgmt f).admin = s.admin := rfl
@[simp] theorem State.updMgmt_tenants (s : State) (f : Mgmt → Mgmt) : (s.updMgmt f).tenants = s.tenants := rfl
@[simp] theorem State.updMgmt_rr (s : State) (f : Mgmt → Mgmt) : (s.updMgmt f).rr = s.rr := rfl
@[simp] theorem State.updMgmt_cmds (s : State) (f : Mgmt → Mgmt) : (s.updMgmt f).cmds = s.cmds := rfl
@[simp] theorem State.updMgmt_nextHandle (s : State) (f : Mgmt → Mgmt) : (s.updMgmt f).nextHandle = s.nextHandle := rfl
@[simp] theorem State.updMgmt_hostMap (s : State) (f : Mgmt → Mgmt) : (s.updMgmt f).hostMap = s.hostMap := rfl
@[simp] theorem State.updMgmt_dlr (s : State) (f : Mgmt → Mgmt) : (s.updMgmt f).dlr = s.dlr := rfl
@[simp] theorem State.updMgmt_hands (s : State) (f : Mgmt → Mgmt) : (s.updMgmt f).hands = s.hands := rfl
@[simp] theorem State.updMgmt_invs (s : State) (f : Mgmt → Mgmt) : (s.updMgmt f).invs = s.invs := rfl
@[simp] theorem State.updMgmt_nextInv (s : State) (f : Mgmt → Mgmt) : (s.updMgmt f).nextInv = s.nextInv := rfl
@[simp] theorem State.updMgmt_seats (s : State) (f : Mgmt → Mgmt) : (s.updMgmt f).seats = s.seats := rfl
@[simp] theorem State.updMgmt_steadyLoad (s : State) (f : Mgmt → Mgmt) : (s.updMgmt f).steadyLoad = s.steadyLoad := rfl
@[simp] theorem State.updMgmt_audCtrl (s : State) (f : Mgmt → Mgmt) : (s.updMgmt f).audCtrl = s.audCtrl := rfl
@[simp] theorem State.updMgmt_audLast (s : State) (f : Mgmt → Mgmt) : (s.updMgmt f).audLast = s.audLast := rfl
@[simp] theorem State.updMgmt_audInject (s : State) (f : Mgmt → Mgmt) : (s.updMgmt f).audInject = s.audInject := rfl
@[simp] theorem State.updMgmt_potBad (s : State) (f : Mgmt → Mgmt) : (s.updMgmt f).potBad = s.potBad := rfl
@[simp] theorem State.updMgmt_pt (s : State) (f : Mgmt → Mgmt) : (s.updMgmt f).pt = s.pt := rfl
@[simp] theorem State.updMgmt_issues (s : State) (f : Mgmt → Mgmt) : (s.updMgmt f).issues = s.issues := rfl
@[simp] theorem State.updMgmt_models (s : State) (f : Mgmt → Mgmt) : (s.updMgmt f).models = s.models := rfl
@[simp] theorem State.updMgmt_decks (s : State) (f : Mgmt → Mgmt) : (s.updMgmt f).decks = s.decks := rfl
@[simp] theorem State.updMgmt_automata (s : State) (f : Mgmt → Mgmt) : (s.updMgmt f).automata = s.automata := rfl
@[simp] theorem State.updMgmt_colls (s : State) (f : Mgmt → Mgmt) : (s.updMgmt f).colls = s.colls := rfl
@[simp] theorem State.updMgmt_dirLen (s : State) (f : Mgmt → Mgmt) : (s.updMgmt f).dirLen = s.dirLen := rfl
@[simp] theorem State.updMgmt_search (s : State) (f : Mgmt → Mgmt) : (s.updMgmt f).search = s.search := rfl
@[simp] theorem State.updMgmt_selections (s : State) (f : Mgmt → Mgmt) : (s.updMgmt f).selections = s.selections := rfl
@[simp] theorem State.updMgmt_pipes (s : State) (f : Mgmt → Mgmt) : (s.updMgmt f).pipes = s.pipes := rfl
@[simp] theorem State.updMgmt_deckCache (s : State) (f : Mgmt → Mgmt) : (s.updMgmt f).deckCache = s.deckCache := rfl
@[simp] theorem State.updMgmt_maskCache (s : State) (f : Mgmt → Mgmt) : (s.updMgmt f).maskCache = s.maskCache := rfl
@[simp] theorem State.updMgmt_imageBuf (s : State) (f : Mgmt → Mgmt) : (s.updMgmt f).imageBuf = s.imageBuf := rfl
@[simp] theorem State.updMgmt_imageBad (s : State) (f : Mgmt → Mgmt) : (s.updMgmt f).imageBad = s.imageBad := rfl
@[simp] theorem State.updMgmt_serving (s : State) (f : Mgmt → Mgmt) : (s.updMgmt f).serving = s.serving := rfl
@[simp] theorem State.updMgmt_embed (s : State) (f : Mgmt → Mgmt) : (s.updMgmt f).embed = s.embed := rfl
@[simp] theorem State.updMgmt_tier (s : State) (f : Mgmt → Mgmt) : (s.updMgmt f).tier = s.tier := rfl
@[simp] theorem State.updMgmt_flash (s : State) (f : Mgmt → Mgmt) : (s.updMgmt f).flash = s.flash := rfl
@[simp] theorem State.updMgmt_flt (s : State) (f : Mgmt → Mgmt) : (s.updMgmt f).flt = s.flt := rfl
@[simp] theorem State.updMgmt_cell (s : State) (f : Mgmt → Mgmt) : (s.updMgmt f).cell = s.cell := rfl
@[simp] theorem State.updMgmt_cxl (s : State) (f : Mgmt → Mgmt) : (s.updMgmt f).cxl = s.cxl := rfl
@[simp] theorem State.updMgmt_sec (s : State) (f : Mgmt → Mgmt) : (s.updMgmt f).sec = s.sec := rfl
@[simp] theorem State.updMgmt_mgmt (s : State) (f : Mgmt → Mgmt) : (s.updMgmt f).mgmt = f s.mgmt := rfl
@[simp] theorem State.updMgmt_dump (s : State) (f : Mgmt → Mgmt) : (s.updMgmt f).dump = s.dump := rfl
@[simp] theorem State.updMgmt_ctr (s : State) (f : Mgmt → Mgmt) : (s.updMgmt f).ctr = s.ctr := rfl
@[simp] theorem State.updMgmt_latch (s : State) (f : Mgmt → Mgmt) : (s.updMgmt f).latch = s.latch := rfl
@[simp] theorem State.updMgmt_mem (s : State) (f : Mgmt → Mgmt) : (s.updMgmt f).mem = s.mem := rfl
@[simp] theorem State.updMgmt_fresh (s : State) (f : Mgmt → Mgmt) : (s.updMgmt f).fresh = s.fresh := rfl
@[simp] theorem State.updMgmt_out (s : State) (f : Mgmt → Mgmt) : (s.updMgmt f).out = s.out := rfl
@[simp] theorem State.updMgmt_pending (s : State) (f : Mgmt → Mgmt) : (s.updMgmt f).pending = s.pending := rfl

/-! ### State.updDump -/

@[simp] theorem State.updDump_variant (s : State) (f : Dump → Dump) : (s.updDump f).variant = s.variant := rfl
@[simp] theorem State.updDump_power (s : State) (f : Dump → Dump) : (s.updDump f).power = s.power := rfl
@[simp] theorem State.updDump_admin (s : State) (f : Dump → Dump) : (s.updDump f).admin = s.admin := rfl
@[simp] theorem State.updDump_tenants (s : State) (f : Dump → Dump) : (s.updDump f).tenants = s.tenants := rfl
@[simp] theorem State.updDump_rr (s : State) (f : Dump → Dump) : (s.updDump f).rr = s.rr := rfl
@[simp] theorem State.updDump_cmds (s : State) (f : Dump → Dump) : (s.updDump f).cmds = s.cmds := rfl
@[simp] theorem State.updDump_nextHandle (s : State) (f : Dump → Dump) : (s.updDump f).nextHandle = s.nextHandle := rfl
@[simp] theorem State.updDump_hostMap (s : State) (f : Dump → Dump) : (s.updDump f).hostMap = s.hostMap := rfl
@[simp] theorem State.updDump_dlr (s : State) (f : Dump → Dump) : (s.updDump f).dlr = s.dlr := rfl
@[simp] theorem State.updDump_hands (s : State) (f : Dump → Dump) : (s.updDump f).hands = s.hands := rfl
@[simp] theorem State.updDump_invs (s : State) (f : Dump → Dump) : (s.updDump f).invs = s.invs := rfl
@[simp] theorem State.updDump_nextInv (s : State) (f : Dump → Dump) : (s.updDump f).nextInv = s.nextInv := rfl
@[simp] theorem State.updDump_seats (s : State) (f : Dump → Dump) : (s.updDump f).seats = s.seats := rfl
@[simp] theorem State.updDump_steadyLoad (s : State) (f : Dump → Dump) : (s.updDump f).steadyLoad = s.steadyLoad := rfl
@[simp] theorem State.updDump_audCtrl (s : State) (f : Dump → Dump) : (s.updDump f).audCtrl = s.audCtrl := rfl
@[simp] theorem State.updDump_audLast (s : State) (f : Dump → Dump) : (s.updDump f).audLast = s.audLast := rfl
@[simp] theorem State.updDump_audInject (s : State) (f : Dump → Dump) : (s.updDump f).audInject = s.audInject := rfl
@[simp] theorem State.updDump_potBad (s : State) (f : Dump → Dump) : (s.updDump f).potBad = s.potBad := rfl
@[simp] theorem State.updDump_pt (s : State) (f : Dump → Dump) : (s.updDump f).pt = s.pt := rfl
@[simp] theorem State.updDump_issues (s : State) (f : Dump → Dump) : (s.updDump f).issues = s.issues := rfl
@[simp] theorem State.updDump_models (s : State) (f : Dump → Dump) : (s.updDump f).models = s.models := rfl
@[simp] theorem State.updDump_decks (s : State) (f : Dump → Dump) : (s.updDump f).decks = s.decks := rfl
@[simp] theorem State.updDump_automata (s : State) (f : Dump → Dump) : (s.updDump f).automata = s.automata := rfl
@[simp] theorem State.updDump_colls (s : State) (f : Dump → Dump) : (s.updDump f).colls = s.colls := rfl
@[simp] theorem State.updDump_dirLen (s : State) (f : Dump → Dump) : (s.updDump f).dirLen = s.dirLen := rfl
@[simp] theorem State.updDump_search (s : State) (f : Dump → Dump) : (s.updDump f).search = s.search := rfl
@[simp] theorem State.updDump_selections (s : State) (f : Dump → Dump) : (s.updDump f).selections = s.selections := rfl
@[simp] theorem State.updDump_pipes (s : State) (f : Dump → Dump) : (s.updDump f).pipes = s.pipes := rfl
@[simp] theorem State.updDump_deckCache (s : State) (f : Dump → Dump) : (s.updDump f).deckCache = s.deckCache := rfl
@[simp] theorem State.updDump_maskCache (s : State) (f : Dump → Dump) : (s.updDump f).maskCache = s.maskCache := rfl
@[simp] theorem State.updDump_imageBuf (s : State) (f : Dump → Dump) : (s.updDump f).imageBuf = s.imageBuf := rfl
@[simp] theorem State.updDump_imageBad (s : State) (f : Dump → Dump) : (s.updDump f).imageBad = s.imageBad := rfl
@[simp] theorem State.updDump_serving (s : State) (f : Dump → Dump) : (s.updDump f).serving = s.serving := rfl
@[simp] theorem State.updDump_embed (s : State) (f : Dump → Dump) : (s.updDump f).embed = s.embed := rfl
@[simp] theorem State.updDump_tier (s : State) (f : Dump → Dump) : (s.updDump f).tier = s.tier := rfl
@[simp] theorem State.updDump_flash (s : State) (f : Dump → Dump) : (s.updDump f).flash = s.flash := rfl
@[simp] theorem State.updDump_flt (s : State) (f : Dump → Dump) : (s.updDump f).flt = s.flt := rfl
@[simp] theorem State.updDump_cell (s : State) (f : Dump → Dump) : (s.updDump f).cell = s.cell := rfl
@[simp] theorem State.updDump_cxl (s : State) (f : Dump → Dump) : (s.updDump f).cxl = s.cxl := rfl
@[simp] theorem State.updDump_sec (s : State) (f : Dump → Dump) : (s.updDump f).sec = s.sec := rfl
@[simp] theorem State.updDump_mgmt (s : State) (f : Dump → Dump) : (s.updDump f).mgmt = s.mgmt := rfl
@[simp] theorem State.updDump_dump (s : State) (f : Dump → Dump) : (s.updDump f).dump = f s.dump := rfl
@[simp] theorem State.updDump_ctr (s : State) (f : Dump → Dump) : (s.updDump f).ctr = s.ctr := rfl
@[simp] theorem State.updDump_latch (s : State) (f : Dump → Dump) : (s.updDump f).latch = s.latch := rfl
@[simp] theorem State.updDump_mem (s : State) (f : Dump → Dump) : (s.updDump f).mem = s.mem := rfl
@[simp] theorem State.updDump_fresh (s : State) (f : Dump → Dump) : (s.updDump f).fresh = s.fresh := rfl
@[simp] theorem State.updDump_out (s : State) (f : Dump → Dump) : (s.updDump f).out = s.out := rfl
@[simp] theorem State.updDump_pending (s : State) (f : Dump → Dump) : (s.updDump f).pending = s.pending := rfl

/-! ### State.updPower -/

@[simp] theorem State.updPower_variant (s : State) (f : Power → Power) : (s.updPower f).variant = s.variant := rfl
@[simp] theorem State.updPower_power (s : State) (f : Power → Power) : (s.updPower f).power = f s.power := rfl
@[simp] theorem State.updPower_admin (s : State) (f : Power → Power) : (s.updPower f).admin = s.admin := rfl
@[simp] theorem State.updPower_tenants (s : State) (f : Power → Power) : (s.updPower f).tenants = s.tenants := rfl
@[simp] theorem State.updPower_rr (s : State) (f : Power → Power) : (s.updPower f).rr = s.rr := rfl
@[simp] theorem State.updPower_cmds (s : State) (f : Power → Power) : (s.updPower f).cmds = s.cmds := rfl
@[simp] theorem State.updPower_nextHandle (s : State) (f : Power → Power) : (s.updPower f).nextHandle = s.nextHandle := rfl
@[simp] theorem State.updPower_hostMap (s : State) (f : Power → Power) : (s.updPower f).hostMap = s.hostMap := rfl
@[simp] theorem State.updPower_dlr (s : State) (f : Power → Power) : (s.updPower f).dlr = s.dlr := rfl
@[simp] theorem State.updPower_hands (s : State) (f : Power → Power) : (s.updPower f).hands = s.hands := rfl
@[simp] theorem State.updPower_invs (s : State) (f : Power → Power) : (s.updPower f).invs = s.invs := rfl
@[simp] theorem State.updPower_nextInv (s : State) (f : Power → Power) : (s.updPower f).nextInv = s.nextInv := rfl
@[simp] theorem State.updPower_seats (s : State) (f : Power → Power) : (s.updPower f).seats = s.seats := rfl
@[simp] theorem State.updPower_steadyLoad (s : State) (f : Power → Power) : (s.updPower f).steadyLoad = s.steadyLoad := rfl
@[simp] theorem State.updPower_audCtrl (s : State) (f : Power → Power) : (s.updPower f).audCtrl = s.audCtrl := rfl
@[simp] theorem State.updPower_audLast (s : State) (f : Power → Power) : (s.updPower f).audLast = s.audLast := rfl
@[simp] theorem State.updPower_audInject (s : State) (f : Power → Power) : (s.updPower f).audInject = s.audInject := rfl
@[simp] theorem State.updPower_potBad (s : State) (f : Power → Power) : (s.updPower f).potBad = s.potBad := rfl
@[simp] theorem State.updPower_pt (s : State) (f : Power → Power) : (s.updPower f).pt = s.pt := rfl
@[simp] theorem State.updPower_issues (s : State) (f : Power → Power) : (s.updPower f).issues = s.issues := rfl
@[simp] theorem State.updPower_models (s : State) (f : Power → Power) : (s.updPower f).models = s.models := rfl
@[simp] theorem State.updPower_decks (s : State) (f : Power → Power) : (s.updPower f).decks = s.decks := rfl
@[simp] theorem State.updPower_automata (s : State) (f : Power → Power) : (s.updPower f).automata = s.automata := rfl
@[simp] theorem State.updPower_colls (s : State) (f : Power → Power) : (s.updPower f).colls = s.colls := rfl
@[simp] theorem State.updPower_dirLen (s : State) (f : Power → Power) : (s.updPower f).dirLen = s.dirLen := rfl
@[simp] theorem State.updPower_search (s : State) (f : Power → Power) : (s.updPower f).search = s.search := rfl
@[simp] theorem State.updPower_selections (s : State) (f : Power → Power) : (s.updPower f).selections = s.selections := rfl
@[simp] theorem State.updPower_pipes (s : State) (f : Power → Power) : (s.updPower f).pipes = s.pipes := rfl
@[simp] theorem State.updPower_deckCache (s : State) (f : Power → Power) : (s.updPower f).deckCache = s.deckCache := rfl
@[simp] theorem State.updPower_maskCache (s : State) (f : Power → Power) : (s.updPower f).maskCache = s.maskCache := rfl
@[simp] theorem State.updPower_imageBuf (s : State) (f : Power → Power) : (s.updPower f).imageBuf = s.imageBuf := rfl
@[simp] theorem State.updPower_imageBad (s : State) (f : Power → Power) : (s.updPower f).imageBad = s.imageBad := rfl
@[simp] theorem State.updPower_serving (s : State) (f : Power → Power) : (s.updPower f).serving = s.serving := rfl
@[simp] theorem State.updPower_embed (s : State) (f : Power → Power) : (s.updPower f).embed = s.embed := rfl
@[simp] theorem State.updPower_tier (s : State) (f : Power → Power) : (s.updPower f).tier = s.tier := rfl
@[simp] theorem State.updPower_flash (s : State) (f : Power → Power) : (s.updPower f).flash = s.flash := rfl
@[simp] theorem State.updPower_flt (s : State) (f : Power → Power) : (s.updPower f).flt = s.flt := rfl
@[simp] theorem State.updPower_cell (s : State) (f : Power → Power) : (s.updPower f).cell = s.cell := rfl
@[simp] theorem State.updPower_cxl (s : State) (f : Power → Power) : (s.updPower f).cxl = s.cxl := rfl
@[simp] theorem State.updPower_sec (s : State) (f : Power → Power) : (s.updPower f).sec = s.sec := rfl
@[simp] theorem State.updPower_mgmt (s : State) (f : Power → Power) : (s.updPower f).mgmt = s.mgmt := rfl
@[simp] theorem State.updPower_dump (s : State) (f : Power → Power) : (s.updPower f).dump = s.dump := rfl
@[simp] theorem State.updPower_ctr (s : State) (f : Power → Power) : (s.updPower f).ctr = s.ctr := rfl
@[simp] theorem State.updPower_latch (s : State) (f : Power → Power) : (s.updPower f).latch = s.latch := rfl
@[simp] theorem State.updPower_mem (s : State) (f : Power → Power) : (s.updPower f).mem = s.mem := rfl
@[simp] theorem State.updPower_fresh (s : State) (f : Power → Power) : (s.updPower f).fresh = s.fresh := rfl
@[simp] theorem State.updPower_out (s : State) (f : Power → Power) : (s.updPower f).out = s.out := rfl
@[simp] theorem State.updPower_pending (s : State) (f : Power → Power) : (s.updPower f).pending = s.pending := rfl

/-! ### State.updTenant -/

@[simp] theorem State.updTenant_variant (s : State) (t : Nat) (f : Tenant → Tenant) : (s.updTenant t f).variant = s.variant := rfl
@[simp] theorem State.updTenant_power (s : State) (t : Nat) (f : Tenant → Tenant) : (s.updTenant t f).power = s.power := rfl
@[simp] theorem State.updTenant_admin (s : State) (t : Nat) (f : Tenant → Tenant) : (s.updTenant t f).admin = s.admin := rfl
@[simp] theorem State.updTenant_tenants (s : State) (t : Nat) (f : Tenant → Tenant) : (s.updTenant t f).tenants = s.tenants.modify t f := rfl
@[simp] theorem State.updTenant_rr (s : State) (t : Nat) (f : Tenant → Tenant) : (s.updTenant t f).rr = s.rr := rfl
@[simp] theorem State.updTenant_cmds (s : State) (t : Nat) (f : Tenant → Tenant) : (s.updTenant t f).cmds = s.cmds := rfl
@[simp] theorem State.updTenant_nextHandle (s : State) (t : Nat) (f : Tenant → Tenant) : (s.updTenant t f).nextHandle = s.nextHandle := rfl
@[simp] theorem State.updTenant_hostMap (s : State) (t : Nat) (f : Tenant → Tenant) : (s.updTenant t f).hostMap = s.hostMap := rfl
@[simp] theorem State.updTenant_dlr (s : State) (t : Nat) (f : Tenant → Tenant) : (s.updTenant t f).dlr = s.dlr := rfl
@[simp] theorem State.updTenant_hands (s : State) (t : Nat) (f : Tenant → Tenant) : (s.updTenant t f).hands = s.hands := rfl
@[simp] theorem State.updTenant_invs (s : State) (t : Nat) (f : Tenant → Tenant) : (s.updTenant t f).invs = s.invs := rfl
@[simp] theorem State.updTenant_nextInv (s : State) (t : Nat) (f : Tenant → Tenant) : (s.updTenant t f).nextInv = s.nextInv := rfl
@[simp] theorem State.updTenant_seats (s : State) (t : Nat) (f : Tenant → Tenant) : (s.updTenant t f).seats = s.seats := rfl
@[simp] theorem State.updTenant_steadyLoad (s : State) (t : Nat) (f : Tenant → Tenant) : (s.updTenant t f).steadyLoad = s.steadyLoad := rfl
@[simp] theorem State.updTenant_audCtrl (s : State) (t : Nat) (f : Tenant → Tenant) : (s.updTenant t f).audCtrl = s.audCtrl := rfl
@[simp] theorem State.updTenant_audLast (s : State) (t : Nat) (f : Tenant → Tenant) : (s.updTenant t f).audLast = s.audLast := rfl
@[simp] theorem State.updTenant_audInject (s : State) (t : Nat) (f : Tenant → Tenant) : (s.updTenant t f).audInject = s.audInject := rfl
@[simp] theorem State.updTenant_potBad (s : State) (t : Nat) (f : Tenant → Tenant) : (s.updTenant t f).potBad = s.potBad := rfl
@[simp] theorem State.updTenant_pt (s : State) (t : Nat) (f : Tenant → Tenant) : (s.updTenant t f).pt = s.pt := rfl
@[simp] theorem State.updTenant_issues (s : State) (t : Nat) (f : Tenant → Tenant) : (s.updTenant t f).issues = s.issues := rfl
@[simp] theorem State.updTenant_models (s : State) (t : Nat) (f : Tenant → Tenant) : (s.updTenant t f).models = s.models := rfl
@[simp] theorem State.updTenant_decks (s : State) (t : Nat) (f : Tenant → Tenant) : (s.updTenant t f).decks = s.decks := rfl
@[simp] theorem State.updTenant_automata (s : State) (t : Nat) (f : Tenant → Tenant) : (s.updTenant t f).automata = s.automata := rfl
@[simp] theorem State.updTenant_colls (s : State) (t : Nat) (f : Tenant → Tenant) : (s.updTenant t f).colls = s.colls := rfl
@[simp] theorem State.updTenant_dirLen (s : State) (t : Nat) (f : Tenant → Tenant) : (s.updTenant t f).dirLen = s.dirLen := rfl
@[simp] theorem State.updTenant_search (s : State) (t : Nat) (f : Tenant → Tenant) : (s.updTenant t f).search = s.search := rfl
@[simp] theorem State.updTenant_selections (s : State) (t : Nat) (f : Tenant → Tenant) : (s.updTenant t f).selections = s.selections := rfl
@[simp] theorem State.updTenant_pipes (s : State) (t : Nat) (f : Tenant → Tenant) : (s.updTenant t f).pipes = s.pipes := rfl
@[simp] theorem State.updTenant_deckCache (s : State) (t : Nat) (f : Tenant → Tenant) : (s.updTenant t f).deckCache = s.deckCache := rfl
@[simp] theorem State.updTenant_maskCache (s : State) (t : Nat) (f : Tenant → Tenant) : (s.updTenant t f).maskCache = s.maskCache := rfl
@[simp] theorem State.updTenant_imageBuf (s : State) (t : Nat) (f : Tenant → Tenant) : (s.updTenant t f).imageBuf = s.imageBuf := rfl
@[simp] theorem State.updTenant_imageBad (s : State) (t : Nat) (f : Tenant → Tenant) : (s.updTenant t f).imageBad = s.imageBad := rfl
@[simp] theorem State.updTenant_serving (s : State) (t : Nat) (f : Tenant → Tenant) : (s.updTenant t f).serving = s.serving := rfl
@[simp] theorem State.updTenant_embed (s : State) (t : Nat) (f : Tenant → Tenant) : (s.updTenant t f).embed = s.embed := rfl
@[simp] theorem State.updTenant_tier (s : State) (t : Nat) (f : Tenant → Tenant) : (s.updTenant t f).tier = s.tier := rfl
@[simp] theorem State.updTenant_flash (s : State) (t : Nat) (f : Tenant → Tenant) : (s.updTenant t f).flash = s.flash := rfl
@[simp] theorem State.updTenant_flt (s : State) (t : Nat) (f : Tenant → Tenant) : (s.updTenant t f).flt = s.flt := rfl
@[simp] theorem State.updTenant_cell (s : State) (t : Nat) (f : Tenant → Tenant) : (s.updTenant t f).cell = s.cell := rfl
@[simp] theorem State.updTenant_cxl (s : State) (t : Nat) (f : Tenant → Tenant) : (s.updTenant t f).cxl = s.cxl := rfl
@[simp] theorem State.updTenant_sec (s : State) (t : Nat) (f : Tenant → Tenant) : (s.updTenant t f).sec = s.sec := rfl
@[simp] theorem State.updTenant_mgmt (s : State) (t : Nat) (f : Tenant → Tenant) : (s.updTenant t f).mgmt = s.mgmt := rfl
@[simp] theorem State.updTenant_dump (s : State) (t : Nat) (f : Tenant → Tenant) : (s.updTenant t f).dump = s.dump := rfl
@[simp] theorem State.updTenant_ctr (s : State) (t : Nat) (f : Tenant → Tenant) : (s.updTenant t f).ctr = s.ctr := rfl
@[simp] theorem State.updTenant_latch (s : State) (t : Nat) (f : Tenant → Tenant) : (s.updTenant t f).latch = s.latch := rfl
@[simp] theorem State.updTenant_mem (s : State) (t : Nat) (f : Tenant → Tenant) : (s.updTenant t f).mem = s.mem := rfl
@[simp] theorem State.updTenant_fresh (s : State) (t : Nat) (f : Tenant → Tenant) : (s.updTenant t f).fresh = s.fresh := rfl
@[simp] theorem State.updTenant_out (s : State) (t : Nat) (f : Tenant → Tenant) : (s.updTenant t f).out = s.out := rfl
@[simp] theorem State.updTenant_pending (s : State) (t : Nat) (f : Tenant → Tenant) : (s.updTenant t f).pending = s.pending := rfl

/-! ### State.updHand -/

@[simp] theorem State.updHand_variant (s : State) (h : Nat) (f : Hand → Hand) : (s.updHand h f).variant = s.variant := rfl
@[simp] theorem State.updHand_power (s : State) (h : Nat) (f : Hand → Hand) : (s.updHand h f).power = s.power := rfl
@[simp] theorem State.updHand_admin (s : State) (h : Nat) (f : Hand → Hand) : (s.updHand h f).admin = s.admin := rfl
@[simp] theorem State.updHand_tenants (s : State) (h : Nat) (f : Hand → Hand) : (s.updHand h f).tenants = s.tenants := rfl
@[simp] theorem State.updHand_rr (s : State) (h : Nat) (f : Hand → Hand) : (s.updHand h f).rr = s.rr := rfl
@[simp] theorem State.updHand_cmds (s : State) (h : Nat) (f : Hand → Hand) : (s.updHand h f).cmds = s.cmds := rfl
@[simp] theorem State.updHand_nextHandle (s : State) (h : Nat) (f : Hand → Hand) : (s.updHand h f).nextHandle = s.nextHandle := rfl
@[simp] theorem State.updHand_hostMap (s : State) (h : Nat) (f : Hand → Hand) : (s.updHand h f).hostMap = s.hostMap := rfl
@[simp] theorem State.updHand_dlr (s : State) (h : Nat) (f : Hand → Hand) : (s.updHand h f).dlr = s.dlr := rfl
@[simp] theorem State.updHand_hands (s : State) (h : Nat) (f : Hand → Hand) : (s.updHand h f).hands = s.hands.modify h f := rfl
@[simp] theorem State.updHand_invs (s : State) (h : Nat) (f : Hand → Hand) : (s.updHand h f).invs = s.invs := rfl
@[simp] theorem State.updHand_nextInv (s : State) (h : Nat) (f : Hand → Hand) : (s.updHand h f).nextInv = s.nextInv := rfl
@[simp] theorem State.updHand_seats (s : State) (h : Nat) (f : Hand → Hand) : (s.updHand h f).seats = s.seats := rfl
@[simp] theorem State.updHand_steadyLoad (s : State) (h : Nat) (f : Hand → Hand) : (s.updHand h f).steadyLoad = s.steadyLoad := rfl
@[simp] theorem State.updHand_audCtrl (s : State) (h : Nat) (f : Hand → Hand) : (s.updHand h f).audCtrl = s.audCtrl := rfl
@[simp] theorem State.updHand_audLast (s : State) (h : Nat) (f : Hand → Hand) : (s.updHand h f).audLast = s.audLast := rfl
@[simp] theorem State.updHand_audInject (s : State) (h : Nat) (f : Hand → Hand) : (s.updHand h f).audInject = s.audInject := rfl
@[simp] theorem State.updHand_potBad (s : State) (h : Nat) (f : Hand → Hand) : (s.updHand h f).potBad = s.potBad := rfl
@[simp] theorem State.updHand_pt (s : State) (h : Nat) (f : Hand → Hand) : (s.updHand h f).pt = s.pt := rfl
@[simp] theorem State.updHand_issues (s : State) (h : Nat) (f : Hand → Hand) : (s.updHand h f).issues = s.issues := rfl
@[simp] theorem State.updHand_models (s : State) (h : Nat) (f : Hand → Hand) : (s.updHand h f).models = s.models := rfl
@[simp] theorem State.updHand_decks (s : State) (h : Nat) (f : Hand → Hand) : (s.updHand h f).decks = s.decks := rfl
@[simp] theorem State.updHand_automata (s : State) (h : Nat) (f : Hand → Hand) : (s.updHand h f).automata = s.automata := rfl
@[simp] theorem State.updHand_colls (s : State) (h : Nat) (f : Hand → Hand) : (s.updHand h f).colls = s.colls := rfl
@[simp] theorem State.updHand_dirLen (s : State) (h : Nat) (f : Hand → Hand) : (s.updHand h f).dirLen = s.dirLen := rfl
@[simp] theorem State.updHand_search (s : State) (h : Nat) (f : Hand → Hand) : (s.updHand h f).search = s.search := rfl
@[simp] theorem State.updHand_selections (s : State) (h : Nat) (f : Hand → Hand) : (s.updHand h f).selections = s.selections := rfl
@[simp] theorem State.updHand_pipes (s : State) (h : Nat) (f : Hand → Hand) : (s.updHand h f).pipes = s.pipes := rfl
@[simp] theorem State.updHand_deckCache (s : State) (h : Nat) (f : Hand → Hand) : (s.updHand h f).deckCache = s.deckCache := rfl
@[simp] theorem State.updHand_maskCache (s : State) (h : Nat) (f : Hand → Hand) : (s.updHand h f).maskCache = s.maskCache := rfl
@[simp] theorem State.updHand_imageBuf (s : State) (h : Nat) (f : Hand → Hand) : (s.updHand h f).imageBuf = s.imageBuf := rfl
@[simp] theorem State.updHand_imageBad (s : State) (h : Nat) (f : Hand → Hand) : (s.updHand h f).imageBad = s.imageBad := rfl
@[simp] theorem State.updHand_serving (s : State) (h : Nat) (f : Hand → Hand) : (s.updHand h f).serving = s.serving := rfl
@[simp] theorem State.updHand_embed (s : State) (h : Nat) (f : Hand → Hand) : (s.updHand h f).embed = s.embed := rfl
@[simp] theorem State.updHand_tier (s : State) (h : Nat) (f : Hand → Hand) : (s.updHand h f).tier = s.tier := rfl
@[simp] theorem State.updHand_flash (s : State) (h : Nat) (f : Hand → Hand) : (s.updHand h f).flash = s.flash := rfl
@[simp] theorem State.updHand_flt (s : State) (h : Nat) (f : Hand → Hand) : (s.updHand h f).flt = s.flt := rfl
@[simp] theorem State.updHand_cell (s : State) (h : Nat) (f : Hand → Hand) : (s.updHand h f).cell = s.cell := rfl
@[simp] theorem State.updHand_cxl (s : State) (h : Nat) (f : Hand → Hand) : (s.updHand h f).cxl = s.cxl := rfl
@[simp] theorem State.updHand_sec (s : State) (h : Nat) (f : Hand → Hand) : (s.updHand h f).sec = s.sec := rfl
@[simp] theorem State.updHand_mgmt (s : State) (h : Nat) (f : Hand → Hand) : (s.updHand h f).mgmt = s.mgmt := rfl
@[simp] theorem State.updHand_dump (s : State) (h : Nat) (f : Hand → Hand) : (s.updHand h f).dump = s.dump := rfl
@[simp] theorem State.updHand_ctr (s : State) (h : Nat) (f : Hand → Hand) : (s.updHand h f).ctr = s.ctr := rfl
@[simp] theorem State.updHand_latch (s : State) (h : Nat) (f : Hand → Hand) : (s.updHand h f).latch = s.latch := rfl
@[simp] theorem State.updHand_mem (s : State) (h : Nat) (f : Hand → Hand) : (s.updHand h f).mem = s.mem := rfl
@[simp] theorem State.updHand_fresh (s : State) (h : Nat) (f : Hand → Hand) : (s.updHand h f).fresh = s.fresh := rfl
@[simp] theorem State.updHand_out (s : State) (h : Nat) (f : Hand → Hand) : (s.updHand h f).out = s.out := rfl
@[simp] theorem State.updHand_pending (s : State) (h : Nat) (f : Hand → Hand) : (s.updHand h f).pending = s.pending := rfl

/-! ### State.updSeat -/

@[simp] theorem State.updSeat_variant (s : State) (g : Nat) (f : Seat → Seat) : (s.updSeat g f).variant = s.variant := rfl
@[simp] theorem State.updSeat_power (s : State) (g : Nat) (f : Seat → Seat) : (s.updSeat g f).power = s.power := rfl
@[simp] theorem State.updSeat_admin (s : State) (g : Nat) (f : Seat → Seat) : (s.updSeat g f).admin = s.admin := rfl
@[simp] theorem State.updSeat_tenants (s : State) (g : Nat) (f : Seat → Seat) : (s.updSeat g f).tenants = s.tenants := rfl
@[simp] theorem State.updSeat_rr (s : State) (g : Nat) (f : Seat → Seat) : (s.updSeat g f).rr = s.rr := rfl
@[simp] theorem State.updSeat_cmds (s : State) (g : Nat) (f : Seat → Seat) : (s.updSeat g f).cmds = s.cmds := rfl
@[simp] theorem State.updSeat_nextHandle (s : State) (g : Nat) (f : Seat → Seat) : (s.updSeat g f).nextHandle = s.nextHandle := rfl
@[simp] theorem State.updSeat_hostMap (s : State) (g : Nat) (f : Seat → Seat) : (s.updSeat g f).hostMap = s.hostMap := rfl
@[simp] theorem State.updSeat_dlr (s : State) (g : Nat) (f : Seat → Seat) : (s.updSeat g f).dlr = s.dlr := rfl
@[simp] theorem State.updSeat_hands (s : State) (g : Nat) (f : Seat → Seat) : (s.updSeat g f).hands = s.hands := rfl
@[simp] theorem State.updSeat_invs (s : State) (g : Nat) (f : Seat → Seat) : (s.updSeat g f).invs = s.invs := rfl
@[simp] theorem State.updSeat_nextInv (s : State) (g : Nat) (f : Seat → Seat) : (s.updSeat g f).nextInv = s.nextInv := rfl
@[simp] theorem State.updSeat_seats (s : State) (g : Nat) (f : Seat → Seat) : (s.updSeat g f).seats = s.seats.modify g f := rfl
@[simp] theorem State.updSeat_steadyLoad (s : State) (g : Nat) (f : Seat → Seat) : (s.updSeat g f).steadyLoad = s.steadyLoad := rfl
@[simp] theorem State.updSeat_audCtrl (s : State) (g : Nat) (f : Seat → Seat) : (s.updSeat g f).audCtrl = s.audCtrl := rfl
@[simp] theorem State.updSeat_audLast (s : State) (g : Nat) (f : Seat → Seat) : (s.updSeat g f).audLast = s.audLast := rfl
@[simp] theorem State.updSeat_audInject (s : State) (g : Nat) (f : Seat → Seat) : (s.updSeat g f).audInject = s.audInject := rfl
@[simp] theorem State.updSeat_potBad (s : State) (g : Nat) (f : Seat → Seat) : (s.updSeat g f).potBad = s.potBad := rfl
@[simp] theorem State.updSeat_pt (s : State) (g : Nat) (f : Seat → Seat) : (s.updSeat g f).pt = s.pt := rfl
@[simp] theorem State.updSeat_issues (s : State) (g : Nat) (f : Seat → Seat) : (s.updSeat g f).issues = s.issues := rfl
@[simp] theorem State.updSeat_models (s : State) (g : Nat) (f : Seat → Seat) : (s.updSeat g f).models = s.models := rfl
@[simp] theorem State.updSeat_decks (s : State) (g : Nat) (f : Seat → Seat) : (s.updSeat g f).decks = s.decks := rfl
@[simp] theorem State.updSeat_automata (s : State) (g : Nat) (f : Seat → Seat) : (s.updSeat g f).automata = s.automata := rfl
@[simp] theorem State.updSeat_colls (s : State) (g : Nat) (f : Seat → Seat) : (s.updSeat g f).colls = s.colls := rfl
@[simp] theorem State.updSeat_dirLen (s : State) (g : Nat) (f : Seat → Seat) : (s.updSeat g f).dirLen = s.dirLen := rfl
@[simp] theorem State.updSeat_search (s : State) (g : Nat) (f : Seat → Seat) : (s.updSeat g f).search = s.search := rfl
@[simp] theorem State.updSeat_selections (s : State) (g : Nat) (f : Seat → Seat) : (s.updSeat g f).selections = s.selections := rfl
@[simp] theorem State.updSeat_pipes (s : State) (g : Nat) (f : Seat → Seat) : (s.updSeat g f).pipes = s.pipes := rfl
@[simp] theorem State.updSeat_deckCache (s : State) (g : Nat) (f : Seat → Seat) : (s.updSeat g f).deckCache = s.deckCache := rfl
@[simp] theorem State.updSeat_maskCache (s : State) (g : Nat) (f : Seat → Seat) : (s.updSeat g f).maskCache = s.maskCache := rfl
@[simp] theorem State.updSeat_imageBuf (s : State) (g : Nat) (f : Seat → Seat) : (s.updSeat g f).imageBuf = s.imageBuf := rfl
@[simp] theorem State.updSeat_imageBad (s : State) (g : Nat) (f : Seat → Seat) : (s.updSeat g f).imageBad = s.imageBad := rfl
@[simp] theorem State.updSeat_serving (s : State) (g : Nat) (f : Seat → Seat) : (s.updSeat g f).serving = s.serving := rfl
@[simp] theorem State.updSeat_embed (s : State) (g : Nat) (f : Seat → Seat) : (s.updSeat g f).embed = s.embed := rfl
@[simp] theorem State.updSeat_tier (s : State) (g : Nat) (f : Seat → Seat) : (s.updSeat g f).tier = s.tier := rfl
@[simp] theorem State.updSeat_flash (s : State) (g : Nat) (f : Seat → Seat) : (s.updSeat g f).flash = s.flash := rfl
@[simp] theorem State.updSeat_flt (s : State) (g : Nat) (f : Seat → Seat) : (s.updSeat g f).flt = s.flt := rfl
@[simp] theorem State.updSeat_cell (s : State) (g : Nat) (f : Seat → Seat) : (s.updSeat g f).cell = s.cell := rfl
@[simp] theorem State.updSeat_cxl (s : State) (g : Nat) (f : Seat → Seat) : (s.updSeat g f).cxl = s.cxl := rfl
@[simp] theorem State.updSeat_sec (s : State) (g : Nat) (f : Seat → Seat) : (s.updSeat g f).sec = s.sec := rfl
@[simp] theorem State.updSeat_mgmt (s : State) (g : Nat) (f : Seat → Seat) : (s.updSeat g f).mgmt = s.mgmt := rfl
@[simp] theorem State.updSeat_dump (s : State) (g : Nat) (f : Seat → Seat) : (s.updSeat g f).dump = s.dump := rfl
@[simp] theorem State.updSeat_ctr (s : State) (g : Nat) (f : Seat → Seat) : (s.updSeat g f).ctr = s.ctr := rfl
@[simp] theorem State.updSeat_latch (s : State) (g : Nat) (f : Seat → Seat) : (s.updSeat g f).latch = s.latch := rfl
@[simp] theorem State.updSeat_mem (s : State) (g : Nat) (f : Seat → Seat) : (s.updSeat g f).mem = s.mem := rfl
@[simp] theorem State.updSeat_fresh (s : State) (g : Nat) (f : Seat → Seat) : (s.updSeat g f).fresh = s.fresh := rfl
@[simp] theorem State.updSeat_out (s : State) (g : Nat) (f : Seat → Seat) : (s.updSeat g f).out = s.out := rfl
@[simp] theorem State.updSeat_pending (s : State) (g : Nat) (f : Seat → Seat) : (s.updSeat g f).pending = s.pending := rfl

/-! ### State.updCtx -/

@[simp] theorem State.updCtx_variant (s : State) (g c : Nat) (f : Ctx → Ctx) : (s.updCtx g c f).variant = s.variant := rfl
@[simp] theorem State.updCtx_power (s : State) (g c : Nat) (f : Ctx → Ctx) : (s.updCtx g c f).power = s.power := rfl
@[simp] theorem State.updCtx_admin (s : State) (g c : Nat) (f : Ctx → Ctx) : (s.updCtx g c f).admin = s.admin := rfl
@[simp] theorem State.updCtx_tenants (s : State) (g c : Nat) (f : Ctx → Ctx) : (s.updCtx g c f).tenants = s.tenants := rfl
@[simp] theorem State.updCtx_rr (s : State) (g c : Nat) (f : Ctx → Ctx) : (s.updCtx g c f).rr = s.rr := rfl
@[simp] theorem State.updCtx_cmds (s : State) (g c : Nat) (f : Ctx → Ctx) : (s.updCtx g c f).cmds = s.cmds := rfl
@[simp] theorem State.updCtx_nextHandle (s : State) (g c : Nat) (f : Ctx → Ctx) : (s.updCtx g c f).nextHandle = s.nextHandle := rfl
@[simp] theorem State.updCtx_hostMap (s : State) (g c : Nat) (f : Ctx → Ctx) : (s.updCtx g c f).hostMap = s.hostMap := rfl
@[simp] theorem State.updCtx_dlr (s : State) (g c : Nat) (f : Ctx → Ctx) : (s.updCtx g c f).dlr = s.dlr := rfl
@[simp] theorem State.updCtx_hands (s : State) (g c : Nat) (f : Ctx → Ctx) : (s.updCtx g c f).hands = s.hands := rfl
@[simp] theorem State.updCtx_invs (s : State) (g c : Nat) (f : Ctx → Ctx) : (s.updCtx g c f).invs = s.invs := rfl
@[simp] theorem State.updCtx_nextInv (s : State) (g c : Nat) (f : Ctx → Ctx) : (s.updCtx g c f).nextInv = s.nextInv := rfl
@[simp] theorem State.updCtx_seats (s : State) (g c : Nat) (f : Ctx → Ctx) : (s.updCtx g c f).seats = s.seats.modify g (fun x => { x with ctxs := x.ctxs.modify c f }) := rfl
@[simp] theorem State.updCtx_steadyLoad (s : State) (g c : Nat) (f : Ctx → Ctx) : (s.updCtx g c f).steadyLoad = s.steadyLoad := rfl
@[simp] theorem State.updCtx_audCtrl (s : State) (g c : Nat) (f : Ctx → Ctx) : (s.updCtx g c f).audCtrl = s.audCtrl := rfl
@[simp] theorem State.updCtx_audLast (s : State) (g c : Nat) (f : Ctx → Ctx) : (s.updCtx g c f).audLast = s.audLast := rfl
@[simp] theorem State.updCtx_audInject (s : State) (g c : Nat) (f : Ctx → Ctx) : (s.updCtx g c f).audInject = s.audInject := rfl
@[simp] theorem State.updCtx_potBad (s : State) (g c : Nat) (f : Ctx → Ctx) : (s.updCtx g c f).potBad = s.potBad := rfl
@[simp] theorem State.updCtx_pt (s : State) (g c : Nat) (f : Ctx → Ctx) : (s.updCtx g c f).pt = s.pt := rfl
@[simp] theorem State.updCtx_issues (s : State) (g c : Nat) (f : Ctx → Ctx) : (s.updCtx g c f).issues = s.issues := rfl
@[simp] theorem State.updCtx_models (s : State) (g c : Nat) (f : Ctx → Ctx) : (s.updCtx g c f).models = s.models := rfl
@[simp] theorem State.updCtx_decks (s : State) (g c : Nat) (f : Ctx → Ctx) : (s.updCtx g c f).decks = s.decks := rfl
@[simp] theorem State.updCtx_automata (s : State) (g c : Nat) (f : Ctx → Ctx) : (s.updCtx g c f).automata = s.automata := rfl
@[simp] theorem State.updCtx_colls (s : State) (g c : Nat) (f : Ctx → Ctx) : (s.updCtx g c f).colls = s.colls := rfl
@[simp] theorem State.updCtx_dirLen (s : State) (g c : Nat) (f : Ctx → Ctx) : (s.updCtx g c f).dirLen = s.dirLen := rfl
@[simp] theorem State.updCtx_search (s : State) (g c : Nat) (f : Ctx → Ctx) : (s.updCtx g c f).search = s.search := rfl
@[simp] theorem State.updCtx_selections (s : State) (g c : Nat) (f : Ctx → Ctx) : (s.updCtx g c f).selections = s.selections := rfl
@[simp] theorem State.updCtx_pipes (s : State) (g c : Nat) (f : Ctx → Ctx) : (s.updCtx g c f).pipes = s.pipes := rfl
@[simp] theorem State.updCtx_deckCache (s : State) (g c : Nat) (f : Ctx → Ctx) : (s.updCtx g c f).deckCache = s.deckCache := rfl
@[simp] theorem State.updCtx_maskCache (s : State) (g c : Nat) (f : Ctx → Ctx) : (s.updCtx g c f).maskCache = s.maskCache := rfl
@[simp] theorem State.updCtx_imageBuf (s : State) (g c : Nat) (f : Ctx → Ctx) : (s.updCtx g c f).imageBuf = s.imageBuf := rfl
@[simp] theorem State.updCtx_imageBad (s : State) (g c : Nat) (f : Ctx → Ctx) : (s.updCtx g c f).imageBad = s.imageBad := rfl
@[simp] theorem State.updCtx_serving (s : State) (g c : Nat) (f : Ctx → Ctx) : (s.updCtx g c f).serving = s.serving := rfl
@[simp] theorem State.updCtx_embed (s : State) (g c : Nat) (f : Ctx → Ctx) : (s.updCtx g c f).embed = s.embed := rfl
@[simp] theorem State.updCtx_tier (s : State) (g c : Nat) (f : Ctx → Ctx) : (s.updCtx g c f).tier = s.tier := rfl
@[simp] theorem State.updCtx_flash (s : State) (g c : Nat) (f : Ctx → Ctx) : (s.updCtx g c f).flash = s.flash := rfl
@[simp] theorem State.updCtx_flt (s : State) (g c : Nat) (f : Ctx → Ctx) : (s.updCtx g c f).flt = s.flt := rfl
@[simp] theorem State.updCtx_cell (s : State) (g c : Nat) (f : Ctx → Ctx) : (s.updCtx g c f).cell = s.cell := rfl
@[simp] theorem State.updCtx_cxl (s : State) (g c : Nat) (f : Ctx → Ctx) : (s.updCtx g c f).cxl = s.cxl := rfl
@[simp] theorem State.updCtx_sec (s : State) (g c : Nat) (f : Ctx → Ctx) : (s.updCtx g c f).sec = s.sec := rfl
@[simp] theorem State.updCtx_mgmt (s : State) (g c : Nat) (f : Ctx → Ctx) : (s.updCtx g c f).mgmt = s.mgmt := rfl
@[simp] theorem State.updCtx_dump (s : State) (g c : Nat) (f : Ctx → Ctx) : (s.updCtx g c f).dump = s.dump := rfl
@[simp] theorem State.updCtx_ctr (s : State) (g c : Nat) (f : Ctx → Ctx) : (s.updCtx g c f).ctr = s.ctr := rfl
@[simp] theorem State.updCtx_latch (s : State) (g c : Nat) (f : Ctx → Ctx) : (s.updCtx g c f).latch = s.latch := rfl
@[simp] theorem State.updCtx_mem (s : State) (g c : Nat) (f : Ctx → Ctx) : (s.updCtx g c f).mem = s.mem := rfl
@[simp] theorem State.updCtx_fresh (s : State) (g c : Nat) (f : Ctx → Ctx) : (s.updCtx g c f).fresh = s.fresh := rfl
@[simp] theorem State.updCtx_out (s : State) (g c : Nat) (f : Ctx → Ctx) : (s.updCtx g c f).out = s.out := rfl
@[simp] theorem State.updCtx_pending (s : State) (g c : Nat) (f : Ctx → Ctx) : (s.updCtx g c f).pending = s.pending := rfl

/-! ### State.updCmd -/

@[simp] theorem State.updCmd_variant (s : State) (h : Nat) (f : Cmd → Cmd) : (s.updCmd h f).variant = s.variant := rfl
@[simp] theorem State.updCmd_power (s : State) (h : Nat) (f : Cmd → Cmd) : (s.updCmd h f).power = s.power := rfl
@[simp] theorem State.updCmd_admin (s : State) (h : Nat) (f : Cmd → Cmd) : (s.updCmd h f).admin = s.admin := rfl
@[simp] theorem State.updCmd_tenants (s : State) (h : Nat) (f : Cmd → Cmd) : (s.updCmd h f).tenants = s.tenants := rfl
@[simp] theorem State.updCmd_rr (s : State) (h : Nat) (f : Cmd → Cmd) : (s.updCmd h f).rr = s.rr := rfl
@[simp] theorem State.updCmd_cmds (s : State) (h : Nat) (f : Cmd → Cmd) : (s.updCmd h f).cmds = updWhere (fun c => c.handle == h) f s.cmds := rfl
@[simp] theorem State.updCmd_nextHandle (s : State) (h : Nat) (f : Cmd → Cmd) : (s.updCmd h f).nextHandle = s.nextHandle := rfl
@[simp] theorem State.updCmd_hostMap (s : State) (h : Nat) (f : Cmd → Cmd) : (s.updCmd h f).hostMap = s.hostMap := rfl
@[simp] theorem State.updCmd_dlr (s : State) (h : Nat) (f : Cmd → Cmd) : (s.updCmd h f).dlr = s.dlr := rfl
@[simp] theorem State.updCmd_hands (s : State) (h : Nat) (f : Cmd → Cmd) : (s.updCmd h f).hands = s.hands := rfl
@[simp] theorem State.updCmd_invs (s : State) (h : Nat) (f : Cmd → Cmd) : (s.updCmd h f).invs = s.invs := rfl
@[simp] theorem State.updCmd_nextInv (s : State) (h : Nat) (f : Cmd → Cmd) : (s.updCmd h f).nextInv = s.nextInv := rfl
@[simp] theorem State.updCmd_seats (s : State) (h : Nat) (f : Cmd → Cmd) : (s.updCmd h f).seats = s.seats := rfl
@[simp] theorem State.updCmd_steadyLoad (s : State) (h : Nat) (f : Cmd → Cmd) : (s.updCmd h f).steadyLoad = s.steadyLoad := rfl
@[simp] theorem State.updCmd_audCtrl (s : State) (h : Nat) (f : Cmd → Cmd) : (s.updCmd h f).audCtrl = s.audCtrl := rfl
@[simp] theorem State.updCmd_audLast (s : State) (h : Nat) (f : Cmd → Cmd) : (s.updCmd h f).audLast = s.audLast := rfl
@[simp] theorem State.updCmd_audInject (s : State) (h : Nat) (f : Cmd → Cmd) : (s.updCmd h f).audInject = s.audInject := rfl
@[simp] theorem State.updCmd_potBad (s : State) (h : Nat) (f : Cmd → Cmd) : (s.updCmd h f).potBad = s.potBad := rfl
@[simp] theorem State.updCmd_pt (s : State) (h : Nat) (f : Cmd → Cmd) : (s.updCmd h f).pt = s.pt := rfl
@[simp] theorem State.updCmd_issues (s : State) (h : Nat) (f : Cmd → Cmd) : (s.updCmd h f).issues = s.issues := rfl
@[simp] theorem State.updCmd_models (s : State) (h : Nat) (f : Cmd → Cmd) : (s.updCmd h f).models = s.models := rfl
@[simp] theorem State.updCmd_decks (s : State) (h : Nat) (f : Cmd → Cmd) : (s.updCmd h f).decks = s.decks := rfl
@[simp] theorem State.updCmd_automata (s : State) (h : Nat) (f : Cmd → Cmd) : (s.updCmd h f).automata = s.automata := rfl
@[simp] theorem State.updCmd_colls (s : State) (h : Nat) (f : Cmd → Cmd) : (s.updCmd h f).colls = s.colls := rfl
@[simp] theorem State.updCmd_dirLen (s : State) (h : Nat) (f : Cmd → Cmd) : (s.updCmd h f).dirLen = s.dirLen := rfl
@[simp] theorem State.updCmd_search (s : State) (h : Nat) (f : Cmd → Cmd) : (s.updCmd h f).search = s.search := rfl
@[simp] theorem State.updCmd_selections (s : State) (h : Nat) (f : Cmd → Cmd) : (s.updCmd h f).selections = s.selections := rfl
@[simp] theorem State.updCmd_pipes (s : State) (h : Nat) (f : Cmd → Cmd) : (s.updCmd h f).pipes = s.pipes := rfl
@[simp] theorem State.updCmd_deckCache (s : State) (h : Nat) (f : Cmd → Cmd) : (s.updCmd h f).deckCache = s.deckCache := rfl
@[simp] theorem State.updCmd_maskCache (s : State) (h : Nat) (f : Cmd → Cmd) : (s.updCmd h f).maskCache = s.maskCache := rfl
@[simp] theorem State.updCmd_imageBuf (s : State) (h : Nat) (f : Cmd → Cmd) : (s.updCmd h f).imageBuf = s.imageBuf := rfl
@[simp] theorem State.updCmd_imageBad (s : State) (h : Nat) (f : Cmd → Cmd) : (s.updCmd h f).imageBad = s.imageBad := rfl
@[simp] theorem State.updCmd_serving (s : State) (h : Nat) (f : Cmd → Cmd) : (s.updCmd h f).serving = s.serving := rfl
@[simp] theorem State.updCmd_embed (s : State) (h : Nat) (f : Cmd → Cmd) : (s.updCmd h f).embed = s.embed := rfl
@[simp] theorem State.updCmd_tier (s : State) (h : Nat) (f : Cmd → Cmd) : (s.updCmd h f).tier = s.tier := rfl
@[simp] theorem State.updCmd_flash (s : State) (h : Nat) (f : Cmd → Cmd) : (s.updCmd h f).flash = s.flash := rfl
@[simp] theorem State.updCmd_flt (s : State) (h : Nat) (f : Cmd → Cmd) : (s.updCmd h f).flt = s.flt := rfl
@[simp] theorem State.updCmd_cell (s : State) (h : Nat) (f : Cmd → Cmd) : (s.updCmd h f).cell = s.cell := rfl
@[simp] theorem State.updCmd_cxl (s : State) (h : Nat) (f : Cmd → Cmd) : (s.updCmd h f).cxl = s.cxl := rfl
@[simp] theorem State.updCmd_sec (s : State) (h : Nat) (f : Cmd → Cmd) : (s.updCmd h f).sec = s.sec := rfl
@[simp] theorem State.updCmd_mgmt (s : State) (h : Nat) (f : Cmd → Cmd) : (s.updCmd h f).mgmt = s.mgmt := rfl
@[simp] theorem State.updCmd_dump (s : State) (h : Nat) (f : Cmd → Cmd) : (s.updCmd h f).dump = s.dump := rfl
@[simp] theorem State.updCmd_ctr (s : State) (h : Nat) (f : Cmd → Cmd) : (s.updCmd h f).ctr = s.ctr := rfl
@[simp] theorem State.updCmd_latch (s : State) (h : Nat) (f : Cmd → Cmd) : (s.updCmd h f).latch = s.latch := rfl
@[simp] theorem State.updCmd_mem (s : State) (h : Nat) (f : Cmd → Cmd) : (s.updCmd h f).mem = s.mem := rfl
@[simp] theorem State.updCmd_fresh (s : State) (h : Nat) (f : Cmd → Cmd) : (s.updCmd h f).fresh = s.fresh := rfl
@[simp] theorem State.updCmd_out (s : State) (h : Nat) (f : Cmd → Cmd) : (s.updCmd h f).out = s.out := rfl
@[simp] theorem State.updCmd_pending (s : State) (h : Nat) (f : Cmd → Cmd) : (s.updCmd h f).pending = s.pending := rfl

/-! ### State.updInv -/

@[simp] theorem State.updInv_variant (s : State) (n : Nat) (f : Invocation → Invocation) : (s.updInv n f).variant = s.variant := rfl
@[simp] theorem State.updInv_power (s : State) (n : Nat) (f : Invocation → Invocation) : (s.updInv n f).power = s.power := rfl
@[simp] theorem State.updInv_admin (s : State) (n : Nat) (f : Invocation → Invocation) : (s.updInv n f).admin = s.admin := rfl
@[simp] theorem State.updInv_tenants (s : State) (n : Nat) (f : Invocation → Invocation) : (s.updInv n f).tenants = s.tenants := rfl
@[simp] theorem State.updInv_rr (s : State) (n : Nat) (f : Invocation → Invocation) : (s.updInv n f).rr = s.rr := rfl
@[simp] theorem State.updInv_cmds (s : State) (n : Nat) (f : Invocation → Invocation) : (s.updInv n f).cmds = s.cmds := rfl
@[simp] theorem State.updInv_nextHandle (s : State) (n : Nat) (f : Invocation → Invocation) : (s.updInv n f).nextHandle = s.nextHandle := rfl
@[simp] theorem State.updInv_hostMap (s : State) (n : Nat) (f : Invocation → Invocation) : (s.updInv n f).hostMap = s.hostMap := rfl
@[simp] theorem State.updInv_dlr (s : State) (n : Nat) (f : Invocation → Invocation) : (s.updInv n f).dlr = s.dlr := rfl
@[simp] theorem State.updInv_hands (s : State) (n : Nat) (f : Invocation → Invocation) : (s.updInv n f).hands = s.hands := rfl
@[simp] theorem State.updInv_invs (s : State) (n : Nat) (f : Invocation → Invocation) : (s.updInv n f).invs = updWhere (fun v => v.id == n) f s.invs := rfl
@[simp] theorem State.updInv_nextInv (s : State) (n : Nat) (f : Invocation → Invocation) : (s.updInv n f).nextInv = s.nextInv := rfl
@[simp] theorem State.updInv_seats (s : State) (n : Nat) (f : Invocation → Invocation) : (s.updInv n f).seats = s.seats := rfl
@[simp] theorem State.updInv_steadyLoad (s : State) (n : Nat) (f : Invocation → Invocation) : (s.updInv n f).steadyLoad = s.steadyLoad := rfl
@[simp] theorem State.updInv_audCtrl (s : State) (n : Nat) (f : Invocation → Invocation) : (s.updInv n f).audCtrl = s.audCtrl := rfl
@[simp] theorem State.updInv_audLast (s : State) (n : Nat) (f : Invocation → Invocation) : (s.updInv n f).audLast = s.audLast := rfl
@[simp] theorem State.updInv_audInject (s : State) (n : Nat) (f : Invocation → Invocation) : (s.updInv n f).audInject = s.audInject := rfl
@[simp] theorem State.updInv_potBad (s : State) (n : Nat) (f : Invocation → Invocation) : (s.updInv n f).potBad = s.potBad := rfl
@[simp] theorem State.updInv_pt (s : State) (n : Nat) (f : Invocation → Invocation) : (s.updInv n f).pt = s.pt := rfl
@[simp] theorem State.updInv_issues (s : State) (n : Nat) (f : Invocation → Invocation) : (s.updInv n f).issues = s.issues := rfl
@[simp] theorem State.updInv_models (s : State) (n : Nat) (f : Invocation → Invocation) : (s.updInv n f).models = s.models := rfl
@[simp] theorem State.updInv_decks (s : State) (n : Nat) (f : Invocation → Invocation) : (s.updInv n f).decks = s.decks := rfl
@[simp] theorem State.updInv_automata (s : State) (n : Nat) (f : Invocation → Invocation) : (s.updInv n f).automata = s.automata := rfl
@[simp] theorem State.updInv_colls (s : State) (n : Nat) (f : Invocation → Invocation) : (s.updInv n f).colls = s.colls := rfl
@[simp] theorem State.updInv_dirLen (s : State) (n : Nat) (f : Invocation → Invocation) : (s.updInv n f).dirLen = s.dirLen := rfl
@[simp] theorem State.updInv_search (s : State) (n : Nat) (f : Invocation → Invocation) : (s.updInv n f).search = s.search := rfl
@[simp] theorem State.updInv_selections (s : State) (n : Nat) (f : Invocation → Invocation) : (s.updInv n f).selections = s.selections := rfl
@[simp] theorem State.updInv_pipes (s : State) (n : Nat) (f : Invocation → Invocation) : (s.updInv n f).pipes = s.pipes := rfl
@[simp] theorem State.updInv_deckCache (s : State) (n : Nat) (f : Invocation → Invocation) : (s.updInv n f).deckCache = s.deckCache := rfl
@[simp] theorem State.updInv_maskCache (s : State) (n : Nat) (f : Invocation → Invocation) : (s.updInv n f).maskCache = s.maskCache := rfl
@[simp] theorem State.updInv_imageBuf (s : State) (n : Nat) (f : Invocation → Invocation) : (s.updInv n f).imageBuf = s.imageBuf := rfl
@[simp] theorem State.updInv_imageBad (s : State) (n : Nat) (f : Invocation → Invocation) : (s.updInv n f).imageBad = s.imageBad := rfl
@[simp] theorem State.updInv_serving (s : State) (n : Nat) (f : Invocation → Invocation) : (s.updInv n f).serving = s.serving := rfl
@[simp] theorem State.updInv_embed (s : State) (n : Nat) (f : Invocation → Invocation) : (s.updInv n f).embed = s.embed := rfl
@[simp] theorem State.updInv_tier (s : State) (n : Nat) (f : Invocation → Invocation) : (s.updInv n f).tier = s.tier := rfl
@[simp] theorem State.updInv_flash (s : State) (n : Nat) (f : Invocation → Invocation) : (s.updInv n f).flash = s.flash := rfl
@[simp] theorem State.updInv_flt (s : State) (n : Nat) (f : Invocation → Invocation) : (s.updInv n f).flt = s.flt := rfl
@[simp] theorem State.updInv_cell (s : State) (n : Nat) (f : Invocation → Invocation) : (s.updInv n f).cell = s.cell := rfl
@[simp] theorem State.updInv_cxl (s : State) (n : Nat) (f : Invocation → Invocation) : (s.updInv n f).cxl = s.cxl := rfl
@[simp] theorem State.updInv_sec (s : State) (n : Nat) (f : Invocation → Invocation) : (s.updInv n f).sec = s.sec := rfl
@[simp] theorem State.updInv_mgmt (s : State) (n : Nat) (f : Invocation → Invocation) : (s.updInv n f).mgmt = s.mgmt := rfl
@[simp] theorem State.updInv_dump (s : State) (n : Nat) (f : Invocation → Invocation) : (s.updInv n f).dump = s.dump := rfl
@[simp] theorem State.updInv_ctr (s : State) (n : Nat) (f : Invocation → Invocation) : (s.updInv n f).ctr = s.ctr := rfl
@[simp] theorem State.updInv_latch (s : State) (n : Nat) (f : Invocation → Invocation) : (s.updInv n f).latch = s.latch := rfl
@[simp] theorem State.updInv_mem (s : State) (n : Nat) (f : Invocation → Invocation) : (s.updInv n f).mem = s.mem := rfl
@[simp] theorem State.updInv_fresh (s : State) (n : Nat) (f : Invocation → Invocation) : (s.updInv n f).fresh = s.fresh := rfl
@[simp] theorem State.updInv_out (s : State) (n : Nat) (f : Invocation → Invocation) : (s.updInv n f).out = s.out := rfl
@[simp] theorem State.updInv_pending (s : State) (n : Nat) (f : Invocation → Invocation) : (s.updInv n f).pending = s.pending := rfl

/-! ### State.updQueue -/

@[simp] theorem State.updQueue_variant (s : State) (t q : Nat) (f : QPair → QPair) : (s.updQueue t q f).variant = s.variant := rfl
@[simp] theorem State.updQueue_power (s : State) (t q : Nat) (f : QPair → QPair) : (s.updQueue t q f).power = s.power := rfl
@[simp] theorem State.updQueue_admin (s : State) (t q : Nat) (f : QPair → QPair) : (s.updQueue t q f).admin = s.admin := rfl
@[simp] theorem State.updQueue_tenants (s : State) (t q : Nat) (f : QPair → QPair) : (s.updQueue t q f).tenants = s.tenants.modify t (fun x => { x with queues := x.queues.modify q (Option.map f) }) := rfl
@[simp] theorem State.updQueue_rr (s : State) (t q : Nat) (f : QPair → QPair) : (s.updQueue t q f).rr = s.rr := rfl
@[simp] theorem State.updQueue_cmds (s : State) (t q : Nat) (f : QPair → QPair) : (s.updQueue t q f).cmds = s.cmds := rfl
@[simp] theorem State.updQueue_nextHandle (s : State) (t q : Nat) (f : QPair → QPair) : (s.updQueue t q f).nextHandle = s.nextHandle := rfl
@[simp] theorem State.updQueue_hostMap (s : State) (t q : Nat) (f : QPair → QPair) : (s.updQueue t q f).hostMap = s.hostMap := rfl
@[simp] theorem State.updQueue_dlr (s : State) (t q : Nat) (f : QPair → QPair) : (s.updQueue t q f).dlr = s.dlr := rfl
@[simp] theorem State.updQueue_hands (s : State) (t q : Nat) (f : QPair → QPair) : (s.updQueue t q f).hands = s.hands := rfl
@[simp] theorem State.updQueue_invs (s : State) (t q : Nat) (f : QPair → QPair) : (s.updQueue t q f).invs = s.invs := rfl
@[simp] theorem State.updQueue_nextInv (s : State) (t q : Nat) (f : QPair → QPair) : (s.updQueue t q f).nextInv = s.nextInv := rfl
@[simp] theorem State.updQueue_seats (s : State) (t q : Nat) (f : QPair → QPair) : (s.updQueue t q f).seats = s.seats := rfl
@[simp] theorem State.updQueue_steadyLoad (s : State) (t q : Nat) (f : QPair → QPair) : (s.updQueue t q f).steadyLoad = s.steadyLoad := rfl
@[simp] theorem State.updQueue_audCtrl (s : State) (t q : Nat) (f : QPair → QPair) : (s.updQueue t q f).audCtrl = s.audCtrl := rfl
@[simp] theorem State.updQueue_audLast (s : State) (t q : Nat) (f : QPair → QPair) : (s.updQueue t q f).audLast = s.audLast := rfl
@[simp] theorem State.updQueue_audInject (s : State) (t q : Nat) (f : QPair → QPair) : (s.updQueue t q f).audInject = s.audInject := rfl
@[simp] theorem State.updQueue_potBad (s : State) (t q : Nat) (f : QPair → QPair) : (s.updQueue t q f).potBad = s.potBad := rfl
@[simp] theorem State.updQueue_pt (s : State) (t q : Nat) (f : QPair → QPair) : (s.updQueue t q f).pt = s.pt := rfl
@[simp] theorem State.updQueue_issues (s : State) (t q : Nat) (f : QPair → QPair) : (s.updQueue t q f).issues = s.issues := rfl
@[simp] theorem State.updQueue_models (s : State) (t q : Nat) (f : QPair → QPair) : (s.updQueue t q f).models = s.models := rfl
@[simp] theorem State.updQueue_decks (s : State) (t q : Nat) (f : QPair → QPair) : (s.updQueue t q f).decks = s.decks := rfl
@[simp] theorem State.updQueue_automata (s : State) (t q : Nat) (f : QPair → QPair) : (s.updQueue t q f).automata = s.automata := rfl
@[simp] theorem State.updQueue_colls (s : State) (t q : Nat) (f : QPair → QPair) : (s.updQueue t q f).colls = s.colls := rfl
@[simp] theorem State.updQueue_dirLen (s : State) (t q : Nat) (f : QPair → QPair) : (s.updQueue t q f).dirLen = s.dirLen := rfl
@[simp] theorem State.updQueue_search (s : State) (t q : Nat) (f : QPair → QPair) : (s.updQueue t q f).search = s.search := rfl
@[simp] theorem State.updQueue_selections (s : State) (t q : Nat) (f : QPair → QPair) : (s.updQueue t q f).selections = s.selections := rfl
@[simp] theorem State.updQueue_pipes (s : State) (t q : Nat) (f : QPair → QPair) : (s.updQueue t q f).pipes = s.pipes := rfl
@[simp] theorem State.updQueue_deckCache (s : State) (t q : Nat) (f : QPair → QPair) : (s.updQueue t q f).deckCache = s.deckCache := rfl
@[simp] theorem State.updQueue_maskCache (s : State) (t q : Nat) (f : QPair → QPair) : (s.updQueue t q f).maskCache = s.maskCache := rfl
@[simp] theorem State.updQueue_imageBuf (s : State) (t q : Nat) (f : QPair → QPair) : (s.updQueue t q f).imageBuf = s.imageBuf := rfl
@[simp] theorem State.updQueue_imageBad (s : State) (t q : Nat) (f : QPair → QPair) : (s.updQueue t q f).imageBad = s.imageBad := rfl
@[simp] theorem State.updQueue_serving (s : State) (t q : Nat) (f : QPair → QPair) : (s.updQueue t q f).serving = s.serving := rfl
@[simp] theorem State.updQueue_embed (s : State) (t q : Nat) (f : QPair → QPair) : (s.updQueue t q f).embed = s.embed := rfl
@[simp] theorem State.updQueue_tier (s : State) (t q : Nat) (f : QPair → QPair) : (s.updQueue t q f).tier = s.tier := rfl
@[simp] theorem State.updQueue_flash (s : State) (t q : Nat) (f : QPair → QPair) : (s.updQueue t q f).flash = s.flash := rfl
@[simp] theorem State.updQueue_flt (s : State) (t q : Nat) (f : QPair → QPair) : (s.updQueue t q f).flt = s.flt := rfl
@[simp] theorem State.updQueue_cell (s : State) (t q : Nat) (f : QPair → QPair) : (s.updQueue t q f).cell = s.cell := rfl
@[simp] theorem State.updQueue_cxl (s : State) (t q : Nat) (f : QPair → QPair) : (s.updQueue t q f).cxl = s.cxl := rfl
@[simp] theorem State.updQueue_sec (s : State) (t q : Nat) (f : QPair → QPair) : (s.updQueue t q f).sec = s.sec := rfl
@[simp] theorem State.updQueue_mgmt (s : State) (t q : Nat) (f : QPair → QPair) : (s.updQueue t q f).mgmt = s.mgmt := rfl
@[simp] theorem State.updQueue_dump (s : State) (t q : Nat) (f : QPair → QPair) : (s.updQueue t q f).dump = s.dump := rfl
@[simp] theorem State.updQueue_ctr (s : State) (t q : Nat) (f : QPair → QPair) : (s.updQueue t q f).ctr = s.ctr := rfl
@[simp] theorem State.updQueue_latch (s : State) (t q : Nat) (f : QPair → QPair) : (s.updQueue t q f).latch = s.latch := rfl
@[simp] theorem State.updQueue_mem (s : State) (t q : Nat) (f : QPair → QPair) : (s.updQueue t q f).mem = s.mem := rfl
@[simp] theorem State.updQueue_fresh (s : State) (t q : Nat) (f : QPair → QPair) : (s.updQueue t q f).fresh = s.fresh := rfl
@[simp] theorem State.updQueue_out (s : State) (t q : Nat) (f : QPair → QPair) : (s.updQueue t q f).out = s.out := rfl
@[simp] theorem State.updQueue_pending (s : State) (t q : Nat) (f : QPair → QPair) : (s.updQueue t q f).pending = s.pending := rfl

/-! ### State.bumpBy -/

@[simp] theorem State.bumpBy_variant (s : State) (o n : Nat) : (s.bumpBy o n).variant = s.variant := rfl
@[simp] theorem State.bumpBy_power (s : State) (o n : Nat) : (s.bumpBy o n).power = s.power := rfl
@[simp] theorem State.bumpBy_admin (s : State) (o n : Nat) : (s.bumpBy o n).admin = s.admin := rfl
@[simp] theorem State.bumpBy_tenants (s : State) (o n : Nat) : (s.bumpBy o n).tenants = s.tenants := rfl
@[simp] theorem State.bumpBy_rr (s : State) (o n : Nat) : (s.bumpBy o n).rr = s.rr := rfl
@[simp] theorem State.bumpBy_cmds (s : State) (o n : Nat) : (s.bumpBy o n).cmds = s.cmds := rfl
@[simp] theorem State.bumpBy_nextHandle (s : State) (o n : Nat) : (s.bumpBy o n).nextHandle = s.nextHandle := rfl
@[simp] theorem State.bumpBy_hostMap (s : State) (o n : Nat) : (s.bumpBy o n).hostMap = s.hostMap := rfl
@[simp] theorem State.bumpBy_dlr (s : State) (o n : Nat) : (s.bumpBy o n).dlr = s.dlr := rfl
@[simp] theorem State.bumpBy_hands (s : State) (o n : Nat) : (s.bumpBy o n).hands = s.hands := rfl
@[simp] theorem State.bumpBy_invs (s : State) (o n : Nat) : (s.bumpBy o n).invs = s.invs := rfl
@[simp] theorem State.bumpBy_nextInv (s : State) (o n : Nat) : (s.bumpBy o n).nextInv = s.nextInv := rfl
@[simp] theorem State.bumpBy_seats (s : State) (o n : Nat) : (s.bumpBy o n).seats = s.seats := rfl
@[simp] theorem State.bumpBy_steadyLoad (s : State) (o n : Nat) : (s.bumpBy o n).steadyLoad = s.steadyLoad := rfl
@[simp] theorem State.bumpBy_audCtrl (s : State) (o n : Nat) : (s.bumpBy o n).audCtrl = s.audCtrl := rfl
@[simp] theorem State.bumpBy_audLast (s : State) (o n : Nat) : (s.bumpBy o n).audLast = s.audLast := rfl
@[simp] theorem State.bumpBy_audInject (s : State) (o n : Nat) : (s.bumpBy o n).audInject = s.audInject := rfl
@[simp] theorem State.bumpBy_potBad (s : State) (o n : Nat) : (s.bumpBy o n).potBad = s.potBad := rfl
@[simp] theorem State.bumpBy_pt (s : State) (o n : Nat) : (s.bumpBy o n).pt = s.pt := rfl
@[simp] theorem State.bumpBy_issues (s : State) (o n : Nat) : (s.bumpBy o n).issues = s.issues := rfl
@[simp] theorem State.bumpBy_models (s : State) (o n : Nat) : (s.bumpBy o n).models = s.models := rfl
@[simp] theorem State.bumpBy_decks (s : State) (o n : Nat) : (s.bumpBy o n).decks = s.decks := rfl
@[simp] theorem State.bumpBy_automata (s : State) (o n : Nat) : (s.bumpBy o n).automata = s.automata := rfl
@[simp] theorem State.bumpBy_colls (s : State) (o n : Nat) : (s.bumpBy o n).colls = s.colls := rfl
@[simp] theorem State.bumpBy_dirLen (s : State) (o n : Nat) : (s.bumpBy o n).dirLen = s.dirLen := rfl
@[simp] theorem State.bumpBy_search (s : State) (o n : Nat) : (s.bumpBy o n).search = s.search := rfl
@[simp] theorem State.bumpBy_selections (s : State) (o n : Nat) : (s.bumpBy o n).selections = s.selections := rfl
@[simp] theorem State.bumpBy_pipes (s : State) (o n : Nat) : (s.bumpBy o n).pipes = s.pipes := rfl
@[simp] theorem State.bumpBy_deckCache (s : State) (o n : Nat) : (s.bumpBy o n).deckCache = s.deckCache := rfl
@[simp] theorem State.bumpBy_maskCache (s : State) (o n : Nat) : (s.bumpBy o n).maskCache = s.maskCache := rfl
@[simp] theorem State.bumpBy_imageBuf (s : State) (o n : Nat) : (s.bumpBy o n).imageBuf = s.imageBuf := rfl
@[simp] theorem State.bumpBy_imageBad (s : State) (o n : Nat) : (s.bumpBy o n).imageBad = s.imageBad := rfl
@[simp] theorem State.bumpBy_serving (s : State) (o n : Nat) : (s.bumpBy o n).serving = s.serving := rfl
@[simp] theorem State.bumpBy_embed (s : State) (o n : Nat) : (s.bumpBy o n).embed = s.embed := rfl
@[simp] theorem State.bumpBy_tier (s : State) (o n : Nat) : (s.bumpBy o n).tier = s.tier := rfl
@[simp] theorem State.bumpBy_flash (s : State) (o n : Nat) : (s.bumpBy o n).flash = s.flash := rfl
@[simp] theorem State.bumpBy_flt (s : State) (o n : Nat) : (s.bumpBy o n).flt = s.flt := rfl
@[simp] theorem State.bumpBy_cell (s : State) (o n : Nat) : (s.bumpBy o n).cell = s.cell := rfl
@[simp] theorem State.bumpBy_cxl (s : State) (o n : Nat) : (s.bumpBy o n).cxl = s.cxl := rfl
@[simp] theorem State.bumpBy_sec (s : State) (o n : Nat) : (s.bumpBy o n).sec = s.sec := rfl
@[simp] theorem State.bumpBy_mgmt (s : State) (o n : Nat) : (s.bumpBy o n).mgmt = s.mgmt := rfl
@[simp] theorem State.bumpBy_dump (s : State) (o n : Nat) : (s.bumpBy o n).dump = s.dump := rfl
@[simp] theorem State.bumpBy_ctr (s : State) (o n : Nat) : (s.bumpBy o n).ctr = sparsePut 0 o (min (s.counter o + n) 0xFFFFFFFF) s.ctr := rfl
@[simp] theorem State.bumpBy_latch (s : State) (o n : Nat) : (s.bumpBy o n).latch = s.latch := rfl
@[simp] theorem State.bumpBy_mem (s : State) (o n : Nat) : (s.bumpBy o n).mem = s.mem := rfl
@[simp] theorem State.bumpBy_fresh (s : State) (o n : Nat) : (s.bumpBy o n).fresh = s.fresh := rfl
@[simp] theorem State.bumpBy_out (s : State) (o n : Nat) : (s.bumpBy o n).out = s.out := rfl
@[simp] theorem State.bumpBy_pending (s : State) (o n : Nat) : (s.bumpBy o n).pending = s.pending := rfl

/-! ### State.bump64 -/

@[simp] theorem State.bump64_variant (s : State) (o n : Nat) : (s.bump64 o n).variant = s.variant := rfl
@[simp] theorem State.bump64_power (s : State) (o n : Nat) : (s.bump64 o n).power = s.power := rfl
@[simp] theorem State.bump64_admin (s : State) (o n : Nat) : (s.bump64 o n).admin = s.admin := rfl
@[simp] theorem State.bump64_tenants (s : State) (o n : Nat) : (s.bump64 o n).tenants = s.tenants := rfl
@[simp] theorem State.bump64_rr (s : State) (o n : Nat) : (s.bump64 o n).rr = s.rr := rfl
@[simp] theorem State.bump64_cmds (s : State) (o n : Nat) : (s.bump64 o n).cmds = s.cmds := rfl
@[simp] theorem State.bump64_nextHandle (s : State) (o n : Nat) : (s.bump64 o n).nextHandle = s.nextHandle := rfl
@[simp] theorem State.bump64_hostMap (s : State) (o n : Nat) : (s.bump64 o n).hostMap = s.hostMap := rfl
@[simp] theorem State.bump64_dlr (s : State) (o n : Nat) : (s.bump64 o n).dlr = s.dlr := rfl
@[simp] theorem State.bump64_hands (s : State) (o n : Nat) : (s.bump64 o n).hands = s.hands := rfl
@[simp] theorem State.bump64_invs (s : State) (o n : Nat) : (s.bump64 o n).invs = s.invs := rfl
@[simp] theorem State.bump64_nextInv (s : State) (o n : Nat) : (s.bump64 o n).nextInv = s.nextInv := rfl
@[simp] theorem State.bump64_seats (s : State) (o n : Nat) : (s.bump64 o n).seats = s.seats := rfl
@[simp] theorem State.bump64_steadyLoad (s : State) (o n : Nat) : (s.bump64 o n).steadyLoad = s.steadyLoad := rfl
@[simp] theorem State.bump64_audCtrl (s : State) (o n : Nat) : (s.bump64 o n).audCtrl = s.audCtrl := rfl
@[simp] theorem State.bump64_audLast (s : State) (o n : Nat) : (s.bump64 o n).audLast = s.audLast := rfl
@[simp] theorem State.bump64_audInject (s : State) (o n : Nat) : (s.bump64 o n).audInject = s.audInject := rfl
@[simp] theorem State.bump64_potBad (s : State) (o n : Nat) : (s.bump64 o n).potBad = s.potBad := rfl
@[simp] theorem State.bump64_pt (s : State) (o n : Nat) : (s.bump64 o n).pt = s.pt := rfl
@[simp] theorem State.bump64_issues (s : State) (o n : Nat) : (s.bump64 o n).issues = s.issues := rfl
@[simp] theorem State.bump64_models (s : State) (o n : Nat) : (s.bump64 o n).models = s.models := rfl
@[simp] theorem State.bump64_decks (s : State) (o n : Nat) : (s.bump64 o n).decks = s.decks := rfl
@[simp] theorem State.bump64_automata (s : State) (o n : Nat) : (s.bump64 o n).automata = s.automata := rfl
@[simp] theorem State.bump64_colls (s : State) (o n : Nat) : (s.bump64 o n).colls = s.colls := rfl
@[simp] theorem State.bump64_dirLen (s : State) (o n : Nat) : (s.bump64 o n).dirLen = s.dirLen := rfl
@[simp] theorem State.bump64_search (s : State) (o n : Nat) : (s.bump64 o n).search = s.search := rfl
@[simp] theorem State.bump64_selections (s : State) (o n : Nat) : (s.bump64 o n).selections = s.selections := rfl
@[simp] theorem State.bump64_pipes (s : State) (o n : Nat) : (s.bump64 o n).pipes = s.pipes := rfl
@[simp] theorem State.bump64_deckCache (s : State) (o n : Nat) : (s.bump64 o n).deckCache = s.deckCache := rfl
@[simp] theorem State.bump64_maskCache (s : State) (o n : Nat) : (s.bump64 o n).maskCache = s.maskCache := rfl
@[simp] theorem State.bump64_imageBuf (s : State) (o n : Nat) : (s.bump64 o n).imageBuf = s.imageBuf := rfl
@[simp] theorem State.bump64_imageBad (s : State) (o n : Nat) : (s.bump64 o n).imageBad = s.imageBad := rfl
@[simp] theorem State.bump64_serving (s : State) (o n : Nat) : (s.bump64 o n).serving = s.serving := rfl
@[simp] theorem State.bump64_embed (s : State) (o n : Nat) : (s.bump64 o n).embed = s.embed := rfl
@[simp] theorem State.bump64_tier (s : State) (o n : Nat) : (s.bump64 o n).tier = s.tier := rfl
@[simp] theorem State.bump64_flash (s : State) (o n : Nat) : (s.bump64 o n).flash = s.flash := rfl
@[simp] theorem State.bump64_flt (s : State) (o n : Nat) : (s.bump64 o n).flt = s.flt := rfl
@[simp] theorem State.bump64_cell (s : State) (o n : Nat) : (s.bump64 o n).cell = s.cell := rfl
@[simp] theorem State.bump64_cxl (s : State) (o n : Nat) : (s.bump64 o n).cxl = s.cxl := rfl
@[simp] theorem State.bump64_sec (s : State) (o n : Nat) : (s.bump64 o n).sec = s.sec := rfl
@[simp] theorem State.bump64_mgmt (s : State) (o n : Nat) : (s.bump64 o n).mgmt = s.mgmt := rfl
@[simp] theorem State.bump64_dump (s : State) (o n : Nat) : (s.bump64 o n).dump = s.dump := rfl
@[simp] theorem State.bump64_ctr (s : State) (o n : Nat) : (s.bump64 o n).ctr = sparsePut 0 o (min (s.counter o + n) (2 ^ 64 - 1)) s.ctr := rfl
@[simp] theorem State.bump64_latch (s : State) (o n : Nat) : (s.bump64 o n).latch = s.latch := rfl
@[simp] theorem State.bump64_mem (s : State) (o n : Nat) : (s.bump64 o n).mem = s.mem := rfl
@[simp] theorem State.bump64_fresh (s : State) (o n : Nat) : (s.bump64 o n).fresh = s.fresh := rfl
@[simp] theorem State.bump64_out (s : State) (o n : Nat) : (s.bump64 o n).out = s.out := rfl
@[simp] theorem State.bump64_pending (s : State) (o n : Nat) : (s.bump64 o n).pending = s.pending := rfl

/-! ### State.bump -/

@[simp] theorem State.bump_variant (s : State) (o : Nat) : (s.bump o).variant = s.variant := rfl
@[simp] theorem State.bump_power (s : State) (o : Nat) : (s.bump o).power = s.power := rfl
@[simp] theorem State.bump_admin (s : State) (o : Nat) : (s.bump o).admin = s.admin := rfl
@[simp] theorem State.bump_tenants (s : State) (o : Nat) : (s.bump o).tenants = s.tenants := rfl
@[simp] theorem State.bump_rr (s : State) (o : Nat) : (s.bump o).rr = s.rr := rfl
@[simp] theorem State.bump_cmds (s : State) (o : Nat) : (s.bump o).cmds = s.cmds := rfl
@[simp] theorem State.bump_nextHandle (s : State) (o : Nat) : (s.bump o).nextHandle = s.nextHandle := rfl
@[simp] theorem State.bump_hostMap (s : State) (o : Nat) : (s.bump o).hostMap = s.hostMap := rfl
@[simp] theorem State.bump_dlr (s : State) (o : Nat) : (s.bump o).dlr = s.dlr := rfl
@[simp] theorem State.bump_hands (s : State) (o : Nat) : (s.bump o).hands = s.hands := rfl
@[simp] theorem State.bump_invs (s : State) (o : Nat) : (s.bump o).invs = s.invs := rfl
@[simp] theorem State.bump_nextInv (s : State) (o : Nat) : (s.bump o).nextInv = s.nextInv := rfl
@[simp] theorem State.bump_seats (s : State) (o : Nat) : (s.bump o).seats = s.seats := rfl
@[simp] theorem State.bump_steadyLoad (s : State) (o : Nat) : (s.bump o).steadyLoad = s.steadyLoad := rfl
@[simp] theorem State.bump_audCtrl (s : State) (o : Nat) : (s.bump o).audCtrl = s.audCtrl := rfl
@[simp] theorem State.bump_audLast (s : State) (o : Nat) : (s.bump o).audLast = s.audLast := rfl
@[simp] theorem State.bump_audInject (s : State) (o : Nat) : (s.bump o).audInject = s.audInject := rfl
@[simp] theorem State.bump_potBad (s : State) (o : Nat) : (s.bump o).potBad = s.potBad := rfl
@[simp] theorem State.bump_pt (s : State) (o : Nat) : (s.bump o).pt = s.pt := rfl
@[simp] theorem State.bump_issues (s : State) (o : Nat) : (s.bump o).issues = s.issues := rfl
@[simp] theorem State.bump_models (s : State) (o : Nat) : (s.bump o).models = s.models := rfl
@[simp] theorem State.bump_decks (s : State) (o : Nat) : (s.bump o).decks = s.decks := rfl
@[simp] theorem State.bump_automata (s : State) (o : Nat) : (s.bump o).automata = s.automata := rfl
@[simp] theorem State.bump_colls (s : State) (o : Nat) : (s.bump o).colls = s.colls := rfl
@[simp] theorem State.bump_dirLen (s : State) (o : Nat) : (s.bump o).dirLen = s.dirLen := rfl
@[simp] theorem State.bump_search (s : State) (o : Nat) : (s.bump o).search = s.search := rfl
@[simp] theorem State.bump_selections (s : State) (o : Nat) : (s.bump o).selections = s.selections := rfl
@[simp] theorem State.bump_pipes (s : State) (o : Nat) : (s.bump o).pipes = s.pipes := rfl
@[simp] theorem State.bump_deckCache (s : State) (o : Nat) : (s.bump o).deckCache = s.deckCache := rfl
@[simp] theorem State.bump_maskCache (s : State) (o : Nat) : (s.bump o).maskCache = s.maskCache := rfl
@[simp] theorem State.bump_imageBuf (s : State) (o : Nat) : (s.bump o).imageBuf = s.imageBuf := rfl
@[simp] theorem State.bump_imageBad (s : State) (o : Nat) : (s.bump o).imageBad = s.imageBad := rfl
@[simp] theorem State.bump_serving (s : State) (o : Nat) : (s.bump o).serving = s.serving := rfl
@[simp] theorem State.bump_embed (s : State) (o : Nat) : (s.bump o).embed = s.embed := rfl
@[simp] theorem State.bump_tier (s : State) (o : Nat) : (s.bump o).tier = s.tier := rfl
@[simp] theorem State.bump_flash (s : State) (o : Nat) : (s.bump o).flash = s.flash := rfl
@[simp] theorem State.bump_flt (s : State) (o : Nat) : (s.bump o).flt = s.flt := rfl
@[simp] theorem State.bump_cell (s : State) (o : Nat) : (s.bump o).cell = s.cell := rfl
@[simp] theorem State.bump_cxl (s : State) (o : Nat) : (s.bump o).cxl = s.cxl := rfl
@[simp] theorem State.bump_sec (s : State) (o : Nat) : (s.bump o).sec = s.sec := rfl
@[simp] theorem State.bump_mgmt (s : State) (o : Nat) : (s.bump o).mgmt = s.mgmt := rfl
@[simp] theorem State.bump_dump (s : State) (o : Nat) : (s.bump o).dump = s.dump := rfl
@[simp] theorem State.bump_ctr (s : State) (o : Nat) : (s.bump o).ctr = sparsePut 0 o (min (s.counter o + 1) 0xFFFFFFFF) s.ctr := rfl
@[simp] theorem State.bump_latch (s : State) (o : Nat) : (s.bump o).latch = s.latch := rfl
@[simp] theorem State.bump_mem (s : State) (o : Nat) : (s.bump o).mem = s.mem := rfl
@[simp] theorem State.bump_fresh (s : State) (o : Nat) : (s.bump o).fresh = s.fresh := rfl
@[simp] theorem State.bump_out (s : State) (o : Nat) : (s.bump o).out = s.out := rfl
@[simp] theorem State.bump_pending (s : State) (o : Nat) : (s.bump o).pending = s.pending := rfl

/-! ### State.draw -/

@[simp] theorem State.draw_variant (s : State) : (s.draw).variant = s.variant := rfl
@[simp] theorem State.draw_power (s : State) : (s.draw).power = s.power := rfl
@[simp] theorem State.draw_admin (s : State) : (s.draw).admin = s.admin := rfl
@[simp] theorem State.draw_tenants (s : State) : (s.draw).tenants = s.tenants := rfl
@[simp] theorem State.draw_rr (s : State) : (s.draw).rr = s.rr := rfl
@[simp] theorem State.draw_cmds (s : State) : (s.draw).cmds = s.cmds := rfl
@[simp] theorem State.draw_nextHandle (s : State) : (s.draw).nextHandle = s.nextHandle := rfl
@[simp] theorem State.draw_hostMap (s : State) : (s.draw).hostMap = s.hostMap := rfl
@[simp] theorem State.draw_dlr (s : State) : (s.draw).dlr = s.dlr := rfl
@[simp] theorem State.draw_hands (s : State) : (s.draw).hands = s.hands := rfl
@[simp] theorem State.draw_invs (s : State) : (s.draw).invs = s.invs := rfl
@[simp] theorem State.draw_nextInv (s : State) : (s.draw).nextInv = s.nextInv := rfl
@[simp] theorem State.draw_seats (s : State) : (s.draw).seats = s.seats := rfl
@[simp] theorem State.draw_steadyLoad (s : State) : (s.draw).steadyLoad = s.steadyLoad := rfl
@[simp] theorem State.draw_audCtrl (s : State) : (s.draw).audCtrl = s.audCtrl := rfl
@[simp] theorem State.draw_audLast (s : State) : (s.draw).audLast = s.audLast := rfl
@[simp] theorem State.draw_audInject (s : State) : (s.draw).audInject = s.audInject := rfl
@[simp] theorem State.draw_potBad (s : State) : (s.draw).potBad = s.potBad := rfl
@[simp] theorem State.draw_pt (s : State) : (s.draw).pt = s.pt := rfl
@[simp] theorem State.draw_issues (s : State) : (s.draw).issues = s.issues := rfl
@[simp] theorem State.draw_models (s : State) : (s.draw).models = s.models := rfl
@[simp] theorem State.draw_decks (s : State) : (s.draw).decks = s.decks := rfl
@[simp] theorem State.draw_automata (s : State) : (s.draw).automata = s.automata := rfl
@[simp] theorem State.draw_colls (s : State) : (s.draw).colls = s.colls := rfl
@[simp] theorem State.draw_dirLen (s : State) : (s.draw).dirLen = s.dirLen := rfl
@[simp] theorem State.draw_search (s : State) : (s.draw).search = s.search := rfl
@[simp] theorem State.draw_selections (s : State) : (s.draw).selections = s.selections := rfl
@[simp] theorem State.draw_pipes (s : State) : (s.draw).pipes = s.pipes := rfl
@[simp] theorem State.draw_deckCache (s : State) : (s.draw).deckCache = s.deckCache := rfl
@[simp] theorem State.draw_maskCache (s : State) : (s.draw).maskCache = s.maskCache := rfl
@[simp] theorem State.draw_imageBuf (s : State) : (s.draw).imageBuf = s.imageBuf := rfl
@[simp] theorem State.draw_imageBad (s : State) : (s.draw).imageBad = s.imageBad := rfl
@[simp] theorem State.draw_serving (s : State) : (s.draw).serving = s.serving := rfl
@[simp] theorem State.draw_embed (s : State) : (s.draw).embed = s.embed := rfl
@[simp] theorem State.draw_tier (s : State) : (s.draw).tier = s.tier := rfl
@[simp] theorem State.draw_flash (s : State) : (s.draw).flash = s.flash := rfl
@[simp] theorem State.draw_flt (s : State) : (s.draw).flt = s.flt := rfl
@[simp] theorem State.draw_cell (s : State) : (s.draw).cell = s.cell := rfl
@[simp] theorem State.draw_cxl (s : State) : (s.draw).cxl = s.cxl := rfl
@[simp] theorem State.draw_sec (s : State) : (s.draw).sec = s.sec := rfl
@[simp] theorem State.draw_mgmt (s : State) : (s.draw).mgmt = s.mgmt := rfl
@[simp] theorem State.draw_dump (s : State) : (s.draw).dump = s.dump := rfl
@[simp] theorem State.draw_ctr (s : State) : (s.draw).ctr = s.ctr := rfl
@[simp] theorem State.draw_latch (s : State) : (s.draw).latch = s.latch := rfl
@[simp] theorem State.draw_mem (s : State) : (s.draw).mem = s.mem := rfl
@[simp] theorem State.draw_fresh (s : State) : (s.draw).fresh = s.fresh + 1 := rfl
@[simp] theorem State.draw_out (s : State) : (s.draw).out = s.out := rfl
@[simp] theorem State.draw_pending (s : State) : (s.draw).pending = s.pending := rfl

/-! ### State.emit -/

@[simp] theorem State.emit_variant (s : State) (o : Out) : (s.emit o).variant = s.variant := rfl
@[simp] theorem State.emit_power (s : State) (o : Out) : (s.emit o).power = s.power := rfl
@[simp] theorem State.emit_admin (s : State) (o : Out) : (s.emit o).admin = s.admin := rfl
@[simp] theorem State.emit_tenants (s : State) (o : Out) : (s.emit o).tenants = s.tenants := rfl
@[simp] theorem State.emit_rr (s : State) (o : Out) : (s.emit o).rr = s.rr := rfl
@[simp] theorem State.emit_cmds (s : State) (o : Out) : (s.emit o).cmds = s.cmds := rfl
@[simp] theorem State.emit_nextHandle (s : State) (o : Out) : (s.emit o).nextHandle = s.nextHandle := rfl
@[simp] theorem State.emit_hostMap (s : State) (o : Out) : (s.emit o).hostMap = s.hostMap := rfl
@[simp] theorem State.emit_dlr (s : State) (o : Out) : (s.emit o).dlr = s.dlr := rfl
@[simp] theorem State.emit_hands (s : State) (o : Out) : (s.emit o).hands = s.hands := rfl
@[simp] theorem State.emit_invs (s : State) (o : Out) : (s.emit o).invs = s.invs := rfl
@[simp] theorem State.emit_nextInv (s : State) (o : Out) : (s.emit o).nextInv = s.nextInv := rfl
@[simp] theorem State.emit_seats (s : State) (o : Out) : (s.emit o).seats = s.seats := rfl
@[simp] theorem State.emit_steadyLoad (s : State) (o : Out) : (s.emit o).steadyLoad = s.steadyLoad := rfl
@[simp] theorem State.emit_audCtrl (s : State) (o : Out) : (s.emit o).audCtrl = s.audCtrl := rfl
@[simp] theorem State.emit_audLast (s : State) (o : Out) : (s.emit o).audLast = s.audLast := rfl
@[simp] theorem State.emit_audInject (s : State) (o : Out) : (s.emit o).audInject = s.audInject := rfl
@[simp] theorem State.emit_potBad (s : State) (o : Out) : (s.emit o).potBad = s.potBad := rfl
@[simp] theorem State.emit_pt (s : State) (o : Out) : (s.emit o).pt = s.pt := rfl
@[simp] theorem State.emit_issues (s : State) (o : Out) : (s.emit o).issues = s.issues := rfl
@[simp] theorem State.emit_models (s : State) (o : Out) : (s.emit o).models = s.models := rfl
@[simp] theorem State.emit_decks (s : State) (o : Out) : (s.emit o).decks = s.decks := rfl
@[simp] theorem State.emit_automata (s : State) (o : Out) : (s.emit o).automata = s.automata := rfl
@[simp] theorem State.emit_colls (s : State) (o : Out) : (s.emit o).colls = s.colls := rfl
@[simp] theorem State.emit_dirLen (s : State) (o : Out) : (s.emit o).dirLen = s.dirLen := rfl
@[simp] theorem State.emit_search (s : State) (o : Out) : (s.emit o).search = s.search := rfl
@[simp] theorem State.emit_selections (s : State) (o : Out) : (s.emit o).selections = s.selections := rfl
@[simp] theorem State.emit_pipes (s : State) (o : Out) : (s.emit o).pipes = s.pipes := rfl
@[simp] theorem State.emit_deckCache (s : State) (o : Out) : (s.emit o).deckCache = s.deckCache := rfl
@[simp] theorem State.emit_maskCache (s : State) (o : Out) : (s.emit o).maskCache = s.maskCache := rfl
@[simp] theorem State.emit_imageBuf (s : State) (o : Out) : (s.emit o).imageBuf = s.imageBuf := rfl
@[simp] theorem State.emit_imageBad (s : State) (o : Out) : (s.emit o).imageBad = s.imageBad := rfl
@[simp] theorem State.emit_serving (s : State) (o : Out) : (s.emit o).serving = s.serving := rfl
@[simp] theorem State.emit_embed (s : State) (o : Out) : (s.emit o).embed = s.embed := rfl
@[simp] theorem State.emit_tier (s : State) (o : Out) : (s.emit o).tier = s.tier := rfl
@[simp] theorem State.emit_flash (s : State) (o : Out) : (s.emit o).flash = s.flash := rfl
@[simp] theorem State.emit_flt (s : State) (o : Out) : (s.emit o).flt = s.flt := rfl
@[simp] theorem State.emit_cell (s : State) (o : Out) : (s.emit o).cell = s.cell := rfl
@[simp] theorem State.emit_cxl (s : State) (o : Out) : (s.emit o).cxl = s.cxl := rfl
@[simp] theorem State.emit_sec (s : State) (o : Out) : (s.emit o).sec = s.sec := rfl
@[simp] theorem State.emit_mgmt (s : State) (o : Out) : (s.emit o).mgmt = s.mgmt := rfl
@[simp] theorem State.emit_dump (s : State) (o : Out) : (s.emit o).dump = s.dump := rfl
@[simp] theorem State.emit_ctr (s : State) (o : Out) : (s.emit o).ctr = s.ctr := rfl
@[simp] theorem State.emit_latch (s : State) (o : Out) : (s.emit o).latch = s.latch := rfl
@[simp] theorem State.emit_mem (s : State) (o : Out) : (s.emit o).mem = s.mem := rfl
@[simp] theorem State.emit_fresh (s : State) (o : Out) : (s.emit o).fresh = s.fresh := rfl
@[simp] theorem State.emit_out (s : State) (o : Out) : (s.emit o).out = s.out ++ [o] := rfl
@[simp] theorem State.emit_pending (s : State) (o : Out) : (s.emit o).pending = s.pending := rfl

/-! ### State.wr -/

@[simp] theorem State.wr_variant (s : State) (k : Nat) (b : List Byte) : (s.wr k b).variant = s.variant := rfl
@[simp] theorem State.wr_power (s : State) (k : Nat) (b : List Byte) : (s.wr k b).power = s.power := rfl
@[simp] theorem State.wr_admin (s : State) (k : Nat) (b : List Byte) : (s.wr k b).admin = s.admin := rfl
@[simp] theorem State.wr_tenants (s : State) (k : Nat) (b : List Byte) : (s.wr k b).tenants = s.tenants := rfl
@[simp] theorem State.wr_rr (s : State) (k : Nat) (b : List Byte) : (s.wr k b).rr = s.rr := rfl
@[simp] theorem State.wr_cmds (s : State) (k : Nat) (b : List Byte) : (s.wr k b).cmds = s.cmds := rfl
@[simp] theorem State.wr_nextHandle (s : State) (k : Nat) (b : List Byte) : (s.wr k b).nextHandle = s.nextHandle := rfl
@[simp] theorem State.wr_hostMap (s : State) (k : Nat) (b : List Byte) : (s.wr k b).hostMap = s.hostMap := rfl
@[simp] theorem State.wr_dlr (s : State) (k : Nat) (b : List Byte) : (s.wr k b).dlr = s.dlr := rfl
@[simp] theorem State.wr_hands (s : State) (k : Nat) (b : List Byte) : (s.wr k b).hands = s.hands := rfl
@[simp] theorem State.wr_invs (s : State) (k : Nat) (b : List Byte) : (s.wr k b).invs = s.invs := rfl
@[simp] theorem State.wr_nextInv (s : State) (k : Nat) (b : List Byte) : (s.wr k b).nextInv = s.nextInv := rfl
@[simp] theorem State.wr_seats (s : State) (k : Nat) (b : List Byte) : (s.wr k b).seats = s.seats := rfl
@[simp] theorem State.wr_steadyLoad (s : State) (k : Nat) (b : List Byte) : (s.wr k b).steadyLoad = s.steadyLoad := rfl
@[simp] theorem State.wr_audCtrl (s : State) (k : Nat) (b : List Byte) : (s.wr k b).audCtrl = s.audCtrl := rfl
@[simp] theorem State.wr_audLast (s : State) (k : Nat) (b : List Byte) : (s.wr k b).audLast = s.audLast := rfl
@[simp] theorem State.wr_audInject (s : State) (k : Nat) (b : List Byte) : (s.wr k b).audInject = s.audInject := rfl
@[simp] theorem State.wr_potBad (s : State) (k : Nat) (b : List Byte) : (s.wr k b).potBad = s.potBad := rfl
@[simp] theorem State.wr_pt (s : State) (k : Nat) (b : List Byte) : (s.wr k b).pt = s.pt := rfl
@[simp] theorem State.wr_issues (s : State) (k : Nat) (b : List Byte) : (s.wr k b).issues = s.issues := rfl
@[simp] theorem State.wr_models (s : State) (k : Nat) (b : List Byte) : (s.wr k b).models = s.models := rfl
@[simp] theorem State.wr_decks (s : State) (k : Nat) (b : List Byte) : (s.wr k b).decks = s.decks := rfl
@[simp] theorem State.wr_automata (s : State) (k : Nat) (b : List Byte) : (s.wr k b).automata = s.automata := rfl
@[simp] theorem State.wr_colls (s : State) (k : Nat) (b : List Byte) : (s.wr k b).colls = s.colls := rfl
@[simp] theorem State.wr_dirLen (s : State) (k : Nat) (b : List Byte) : (s.wr k b).dirLen = s.dirLen := rfl
@[simp] theorem State.wr_search (s : State) (k : Nat) (b : List Byte) : (s.wr k b).search = s.search := rfl
@[simp] theorem State.wr_selections (s : State) (k : Nat) (b : List Byte) : (s.wr k b).selections = s.selections := rfl
@[simp] theorem State.wr_pipes (s : State) (k : Nat) (b : List Byte) : (s.wr k b).pipes = s.pipes := rfl
@[simp] theorem State.wr_deckCache (s : State) (k : Nat) (b : List Byte) : (s.wr k b).deckCache = s.deckCache := rfl
@[simp] theorem State.wr_maskCache (s : State) (k : Nat) (b : List Byte) : (s.wr k b).maskCache = s.maskCache := rfl
@[simp] theorem State.wr_imageBuf (s : State) (k : Nat) (b : List Byte) : (s.wr k b).imageBuf = s.imageBuf := rfl
@[simp] theorem State.wr_imageBad (s : State) (k : Nat) (b : List Byte) : (s.wr k b).imageBad = s.imageBad := rfl
@[simp] theorem State.wr_serving (s : State) (k : Nat) (b : List Byte) : (s.wr k b).serving = s.serving := rfl
@[simp] theorem State.wr_embed (s : State) (k : Nat) (b : List Byte) : (s.wr k b).embed = s.embed := rfl
@[simp] theorem State.wr_flash (s : State) (k : Nat) (b : List Byte) : (s.wr k b).flash = s.flash := rfl
@[simp] theorem State.wr_flt (s : State) (k : Nat) (b : List Byte) : (s.wr k b).flt = s.flt := rfl
@[simp] theorem State.wr_cell (s : State) (k : Nat) (b : List Byte) : (s.wr k b).cell = s.cell := rfl
@[simp] theorem State.wr_cxl (s : State) (k : Nat) (b : List Byte) : (s.wr k b).cxl = s.cxl := rfl
@[simp] theorem State.wr_sec (s : State) (k : Nat) (b : List Byte) : (s.wr k b).sec = s.sec := rfl
@[simp] theorem State.wr_mgmt (s : State) (k : Nat) (b : List Byte) : (s.wr k b).mgmt = s.mgmt := rfl
@[simp] theorem State.wr_dump (s : State) (k : Nat) (b : List Byte) : (s.wr k b).dump = s.dump := rfl
@[simp] theorem State.wr_ctr (s : State) (k : Nat) (b : List Byte) : (s.wr k b).ctr = s.ctr := rfl
@[simp] theorem State.wr_latch (s : State) (k : Nat) (b : List Byte) : (s.wr k b).latch = s.latch := rfl
@[simp] theorem State.wr_mem (s : State) (k : Nat) (b : List Byte) : (s.wr k b).mem = memPut s.mem k b := rfl
@[simp] theorem State.wr_fresh (s : State) (k : Nat) (b : List Byte) : (s.wr k b).fresh = s.fresh := rfl
@[simp] theorem State.wr_out (s : State) (k : Nat) (b : List Byte) : (s.wr k b).out = s.out := rfl
@[simp] theorem State.wr_pending (s : State) (k : Nat) (b : List Byte) : (s.wr k b).pending = s.pending := rfl

end Sys2Proof.Machine
end

