-- ==== Sys2Proof/Laws/T1.lean ====
section
/-!
SUPPORT. What replacing a page and storing bytes for a context do to memory, and that both keep its canonical form (12 R308, 15 R389).
-/
namespace Sys2Proof.Machine

/-- Dropping other entries leaves what a key of a canonical map reads. -/
theorem sparseGet_filter {α : Type} [DecidableEq α] {z : α} (p : Nat × α → Bool) (a : Nat) (hp : ∀ v, p (a, v) = true) :
    ∀ (l : List (Nat × α)) (lo : Nat), sparseWf z lo l = true → sparseGet z a (l.filter p) = sparseGet z a l := by
  intro l
  induction l with
  | nil => intro _ _; rfl
  | cons x r ih =>
    obtain ⟨k, w⟩ := x
    intro lo hw
    simp only [sparseWf, Bool.and_eq_true, decide_eq_true_eq] at hw
    obtain ⟨⟨_, _⟩, hr⟩ := hw
    by_cases hk : k = a
    · subst hk
      simp only [List.filter_cons, hp, if_true, sparseGet]
    · by_cases hb : a < k
      · have hf : sparseGet z a (r.filter p) = z := sparseGet_below _ (k + 1) a (by omega) (sparseWf_filter p r (k + 1) hr)
        simp only [List.filter_cons, sparseGet, if_neg hk, if_pos hb]
        split
        · simp only [sparseGet, if_neg hk, if_pos hb]
        · exact hf
      · simp only [List.filter_cons, sparseGet, if_neg hk, if_neg hb]
        split
        · simp only [sparseGet, if_neg hk, if_neg hb]
          exact ih (k + 1) hr
        · exact ih (k + 1) hr

/-- Pieces written inside a page keep the canonical form and leave every byte outside the page. -/
theorem pagePuts (key : Nat) : ∀ (l : List (Nat × List Byte)) (m : List Host.Cell), Memory.wf m = true →
    let w := l.foldl (fun m p => memPut m (key + p.1) (p.2.take (65536 - p.1))) m
    Memory.wf w = true ∧ ∀ a, ¬ (key ≤ a ∧ a < key + 65536) → memGet w a = memGet m a := by
  intro l
  induction l with
  | nil => intro m h; exact ⟨h, fun _ _ => rfl⟩
  | cons p r ih =>
    intro m h
    obtain ⟨hw, ho⟩ := ih _ (memPut_wf (p.2.take (65536 - p.1)) (key + p.1) m h)
    refine ⟨hw, fun a ha => ?_⟩
    rw [List.foldl_cons, ho a ha, memGet_memPut _ _ _ _ h, if_neg]
    simp only [List.length_take]
    omega

/-- Replacing a page keeps the canonical form. -/
theorem State.wrPage_wf (s : State) (key : Nat) (l : List (Nat × List Byte)) (h : Memory.wf s.mem = true) : Memory.wf (s.wrPage key l).mem = true :=
  (pagePuts key l _ (Memory.wf_filter _ _ h)).1

/-- Replacing a page leaves every byte outside it. -/
theorem State.wrPage_outside (s : State) (key : Nat) (l : List (Nat × List Byte)) (a : Nat) (h : Memory.wf s.mem = true)
    (ha : ¬ (key ≤ a ∧ a < key + 65536)) : memGet (s.wrPage key l).mem a = memGet s.mem a := by
  rw [State.wrPage, (pagePuts key l _ (Memory.wf_filter _ _ h)).2 a ha]
  refine sparseGet_filter _ a (fun v => ?_) _ 0 h
  simp only [Bool.not_eq_true', Bool.and_eq_false_iff, decide_eq_false_iff_not]
  omega

/-- Replacing a page touches only memory and the marks of poisoned lines. -/
theorem State.wrPage_frame (s : State) (key : Nat) (l : List (Nat × List Byte)) : ∃ m p, s.wrPage key l = { s with mem := m, tier := { s.tier with poison := p } } :=
  ⟨_, _, rfl⟩

/-- A context's store writes its bytes and keeps what stood there; nothing else of the state changes. -/
theorem State.storeAt_frame (s : State) (g key : Nat) (bs : List Byte) :
    s.storeAt g key bs = ((s.wr key bs).updSeat g (fun x => { x with writes := (key, s.rd key bs.length, bs) :: x.writes })) := rfl

/-- A context's store keeps the canonical form. -/
theorem State.storeAt_wf (s : State) (g key : Nat) (bs : List Byte) (h : Memory.wf s.mem = true) : Memory.wf (s.storeAt g key bs).mem = true :=
  memPut_wf bs key s.mem h

/-- What a byte reads after a context's store. -/
theorem State.storeAt_read (s : State) (g key : Nat) (bs : List Byte) (b : Nat) (h : Memory.wf s.mem = true) :
    memGet (s.storeAt g key bs).mem b = if key ≤ b ∧ b < key + bs.length then bs.getD (b - key) 0 else memGet s.mem b :=
  memGet_memPut bs key b s.mem h

end Sys2Proof.Machine
end

