-- ==== Sys2Proof/Laws/Translate.lean ====
section
/-!
SUPPORT. What address translation depends on: the page tables, and what their windows show: tenants, hands, requests and pipeline queries
(04 R114 to R117).
-/
namespace Sys2Proof.Machine

/-- Two states agree on everything that translation reads. -/
structure SameTables (s t : State) : Prop where
  pt : s.pt = t.pt
  tenants : s.tenants = t.tenants
  hands : s.hands = t.hands
  reqs : s.serving.reqs = t.serving.reqs
  pipes : s.pipes = t.pipes

theorem State.window_congr {s t : State} (h : SameTables s t) (n l va : Nat) : s.window n l va = t.window n l va := by
  simp only [State.window, State.potPage, State.tenant, h.tenants, h.hands, h.reqs, h.pipes]
  rfl

theorem State.ptEntry_congr {s t : State} (h : SameTables s t) (n l va : Nat) : s.ptEntry n l va = t.ptEntry n l va := by
  simp only [State.ptEntry, h.pt, State.window_congr h]

theorem State.walk_congr {s t : State} (h : SameTables s t) (n va l : Nat) : s.walk n va l = t.walk n va l := by
  induction l with
  | zero => simp only [State.walk, State.ptEntry_congr h]
  | succ l ih => simp only [State.walk, State.ptEntry_congr h, ih]

theorem State.xlat_congr {s t : State} (h : SameTables s t) (n : Nat) (stock : Bool) (acc : Access) (va : Nat) :
    s.xlat n stock acc va = t.xlat n stock acc va := by
  have ht : s.tenant n = t.tenant n := by simp only [State.tenant, h.tenants]
  simp only [State.xlat, State.walk_congr h, ht]

/-- A translation that succeeds gives a key of T1, of a pot or of host memory, at an address below 2^48. -/
theorem State.xlat_ok {s : State} {n : Nat} {stock : Bool} {acc : Access} {va k : Nat} (h : s.xlat n stock acc va = .ok k) :
    va < 2 ^ 48 ∧ (stock = false → bitAt va 47 = false) ∧ ∃ e sh, s.walk n va 3 = some (e, sh) ∧ entryAllows e.toNat acc = true := by
  unfold State.xlat at h
  split at h
  · cases h
  · rename_i h1
    split at h
    · cases h
    · rename_i h2
      refine ⟨by omega, fun hs => ?_, ?_⟩
      · subst hs
        cases hb : bitAt va 47
        · rfl
        · simp [hb] at h2
      · split at h
        · cases h
        · rename_i e sh hw
          refine ⟨e, sh, hw, ?_⟩
          cases ha : entryAllows e.toNat acc
          · simp [ha] at h
          · rfl

end Sys2Proof.Machine
end

