-- ==== Sys2Proof/Tests/Slice0.lean ====
section
/-!
SUPPORT. Tests: ill-formed commands are refused, words decode as the spec lays them out, small steps give the results the spec states, and for
each statement with hypotheses a concrete state and operands that meet them.
-/
namespace Sys2Proof.Machine

set_option Elab.async false

/-! ### Well-formedness: one ill-formed term for each check -/

theorem test_wf_seat : Iss.wf { seat := 176, ctx := 0, pg := 0 } = false := by decide
theorem test_wf_context : Iss.wf { seat := 0, ctx := 64, pg := 0 } = false := by decide
theorem test_wf_thread : Instr.wf (.nop { seat := 176, ctx := 0, pg := 0 }) = false ∧ Instr.wf (.nop { seat := 175, ctx := 63, pg := 7 }) = true := by
  decide
theorem test_wf_issue_ctx : IssueKey.wf { seat := 0, ctx := 64, ticket := 0 } = false := by decide
theorem test_wf_issue_ticket : IssueKey.wf { seat := 0, ctx := 0, ticket := 65536 } = false := by decide
theorem test_wf_query : QueryKey.wf { cmd := 0, idx := 64 } = false ∧ Instr.wf (.refine { cmd := 0, idx := 64 }) = false := by decide
theorem test_wf_reject : RejectOf.wf (.sqRead 64 0) = false ∧ RejectOf.wf (.cqWrite 0 16) = false ∧ RejectOf.wf (.work 9) = true := by decide
theorem test_wf_seat_events : ∀ i ∈ [Instr.dmaComplete 176 0 0 false, .dmaComplete 0 64 0 false, .matrixRunDone 176 false 0 0, .tileRerun 176 .none,
    .tileRepairOther 0 176 .none, .tvaLoadData 0 64, .parityRefetchDone 176 0, .seatClearDone 176, .steadyLoadWindow 176 0 0, .seatSaveDone 176],
    i.wf = false := by decide
theorem test_wf_numbers : ∀ i ∈ [Instr.trickBoundary 64, .registerWrite 0 3 0, .probePass 18 .agree 0, .farSegmentScore 64 0 0 .hard [.agree],
    .markWaitRelease 64 0, .epochPublish 64, .compactionDone 64 0, .deckCacheFill 128 0 false, .srvTWeightWrite 64 0, .embCheckpoint 256,
    .embCheckpointDone 256, .demandFetch 64 0, .fetchComplete 64 0 true, .dieFail 256, .dieRebuildDone 256, .evictionComplete 9 0,
    .dlrTLimitWrite 64 0], i.wf = false := by decide
theorem test_wf_units : ∀ i ∈ [Instr.coreWatchdog 2 0, .coreWatchdog 0 8, .clusterWatchdog 2, .clusterReady 2, .unitWatchdog 15,
    .channelLoss 128 true, .channelRehomeDone 128, .dieLoss 4, .bridgeRetrain 0 4, .pldmMonitorRead 14, .fatalError 0, .fatalError 6],
    i.wf = false := by decide
theorem test_wf_links : ∀ i ∈ [Instr.linkTrained 36 2 [], .linkTrained 0 3 [], .heartbeat 36 [], .data 36 [], .ctrl 36 [], .nak 36 [],
    .heartbeatTimeout 36, .laneFail 0 3, .spareTrained 36, .linkRetrainRetry 36 true, .retrainFail 36, .spareTrainFail 36, .knock 36,
    .peerLost 37, .leave 37], i.wf = false := by decide
theorem test_wf_host : ∀ i ∈ [Instr.msixVectorUnmask 2048, .sqTail 64 0 4 0, .sqTail 0 16 4 0, .cqHead 0 0 3 0, .tenantCtrl 64 4 0,
    .cxlLinkTrained .cxl31 1 0, .hostReject (.sqRead 64 0), .meldTopk { seat := 0, ctx := 64, ticket := 0 }], i.wf = false := by decide

/-! ### Decoding: words written out from the layouts of 04 R98 and the codes of 04 R100, R101 -/

/-- R: OP [31:26], D [25:21], A [20:16], PG [15:13], B [12:8], FN [7:0]. -/
theorem test_decode_sub : decodeThread 3 5 0b000000_00001_00010_001_00011_00000001 0
    = some (.addSubAndOrXor { seat := 3, ctx := 5, pg := 1 } .sub 1 2 3) := by decide
/-- I: IMM [12:0]. -/
theorem test_decode_addi : decodeThread 0 0 0b000001_00100_00101_000_1111111111111 0
    = some (.addiAndiOriXori { seat := 0, ctx := 0, pg := 0 } .addi 4 5 0x1FFF) := by decide
/-- M: SZ [12:11], OFF [10:0]. -/
theorem test_decode_st : decodeThread 0 0 0b010011_00001_00010_000_11_00000000101 0
    = some (.ldSt { seat := 0, ctx := 0, pg := 0 } true 3 1 2 5) := by decide
/-- L: OP 0x3E, the operation in [12:8], the immediate in the second word. -/
theorem test_decode_lih : decodeThread 0 0 0b111110_00111_00000_000_00001_00000000 0xDEADBEEF
    = some (.liLih { seat := 0, ctx := 0, pg := 0 } true 7 0xDEADBEEF) := by decide
theorem test_decode_vfma : decodeThread 0 0 0b110000_00001_00010_000_00011_01_000011 0
    = some (.vfma { seat := 0, ctx := 0, pg := 0 } .bf16 1 2 3) := by decide
theorem test_decode_hbar_init : decodeThread 0 0 0b011010_00000_00010_000_000000_011_0101 0
    = some (.hbarInit { seat := 0, ctx := 0, pg := 0 } 5 2) := by decide
theorem test_decode_mdrain : decodeThread 0 0 0b100000_00000_00010_000_00011_00000100 0
    = some (.mdrain { seat := 0, ctx := 0, pg := 0 } 2 3 .none) := by decide
theorem test_decode_reserved_op : decodeThread 0 0 0b111011_00000_00000_000_00000_00000000 0 = none := by decide
theorem test_decode_vector_register_16 : decodeThread 0 0 0b110000_10000_00000_000_00000_00_000000 0 = none := by decide
theorem test_decode_predicate_8 : decodeThread 0 0 0b001000_01000_00000_000_00000_00000000 0 = none := by decide
/-- The table gives its rows no bits. -/
theorem test_table_word : decodeTableWord 32 0 = none ∧ State.reset.withFetchWord 32 0 = State.reset := ⟨rfl, rfl⟩

/-! ### A running module with a thread -/

/-- A module after READY with every domain on. -/
def tUp : State :=
  { State.reset with power := { Power.initial .v9720 with phase := .running, ready := true, step := 7, domains := List.range 98 } }

def tIss : Iss := { seat := 0, ctx := 0, pg := 0 }

def tBarriers : List Barrier := List.replicate 16 { init := false, count := 0, phase := 0, arrived := 0 }

def tInv : Invocation :=
  { id := 0, tenant := 1, hand := 0, cmd := 0, model := 0, kernel := 0, stock := false, sbufBytes := 2097152, seats := [0], seatCount := 1
    barriers := tBarriers, fault := none, stop := none, saved := none, boundaries := 0, entry := 0, arg := 0 }

/-- s2 = 5, s3 = 7, s4 = 64, s5 = 2^64 - 1; the stream descriptor at 0. -/
def tCtx : Ctx :=
  { Ctx.idle with mode := .running, pc := 0x10000, stream := some 0
                  s := [0, 0, 5, 7, 64, 0xFFFFFFFFFFFFFFFF] ++ List.replicate 26 0 }

def tSeat : Seat := { Seat.cleared .dealt false with ctxs := [tCtx, .idle], inv := some 0 }

/-- A 2 MiB page at address 0: valid, a leaf, read, written, executed and atomic, present in T1. -/
def tPages : List (PtKey × Addr) :=
  [({ tenant := 1, level := 3, path := 0 }, 1), ({ tenant := 1, level := 2, path := 0 }, 1), ({ tenant := 1, level := 1, path := 0 }, 0x13F)]

/-- A module whose seat 0 runs context `k` over a memory. -/
def tOf (k : Ctx) (mem : List Host.Cell) : State :=
  { tUp with seats := [{ tSeat with ctxs := [k, .idle] }, tSeat], invs := [tInv], pt := tPages, mem := mem }

def tThr : State := tOf tCtx []

def tTh (k : Ctx) (ins : Instr) : Th := { at' := tIss, word := threadWord ins, len := threadLen ins, ctx := k, inv := tInv }

theorem t_ready (k : Ctx) (mem : List Host.Cell) (hm : k.mode = .running) (hw : k.wait = .none) :
    ((tOf k mem).up && (tOf k mem).powered (quadDomain 0) && ((tOf k mem).seat 0).mode = .dealt && !((tOf k mem).seat 0).clearing
      && !((tOf k mem).seat 0).saving && decide (0 < 64) && (((tOf k mem).seat 0).ctx 0).mode = .running
      && (((tOf k mem).seat 0).ctx 0).wait = .none) = true := by
  have h1 : ((tOf k mem).seat 0).ctx 0 = k := rfl
  have h2 : ((tOf k mem).up && (tOf k mem).powered (quadDomain 0) && ((tOf k mem).seat 0).mode = .dealt && !((tOf k mem).seat 0).clearing
      && !((tOf k mem).seat 0).saving && decide (0 < 64)) = true := rfl
  rw [h1, hm, hw, h2]
  rfl

theorem t_thread (k : Ctx) (mem : List Host.Cell) (hm : k.mode = .running) (hw : k.wait = .none) (w n : Nat) :
    (tOf k mem).thread tIss w n = some { at' := tIss, word := w, len := n, ctx := k, inv := tInv } :=
  if_pos (e := none) (t_ready k mem hm hw)

theorem t_fetch (k : Ctx) (mem : List Host.Cell) (n : Nat) (hn : n = 0x10000 ∨ n = 0x10004) : (tOf k mem).xlat 1 false .fetch n = .ok n :=
  (State.xlat_congr (s := tOf k mem) (t := tThr) ⟨rfl, rfl, rfl, rfl, rfl⟩ 1 false .fetch n).trans (by rcases hn with rfl | rfl <;> decide +kernel)

theorem witness_fetchable (k : Ctx) (mem : List Host.Cell) (ins : Instr) (hp : k.pc = 0x10000) : (tTh k ins).Fetchable (tOf k mem) := by
  have hn : (tTh k ins).ctx.pc.toNat = 0x10000 := congrArg BitVec.toNat hp
  unfold Th.Fetchable
  rw [hn]
  exact ⟨rfl, ⟨_, t_fetch k mem _ (.inl rfl)⟩, fun _ => ⟨_, t_fetch k mem _ (.inr rfl)⟩⟩

/-- Every legal instruction issues in such a state: the witness of the premises of the statements about thread instructions. -/
theorem witness_issues (k : Ctx) (mem : List Host.Cell) (ins : Instr) (ss vs : List (BitVec 5)) (hl : threadLegal ins = true)
    (hm : k.mode = .running) (hw : k.wait = .none) (hp : k.pc = 0x10000) (hb : k.blocked ss vs = false) :
    (tOf k mem).Issues ins tIss ss vs (tTh k ins) :=
  ⟨t_thread k mem hm hw _ _, hl, hb, witness_fetchable k mem ins hp⟩

theorem witness_enabled (ins : Instr) : (tTh tCtx ins).Enabled := by
  have h : bitAt (tCtx.rp 0).toNat 0 = true := by decide
  exact h

/-- The state and the issuing context after a command. -/
def tAfter (s : State) (ins : Instr) : State := s.after (exec ins s)
def tK (s : State) (ins : Instr) : Ctx := ((tAfter s ins).seat 0).ctx 0

/-! ### Scalar and control instructions (04 R99, R100, R104) -/

theorem test_sub_wraps : (tK tThr (.addSubAndOrXor tIss .sub 1 2 3)).rs 1 = 0xFFFFFFFFFFFFFFFE := by decide +kernel
theorem test_s0_takes_no_write : (tK tThr (.addSubAndOrXor tIss .add 0 2 3)).rs 0 = 0 := by decide +kernel
theorem test_mulhu : (tK tThr (.mulMulhu tIss true 1 5 5)).rs 1 = 0xFFFFFFFFFFFFFFFE := by decide +kernel
theorem test_divu_by_zero : (tK tThr (.divuRemu tIss false 1 2 0)).rs 1 = 0xFFFFFFFFFFFFFFFF ∧ (tK tThr (.divuRemu tIss true 1 2 0)).rs 1 = 5 := by decide +kernel
theorem test_shift_by_64_is_by_0 : (tK tThr (.shlShrSra tIss .shl 1 2 4)).rs 1 = 5 := by decide +kernel
theorem test_max_signed : (tK tThr (.minMaxMinuMaxu tIss .max 1 2 5)).rs 1 = 5 ∧ (tK tThr (.minMaxMinuMaxu tIss .maxu 1 2 5)).rs 1 = 0xFFFFFFFFFFFFFFFF := by decide +kernel
theorem test_addi_negative : (tK tThr (.addiAndiOriXori tIss .addi 1 2 0x1FFF)).rs 1 = 4 := by decide +kernel
theorem test_shli : (tK tThr (.shliShriSrai tIss .sra 1 5 63)).rs 1 = 0xFFFFFFFFFFFFFFFF := by decide +kernel
theorem test_lih_keeps_low : (tK tThr (.liLih tIss true 2 0xDEADBEEF)).rs 2 = 0xDEADBEEF00000005 := by decide +kernel
theorem test_li_sign : (tK tThr (.liLih tIss false 1 0x80000000)).rs 1 = 0xFFFFFFFF80000000 ∧ (tK tThr (.liLih tIss false 1 1)).pc = 0x10008 := by decide +kernel
theorem test_addl : (tK tThr (.addl tIss 1 2 0xFFFFFFFF)).rs 1 = 4 := by decide +kernel
theorem test_cmp_ltu : (tK tThr (.cmp tIss .ltu 1 2 5)).rp 1 = 0xFFFFFFFF ∧ (tK tThr (.cmp tIss .lt 1 2 5)).rp 1 = 0 := by decide +kernel
theorem test_br_back : (tK tThr (.br tIss 0x1FFF)).pc = 0xFFFC ∧ (tK tThr (.brl tIss 2)).pc = 0x10008 := by decide +kernel
theorem test_jal_reads_before_writing : (tK tThr (.jal tIss 4 4 1)).pc = 68 ∧ (tK tThr (.jal tIss 4 4 1)).rs 4 = 0x10004 ∧ (tK tThr (.jr tIss 4)).pc = 64 := by decide +kernel
theorem test_predicates : (tK tThr (.pnot tIss 1 1)).rp 1 = 0xFFFFFFFF ∧ (tK tThr (.pandPorPxor tIss .pxor 1 0 0)).rp 1 = 0
    ∧ (tK tThr (.pfromsPtos tIss true 1 0)).rs 1 = 0xFFFFFFFF := by decide +kernel
theorem test_csrr_tenant : (tK tThr (.csrr tIss 1 4)).rs 1 = 1 ∧ (tK tThr (.nop tIss)).pc = 0x10004 := by decide +kernel
theorem test_halt : (tK tThr (.halt tIss)).mode = .idle := by decide +kernel
theorem witness_tspawn_idle : (tThr.seat 0).idleCtxs ≠ [] ∧ 0 < tThr.seats.length ∧ 0 < (tThr.seat 0).ctxs.length := by decide +kernel

theorem witness_guard_off : ¬ Th.Enabled { tTh tCtx (.addSubAndOrXor { tIss with pg := 1 } .add 1 2 3) with at' := { tIss with pg := 1 } } := by
  have h : bitAt (tCtx.rp 1).toNat 0 = false := by decide +kernel
  intro g
  exact Bool.noConfusion (h.symm.trans g)
theorem witness_blocked : ({ tCtx with loads := [{ vec := false, dst := 2, val := 0 }] } : Ctx).blocked [1, 2, 3] [] = true
    ∧ ({ tCtx with loads := [{ vec := true, dst := 2, val := 0 }] } : Ctx).blocked [1, 2, 3] [] = false := by decide +kernel
theorem witness_not_ready : State.reset.thread tIss 0 4 = none := by decide +kernel
theorem witness_illegal : decodeThread 0 0 0xFFFFFFFF 0 = none := by decide +kernel
theorem test_illegal_faults : (tK tThr (.illegalEncoding tIss 0xFFFFFFFF 0)).mode = .faulted
    ∧ ((tAfter tThr (.illegalEncoding tIss 0xFFFFFFFF 0)).flt.kfault.map (fun r => (r.kind, r.instr, r.pc))) = some (1, 0xFFFFFFFF, 0x10000)
    ∧ (tAfter tThr (.illegalEncoding tIss 0xFFFFFFFF 0)).counter 0x000F0010 = 1 := by decide +kernel
theorem test_guard_off : (tK tThr (.addSubAndOrXor { tIss with pg := 1 } .add 1 2 3)).rs 1 = 0
    ∧ (tK tThr (.addSubAndOrXor { tIss with pg := 1 } .add 1 2 3)).pc = 0x10004 := by decide +kernel

/-! ### Memory instructions (04 R95, R96, R100, R106, R107, R122, R123) -/

/-- The bytes 0x11 to 0x18 at seat offset 64 of seat 0, and 0x80 and up at T1 address 64. -/
def tMem : List Host.Cell :=
  ((State.reset.wr ((Space.seat 0).key 64) [0x11, 0x12, 0x13, 0x14, 0x15, 0x16, 0x17, 0x18]).wr ((Space.t1 0).key 64)
    [0x80, 0x81, 0x82, 0x83, 0x84, 0x85, 0x86, 0x87]).mem

theorem witness_memory : (tOf tCtx tMem).Inv := by decide +kernel
theorem test_lds : (tK (tOf tCtx tMem) (.ldsSts tIss false 2 1 4 1)).rs 1 = 0x18171615 := by decide +kernel
theorem test_lds_misaligned : (tAfter tThr (.ldsSts tIss false 2 1 2 0)).flt.kfault.map (fun r => r.kind) = some 5 := by decide +kernel
theorem test_sts_past_end : (tAfter tThr (.ldsSts tIss true 3 2 5 0)).flt.kfault.map (fun r => r.kind) = some 5
    ∧ (tAfter tThr (.ldsSts tIss true 0 2 5 0)).flt.kfault.map (fun r => r.kind) = some 3 := by decide +kernel
theorem test_sts : (tAfter tThr (.ldsSts tIss true 1 5 4 0x7FF)).rd ((Space.seat 0).key 62) 4 = [0xFF, 0xFF, 0, 0] := by decide +kernel
theorem test_ld_arrives_later : (tK (tOf tCtx tMem) (.ldSt tIss false 2 1 4 0)).rs 1 = 0
    ∧ (tK (tAfter (tOf tCtx tMem) (.ldSt tIss false 2 1 4 0)) (.tvaLoadData 0 0)).rs 1 = 0x83828180 := by decide +kernel
theorem test_st : (tAfter (tOf tCtx tMem) (.ldSt tIss true 0 2 4 0)).rd 64 2 = [5, 0x81] := by decide +kernel
theorem test_amo_add : (tAfter (tOf tCtx tMem) (.amo tIss 0x10 1 4 2)).rd 64 4 = [0x85, 0x81, 0x82, 0x83]
    ∧ ((tK (tOf tCtx tMem) (.amo tIss 0x10 1 4 2)).loads.map (fun l => (l.dst, l.val))) = [(1, 0x83828180)] := by decide +kernel
theorem test_amo_min_signed : (tAfter (tOf tCtx tMem) (.amo tIss 0x01 1 4 2)).rd 64 4 = [0x80, 0x81, 0x82, 0x83]
    ∧ (tAfter (tOf tCtx tMem) (.amo tIss 0x03 1 4 2)).rd 64 4 = [5, 0, 0, 0] := by decide +kernel
theorem test_vst_lane_order : (tAfter (tOf { tCtx with v := (0x0000000200000001 : VReg) :: tCtx.v } []) (.vldVst tIss true 0 0 4 0)).rd 64 8
    = [1, 0, 0, 0, 2, 0, 0, 0] := by decide +kernel
theorem test_vlds : (tK (tOf tCtx tMem) (.vldsVsts tIss false 0 1 4 0)).rv 1 = 0x1817161514131211 := by decide +kernel
theorem test_fence : (tK tThr (.fenceAcq tIss)).pc = 0x10004 ∧ (tK tThr (.fenceSys tIss)).pc = 0x10004 := by decide +kernel

/-- A barrier with a count of 2, and a context that arrived for phase 1. -/
def tBar (arrived : Nat) : State :=
  { tThr with invs := [{ tInv with barriers := tBarriers.set 5 { init := true, count := 2, phase := 0, arrived := arrived } }] }

theorem test_hbar_init_bounds : (tAfter tThr (.hbarInit tIss 5 4)).flt.kfault = none
    ∧ ((tAfter tThr (.hbarInit tIss 5 4)).inv? 0).map (fun v => (v.barrier 5).count) = some 64
    ∧ (tAfter tThr (.hbarInit tIss 5 5)).flt.kfault.map (fun r => r.kind) = some 6 := by decide +kernel
theorem test_hbar_arrive : ((tAfter (tBar 0) (.hbarArrive tIss 5)).inv? 0).map (fun v => (v.barrier 5).arrived) = some 1
    ∧ (tK (tBar 0) (.hbarArrive tIss 5)).wait = .none := by decide +kernel
theorem test_hbar_sync_last : (tK (tBar 1) (.hbarSync tIss 5)).wait = .none
    ∧ ((tAfter (tBar 1) (.hbarSync tIss 5)).inv? 0).map (fun v => (v.barrier 5).phase) = some 1 := by decide +kernel
theorem test_hbar_sync_waits : (tK (tBar 0) (.hbarSync tIss 5)).wait = .barrier 5 1 := by decide +kernel
theorem test_hbar_wait_without_arrival : (tAfter (tBar 0) (.hbarWait tIss 5)).flt.kfault.map (fun r => r.kind) = some 6 := by decide +kernel

/-- A descriptor at seat offset 0: 64 bytes from seat offset 64 to seat offset 128. -/
def tDma : List Host.Cell :=
  ((State.reset.wr ((Space.seat 0).key 0) (leBytes 8 64 ++ leBytes 8 128 ++ leBytes 4 64)).wr ((Space.seat 0).key 64) [1, 2, 3]).mem

theorem test_dma_issues : ((tK (tOf tCtx tDma) (.dma tIss 1 0)).dmas.map (fun m => (m.ticket, m.src, m.dst, m.length))) = [(0, 64, 128, 64)]
    ∧ (tK (tOf tCtx tDma) (.dma tIss 1 0)).rs 1 = 0 := by decide +kernel
theorem test_dma_completes : (tAfter (tAfter (tOf tCtx tDma) (.dma tIss 1 0)) (.dmaComplete 0 0 0 false)).rd ((Space.seat 0).key 128) 4 = [1, 2, 3, 0]
    ∧ (tK (tAfter (tOf tCtx tDma) (.dma tIss 1 0)) (.dmaComplete 0 0 0 false)).dmas = [] := by decide +kernel
theorem test_dma_zero_length_faults : (tAfter tThr (.dma tIss 1 0)).flt.kfault.map (fun r => r.kind) = some 2 := by decide +kernel
theorem test_dtest : (tK (tAfter (tOf tCtx tDma) (.dma tIss 1 0)) (.dtest tIss 1 0)).rp 1 = 0 ∧ (tK tThr (.dtest tIss 1 0)).rp 1 = 0xFFFFFFFF := by
  decide +kernel
theorem test_dwait : (tK (tAfter (tOf tCtx tDma) (.dma tIss 1 0)) (.dwait tIss 0)).wait = .dma none ∧ (tK tThr (.dwait tIss 0)).wait = .none := by
  decide +kernel
/-- The premises of the statement about a DMA that completes. -/
theorem witness_dma_completes : let s := tAfter (tOf tCtx tDma) (.dma tIss 1 0)
    s.Inv ∧ (s.seat 0).inv = some 0 ∧ s.inv? 0 = some tInv ∧ 0 ∈ tInv.seats ∧ ((s.seat 0).ctx 0).mode = .running
      ∧ ((s.seat 0).ctx 0).wait ≠ .halt ∧ ((s.seat 0).ctx 0).dmas.find? (fun m => m.ticket == 0) = some (dmaOf 0 (s.rd ((Space.seat 0).key 0) 32))
      ∧ s.dmaRejected tInv 0 (dmaOf 0 (s.rd ((Space.seat 0).key 0) 32)) = false ∧ s.dmaPoisoned tInv 0 (dmaOf 0 (s.rd ((Space.seat 0).key 0) 32)) = false
      ∧ s.dmaBadWords tInv 0 (dmaOf 0 (s.rd ((Space.seat 0).key 0) 32)) = []
      ∧ (s.dmaTrouble 1 false 0 (dmaOf 0 (s.rd ((Space.seat 0).key 0) 32))).isNone = true
      ∧ (s.dmaBytes tInv 0 (dmaOf 0 (s.rd ((Space.seat 0).key 0) 32))).isSome = true := by decide +kernel
theorem witness_pc_off_4 : ({ tCtx with pc := 0x10002 } : Ctx).pc.toNat % 4 ≠ 0 := by decide

/-! ### The matrix array (02 R34 to R46, 03 R70 to R81, 04 R104, R105, R108) -/

/-- An INT8 run of one row and one column over K = 2: (3, -2) by (5, 7), which is 1. -/
def tDesc : List Byte :=
  leBytes 4 0x1000 ++ leBytes 4 0x2000 ++ leBytes 8 0 ++ leBytes 4 2 ++ leBytes 2 1 ++ leBytes 2 1 ++ [8, 8, 1, 1] ++ leBytes 4 0
    ++ leBytes 8 1 ++ leBytes 8 1 ++ leBytes 16 0

def tOperands : List Host.Cell :=
  (((State.reset.wr ((Space.seat 0).key 0) tDesc).wr ((Space.seat 0).key 0x1000) [3, 0xFE]).wr ((Space.seat 0).key 0x2000) [5, 7]).mem

/-- The run queued, and the run finished: a tile in the oldest accumulator set. -/
def tRun : State := tAfter (tOf tCtx tOperands) (.mrun tIss)
def tTile : State := tAfter tRun (.matrixRunDone 0 false 0 0)

/-- s3 = 0x10005: format 5, DSTRIDE 1. -/
def tDrainCtx : Ctx := { tCtx with s := tCtx.s.set 3 0x10005, pc := 0x10000 }
def tReady : State := tTile.updCtx 0 0 (fun _ => tDrainCtx)

theorem test_mrun_queues : (tRun.seat 0).queue.length = 1 ∧ (tK (tOf tCtx tOperands) (.mrun tIss)).pc = 0x10004 := by decide +kernel
theorem test_mrun_without_stream : (tAfter (tOf { tCtx with stream := none } []) (.mrun tIss)).flt.kfault.map (fun r => r.kind) = some 2 := by
  decide +kernel
theorem test_mrun_bad_descriptor : (tAfter tThr (.mrun tIss)).flt.kfault.map (fun r => r.kind) = some 2 := by decide +kernel
theorem test_run_fills_a_set : (tTile.seat 0).sets.length = 1 ∧ (tTile.seat 0).queue = [] ∧ tTile.counter 0x40018 = 2
    ∧ tTile.counter 0x40020 = 126 := by decide +kernel
theorem test_mdrain_writes : (tAfter tReady (.mdrain tIss 4 3 .none)).rd ((Space.seat 0).key 64) 5 = [1, 0, 0, 0, 0]
    ∧ ((tAfter tReady (.mdrain tIss 4 3 .none)).seat 0).sets = [] := by decide +kernel
theorem test_mdrain_upset_waits : (tK tReady (.mdrain tIss 4 3 .copies)).wait = .drain := by decide +kernel
theorem test_mwait : (tK tRun (.mwaitRun tIss)).wait = .matrix false ∧ (tK (tOf tCtx tOperands) (.mwaitAll tIss)).wait = .none := by decide +kernel

/-- The premises of the statement about runs that finish. -/
theorem witness_matrix_run : tRun.Inv ∧ (tRun.seat 0).inv = some 0 ∧ tRun.inv? 0 = some tInv ∧ 0 ∈ tInv.seats
    ∧ ((tRun.seat 0).ctx 0).mode = .running ∧ (tRun.seat 0).queue ≠ [] ∧ (tRun.seat 0).sets = [] ∧ (tRun.seat 0).repair = none := by
  decide +kernel
/-- The premises of the statement about drains, which passes without an upset and fails with one. -/
theorem witness_drain : tReady.Inv ∧ (drainOf 0 64 0x10005).isSome = true ∧ (tReady.seat 0).sets.length = 1 ∧ (tReady.seat 0).oldestDone = true
    ∧ (tReady.seat 0).repair = none ∧ (tReady.seat 0).sets.map (fun t => t.integer) = [true]
    ∧ (tReady.seat 0).sets.map (fun t => (tReady.judge 0 t .none).2.1) = [true]
    ∧ (tReady.seat 0).sets.map (fun t => (tReady.judge 0 t .copies).2.1) = [false] := by decide +kernel
/-- The tile under repair at a step, in a hand of two seats. -/
def tRepair (step : Nat) : State :=
  { tReady with
    hands := [{ Hand.none with valid := true, seats := [0, 1] }]
    seats := [{ tSeat with
      ctxs := [{ tDrainCtx with wait := .drain }, .idle]
      repair := ((tReady.seat 0).sets.head?).map (fun t => { tile := t, drain := (drainOf 0 64 0x10005).getD ⟨0, 0, 0, false, false, false, 0, 1⟩
                                                             step := step }) }, tSeat] }

/-- The premises of the statement about repairs: step 1, and step 2 with a mate in the hand. -/
theorem witness_repair : (tRepair 1).Inv ∧ (tRepair 1).inv? 0 = some tInv ∧ (tRepair 2).mayRepair 0 1 = true ∧ 1 < (tRepair 2).seats.length
    ∧ ((tRepair 1).seat 0).repair.map (fun r => ((tRepair 1).judge 0 r.tile .none).2.1) = some true
    ∧ ((tRepair 1).seat 0).repair.map (fun r => ((tRepair 1).judge 0 r.tile .copies).2.1) = some false := by decide +kernel
theorem test_tile_rerun : (tAfter (tRepair 1) (.tileRerun 0 .none)).rd ((Space.seat 0).key 64) 4 = [1, 0, 0, 0]
    ∧ (tAfter (tRepair 1) (.tileRerun 0 .none)).counter 0x61004 = 1 := by decide +kernel
theorem test_tile_on_another_seat : (tAfter (tRepair 2) (.tileRepairOther 0 1 .none)).rd ((Space.seat 0).key 64) 4 = [1, 0, 0, 0]
    ∧ (tAfter (tRepair 2) (.tileRepairOther 0 1 .none)).counter 0x6101C = 1 := by decide +kernel

/-- RELAYOUT of 2 by 3 bytes at 0x1000 with stride 1 to 0x2000. -/
def tRelayout : List Host.Cell :=
  (((State.reset.wr ((Space.seat 0).key 0) (leBytes 4 0x1000 ++ leBytes 4 0x2000 ++ leBytes 2 2 ++ leBytes 2 3 ++ [2, 0] ++ leBytes 2 1
    ++ leBytes 2 1 ++ leBytes 14 0)).wr ((Space.seat 0).key 0x1000) [1, 2, 3]).wr ((Space.seat 0).key 0x1040) [4, 5, 6]).mem

theorem test_relayout : (tAfter (tOf tCtx tRelayout) (.relayout tIss 0)).rd ((Space.seat 0).key 0x2000) 2 = [1, 4]
    ∧ (tAfter (tOf tCtx tRelayout) (.relayout tIss 0)).rd ((Space.seat 0).key 0x2080) 2 = [3, 6] := by decide +kernel
theorem witness_relayout : relayoutOk ((tOf tCtx tRelayout).rd ((Space.seat 0).key 0) 32) = true
    ∧ relayoutOk ((tOf tCtx []).rd ((Space.seat 0).key 0) 32) = false := by decide +kernel

/-- A seat-buffer line with a recorded source and a bad word. -/
def tBadLine : State :=
  { tOf tCtx tMem with seats := [{ tSeat with badWords := [132], dmaLines := [(2, 64)] }] }

theorem test_parity_refetch : (tAfter tBadLine (.parityRefetchDone 0 2)).rd ((Space.seat 0).key 128) 2 = [0x80, 0x81]
    ∧ ((tAfter tBadLine (.parityRefetchDone 0 2)).seat 0).badWords = [] := by decide +kernel
theorem witness_parity : tBadLine.Inv ∧ (tBadLine.seat 0).dmaLines.find? (fun x => x.1 == 2) = some (2, 64)
    ∧ (tBadLine.seat 0).badIn 128 64 ≠ [] := by decide +kernel

/-! ### Vector instructions (04 R99, R101) -/

/-- v0 holds binary32 1.0 in every lane, v1 2.0, v2 NaN in lane 0; p1 enables lanes 0 and 2. -/
def tVec : Ctx :=
  { tCtx with
    v := [BitVec.ofNat 512 (leNat ((List.range 16).flatMap (fun _ => leBytes 4 0x3F800000))),
          BitVec.ofNat 512 (leNat ((List.range 16).flatMap (fun _ => leBytes 4 0x40000000))), 0x7FC00000] ++ List.replicate 13 0
    p := (List.replicate 8 0).set 1 5 }
def tG : Iss := { tIss with pg := 1 }
def tLane (ins : Instr) (d l : Nat) : Nat := laneOf 32 ((tK (tOf tVec []) ins).rv d) l

theorem test_vadd : tLane (.vaddVsubVmul tIss .vadd .fp32 3 0 1) 3 15 = 0x40400000 := by decide +kernel
theorem test_vadd_int_wraps : tLane (.vaddVsubVmul tIss .vadd .int32 3 1 1) 3 0 = 0x80000000 := by decide +kernel
theorem test_vfma_under_guard : tLane (.vfma tG .fp32 1 0 0) 1 0 = 0x40400000 ∧ tLane (.vfma tG .fp32 1 0 0) 1 1 = 0x40000000 := by decide +kernel
theorem test_vdiv : tLane (.vdivVsqrt tIss false 3 0 1) 3 0 = 0x3F000000 ∧ tLane (.vdivVsqrt tIss true 3 1 0) 3 0 = 0x3FB504F3 := by decide +kernel
theorem test_vmax_nan : tLane (.vminVmax tIss true .fp32 3 2 0) 3 0 = 0x3F800000 := by decide +kernel
theorem test_vcmp_nan : (tK (tOf tVec []) (.vcmpeqVcmpltVcmple tIss .vcmple .fp32 2 2 0)).rp 2 = 0xFFFE := by decide +kernel
theorem test_vsel : tLane (.vsel tG .fp32 3 0 1) 3 0 = 0x3F800000 ∧ tLane (.vsel tG .fp32 3 0 1) 3 1 = 0x40000000 := by decide +kernel
theorem test_vshl : tLane (.vshlVsra tIss false 3 0 1) 3 0 = 0x3F800000 ∧ tLane (.vandVorVxor tIss .vxor .int32 3 0 1) 3 0 = 0x7F800000 := by
  decide +kernel
theorem test_vcvt : tLane (.vcvt tIss .int32 3 1) 3 0 = 2 ∧ tLane (.vcvt tIss .fp32 3 3) 3 0 = 0 := by decide +kernel
theorem test_vargmax : tLane (.vargmax tIss .fp32 3 1) 3 0 = 0 ∧ tLane (.vargmax tG .int32 3 3) 3 0 = 0 := by decide +kernel
theorem test_vredsum_int : tLane (.vredsumVredmaxVredmin tG .vredsum .int32 3 1) 3 0 = 0x80000000 := by decide +kernel
theorem test_vbcast : tLane (.vbcast tIss .int32 3 3) 3 9 = 7 ∧ (tK (tOf tVec []) (.vtos tIss .fp32 1 1 3)).rs 1 = 0x40000000 := by decide +kernel
theorem test_vwiden : tLane (.vwiden tIss 3 0 1) 3 0 = 0 ∧ tLane (.vwiden tIss 3 0 1) 3 1 = 0x3F800000 := by decide +kernel
theorem test_vnarrow : laneOf 16 ((tK (tOf tVec []) (.vnarrow tIss 3 1 1)).rv 3) 16 = 0x4000
    ∧ laneOf 16 ((tK (tOf tVec []) (.vnarrow tIss 3 1 1)).rv 3) 0 = 0 := by decide +kernel
theorem witness_pack_codes : packFmt 7 = none ∧ (packFmt 1).isSome = true ∧ mxExp 8 = none ∧ (mxExp 12).isSome = true := by decide +kernel
/-- Sixteen equal maxima: the lowest index; no lane that is a number: 0xFFFFFFFF. -/
theorem witness_vargmax : (∃ l ∈ (List.range 16).filter (fun l => bitAt 5 l), (laneVal .fp32 (laneOf 32 (tVec.rv 2) l)).isNan = false)
    ∧ (∀ l ∈ (List.range 16).filter (fun l => bitAt 1 l), (laneVal .fp32 (laneOf 32 (tVec.rv 2) l)).isNan = true) := by decide +kernel

/-! ### Registers (02 R61, 21 R540) -/

theorem witness_up : tUp.up = true ∧ tUp.fwRuns = true ∧ State.reset.up = false ∧ tUp.cxl.mode ≠ .pcie := by decide +kernel
theorem witness_registers : tUp.variant ≠ .v9706 ∧ tUp.flt.sLost = false
    ∧ (0x000 ∈ [0, 4, 8, 9, 10, 13, 19, 20] ∧ 0x9FFFC / 0x10000 ∈ [0, 4, 8, 9, 10, 13, 19, 20]) := by decide +kernel
theorem test_cap_write_bounds : (tAfter tUp (.pwrCapWrite 400)).power.capW = 400 ∧ (tAfter tUp (.pwrCapWrite 950)).power.capW = 950
    ∧ (tAfter tUp (.pwrCapWrite 399)).power.capErr = true ∧ (tAfter tUp (.pwrCapWrite 951)).power.capErr = true := by decide +kernel
theorem test_aud_ctrl_bounds : (tAfter tUp (.audCtrlWrite 10)).audCtrl.tolShift = 10 ∧ (tAfter tUp (.audCtrlWrite 11)).audCtrl.tolErr = true := by
  decide +kernel
theorem test_dlr_ctrl_bounds : (tAfter tUp (.dlrCtrlWrite 0x1015F)).dlr.trickKcyc = 351 ∧ (tAfter tUp (.dlrCtrlWrite 0x10160)).dlr.err = true
    ∧ (tAfter tUp (.dlrCtrlWrite 0x1001F)).dlr.err = true := by decide +kernel
theorem test_emb_ctrl_bounds : (tAfter tUp (.embCtrlWrite 12)).embed.sketchShift = 12 ∧ (tAfter tUp (.embCtrlWrite 25)).embed.err = true := by
  decide +kernel
theorem test_seat_mode_before_ready : tAfter State.reset (.pwrCapWrite 500) = State.reset := by rfl
theorem test_register_write_is_the_row : (tAfter tUp (.registerWrite 0x10000 4 500)).power.capW = 500
    ∧ (tAfter tUp (.registerWrite 0x10000 2 500)).power.capW = 950 ∧ (tAfter tUp (.registerWrite 0x10001 4 500)).power.capW = 950 := by decide +kernel
theorem test_register_write_8_bytes : (tAfter tUp (.registerWrite 0xB0000 8 0x0000030500000203)).serving.retry = 3
    ∧ (tAfter tUp (.registerWrite 0xB0000 8 0x0000030500000203)).serving.batchWait = 3 := by decide +kernel
theorem test_srv_spec_zero_is_refused : (tAfter tUp (.srvSpecWrite 0x100)).serving.specErr = true := by decide +kernel

/-- A counter pair that passed 2^32, with nothing latched. -/
def tPair : State := { tUp with ctr := [(0x20020, 0x500000007)] }

theorem witness_pair : tPair.powered 79 = true ∧ tPair.power.ready = true ∧ tPair.pair 0x20020 = some 0x500000007 ∧ sparseWf 0 0 tPair.latch = true := by
  decide +kernel
theorem test_counter_read : (tAfter tPair (.counterLoRead 0x20020)).reg false 0x20024 = 5 ∧ tPair.reg false 0x20020 = 7 := by decide +kernel
theorem test_status_registers : tUp.reg false 0x18 = 0x107 ∧ tUp.reg false 0x10000 = 0x03B603B6 ∧ tUp.reg false 0x40004 = 1
    ∧ tUp.reg false 0x45004 = 0 ∧ State.reset.reg false 0x20000 = 0xFFFFFFFF := by decide +kernel

/-! ### Completions and tenants (18) -/

def tParams (l : List (Nat × Nat × Nat)) : List Byte :=
  l.foldl (fun p x => p.take (x.1 - 16) ++ leBytes x.2.1 x.2.2 ++ p.drop (x.1 - 16 + x.2.1)) (List.replicate 112 0)

/-- A command in flight for tenant 1 with some parameter fields. -/
def tCmd (op : Nat) (l : List (Nat × Nat × Nat)) : Cmd :=
  { handle := 7, tenant := 1, queue := 0, cid := 0xAB, opcode := op, legacyOp := none, params := tParams l, recovered := false, snapshot := 0, stage := 0 }

def tQ : QPair := { QPair.new 0x10000 0x20000 16 16 false false with reserved := 1, cqTail := 15 }

def tTen : Tenant :=
  { Tenant.absent with live := true, pasid := 5, queues := (List.replicate 16 none).set 0 (some tQ), t1 := ⟨1000, 0⟩, t2 := ⟨1000, 0⟩ }

/-- A module with tenant 1, whose PASID the host maps, and one command in flight. -/
def tHost (c : Cmd) : State :=
  { tUp with
    tenants := State.reset.tenants.set 1 tTen, hostMap := [{ pasid := 5, base := 0, len := 2 ^ 40 }], cmds := [c]
    cxl := { State.reset.cxl with width := 16, configReady := true, memActive := true, activeGib := 16 } }

def tKey (a : Nat) : Nat := (Space.host 5).key a
def tOp (op : Nat) (l : List (Nat × Nat × Nat)) : State := tHost (tCmd op l)

/-- The premises of the statement about completions. -/
theorem witness_completion : let s := tOp 0x0604 []
    s.Inv ∧ s.cmd? 7 = some (tCmd 0x0604 []) ∧ s.queue 1 0 = some tQ ∧ (∀ j < 16, ∀ p ∈ s.queue 1 j, p.deleting = none)
      ∧ s.resolve 1 (tQ.cqBase.toNat + 32 * 15) 32 1 = some (tKey 0x201E0) ∧ s.poisoned (tKey 0x201E0) 32 = false
      ∧ 32 ∉ s.cxl.unmasked := by decide +kernel
theorem test_completion_turns_the_phase : let s := (tOp 0x0604 []).complete 7 St.ok 0 0x1234 0
    s.rd (tKey 0x201E0) 4 = [0xAB, 0, 0, 0] ∧ (s.queue 1 0).map (fun q => (q.cqTail, q.phase, q.reserved)) = some (0, false, 0) ∧ s.cmds.length = 0
      ∧ s.cxl.pendingVec = [32] := by decide +kernel
theorem test_budget_deposit : ((tAfter (tOp 0x0604 [(0x10, 4, 3), (0x14, 1, 1), (0x18, 4, 2)]) (.budgetDeposit 7)).account 1 3).balance = 512 := by
  decide +kernel
theorem witness_budget_bounds : (tOp 0x0604 [(0x10, 4, 65535)]).cmdAt 7 0x0604 0 = some (tCmd 0x0604 [(0x10, 4, 65535)])
    ∧ (tCmd 0x0604 [(0x10, 4, 65535)]).field 0x10 4 = 65535 ∧ (tCmd 0x0604 [(0x10, 4, 65536)]).field 0x10 4 = 65536 := by decide +kernel
theorem test_identify : let s := tOp 0x0102 [(0x10, 8, 0x100000)]
    s.resolve 1 0x100000 4096 64 = some (tKey 0x100000) ∧ (tAfter s (.identify 7)).cmds.length = 0 := by decide +kernel

/-- The admin pair's places for tenant 0 in PASID 5. -/
def tAdmin : State :=
  { tHost (tCmd 0 []) with
    tenants := State.reset.tenants, cmds := [], admin := { Admin.initial with sqBase := 0x1000, cqBase := 0x2000 } }

theorem witness_admin : tAdmin.up = true ∧ tAdmin.admin.enable = false ∧ (tAdmin.tenant 0).live = false ∧ tAdmin.tenants.length = 64
    ∧ tAdmin.pairOk 5 0x1000 0x2000 16 16 none = true ∧ tAdmin.pairOk 5 0x1000 0x2000 8 8 none = false := by decide +kernel
theorem test_admin_enable : (tAfter tAdmin (.cmdAdminCtrlWrite 0x84000005)).admin.active = true
    ∧ (tAfter tAdmin (.cmdAdminCtrlWrite 0x83000005)).admin.err = true := by decide +kernel
theorem witness_tenant_create : let s := { tOp 0x0201 [(0x11, 1, 2), (0x14, 4, 16), (0x18, 4, 6), (0x1C, 4, 160), (0x20, 8, 0x1000), (0x28, 8, 0x2000)]
      with hostMap := [{ pasid := 6, base := 0, len := 2 ^ 40 }] }
    (s.cmdAt 7 0x0201 0).isSome = true ∧ (s.tenant 2).live = false ∧ (s.tenant 2).reset = none ∧ (∀ x ∈ s.tenants, x.live = true → x.pasid ≠ 6)
      ∧ s.pairOk 6 0x1000 0x2000 16 16 (some 0) = true ∧ ((tAfter s (.tenantCreate 7)).tenant 2).live = true := by decide +kernel
theorem witness_tenant_reset : let s := tOp 0x0202 [(0x11, 1, 1)]
    (s.cmdAt 7 0x0202 0).isSome = true ∧ (s.tenant 1).live = true ∧ (tAfter s (.tenantReset 7)).generation (holderId 7 1) = 1 := by decide +kernel
theorem witness_queue_create : let s := tOp 0x0203 [(0x10, 1, 15), (0x14, 4, 16), (0x18, 4, 32), (0x20, 8, 0x30000), (0x28, 8, 0x40000)]
    (s.cmdAt 7 0x0203 0).isSome = true ∧ s.queue 1 15 = none ∧ s.pairOk 5 0x30000 0x40000 16 32 (some 0) = true
      ∧ ((tAfter s (.queueCreate 7)).queue 1 15).map (fun q => q.cqEntries) = some 32 := by decide +kernel
theorem witness_cfg_commit : (tOp 0x0103 [(0x10, 1, 1)]).cmdAt 7 0x0103 0 = some (tCmd 0x0103 [(0x10, 1, 1)])
    ∧ (tAfter (tOp 0x0103 [(0x10, 1, 1)]) (.cfgCommit 7 .done)).power.commits = 1 := by decide +kernel
theorem witness_fold : let s := { tHost { tCmd 0x0101 [] with tenant := 0 } with tenants := State.reset.tenants }
    (s.cmdAt 7 0x0101 0).isSome = true ∧ (∀ t < 64, 1 ≤ t → (s.tenant t).live = false) ∧ s.cell.actEnable = false
      ∧ (tAfter s (.fold 7)).power.phase = .fold ∧ (tAfter (tOp 0x0101 []) (.fold 7)).power.phase = .running := by decide +kernel
theorem witness_legacy : (tHost { tCmd 0x0801 [] with legacyOp := some 0x21 }).mediaBlocked { tCmd 0x0801 [] with legacyOp := some 0x21 } = false
    ∧ (tHost { tCmd 0x0402 [] with legacyOp := some 0x11 }).epochBlocked { tCmd 0x0402 [] with legacyOp := some 0x11 } = false
    ∧ (tHost { tCmd 0x0102 [(0x10, 8, 0x100000)] with legacyOp := some 1 }).resolve 1 0x100000 4096 64 = some (tKey 0x100000) := by decide +kernel

/-! ### Doorbells and intake (18 R470, R475 to R478) -/

/-- One entry, NOP-like, at index 0 of tenant 1's queue: GEN_CANCEL with its CID. -/
def tEntry : List Byte := leBytes 2 0x0603 ++ leBytes 2 0 ++ leBytes 4 0xAB ++ List.replicate 120 0
def tSq : State :=
  { tHost (tCmd 0 []) with
    tenants := State.reset.tenants.set 1 { tTen with queues := tTen.queues.set 0 (some { tQ with sqTail := 1, cqHead := 15, reserved := 0 }) }
    cmds := [], mem := (State.reset.wr (tKey 0x10000) tEntry).mem }

theorem test_sq_tail : ((tAfter tSq (.sqTail 1 0 4 15)).queue 1 0).map (fun q => q.sqTail) = some 15
    ∧ (tAfter tSq (.sqTail 1 0 4 16)).counter 0x20028 = 1 ∧ (tAfter tSq (.sqTail 1 0 8 1)).counter 0x20028 = 1
    ∧ ((tAfter tSq (.cqHead 1 0 4 15)).queue 1 0).map (fun q => q.cqHead) = some 15 := by decide +kernel
theorem test_tenant_ctrl : (tAfter tSq (.tenantCtrl 1 4 1)).generation (holderId 7 1) = 1 := by decide +kernel
theorem witness_intake : tSq.nextTurn = some (1, 0) ∧ tUp.nextTurn = none ∧ tSq.resolve 1 0x10000 128 1 = some (tKey 0x10000)
    ∧ tSq.poisoned (tKey 0x10000) 128 = false ∧ (tSq.queue 1 0).map (fun q => q.freeSlots) = some 15
    ∧ tSq.intakeStatus (tSq.entryCmd 1 0 { tQ with sqTail := 1, cqHead := 15, reserved := 0 } tEntry) tEntry = none := by decide +kernel
theorem test_intake : (tAfter tSq .intake).cmds.map (fun c => (c.opcode, c.cid)) = [(0x0603, 0xAB)]
    ∧ ((tAfter tSq .intake).queue 1 0).map (fun q => (q.sqHead, q.reserved)) = some (1, 1) := by decide +kernel
theorem witness_bad_entries : headClean false (0 :: 0 :: 8 :: tEntry) = false ∧ headClean false tEntry = true ∧ opLayout 0xFFFF = none
    ∧ (opLayout 0x0201).isSome = true ∧ 0x0201 ∈ adminOnly := by decide +kernel

/-! ### The least deck: the 256 byte tokens (08 R197 to R200) -/

def tNodeBytes (n : Nat) : List Byte :=
  if n = 0 then leBytes 4 0 ++ leBytes 4 1 ++ leBytes 2 256 ++ [0, 1, 0, 255, 0, 0]
  else leBytes 4 (2 ^ 31 + (n - 1)) ++ leBytes 6 0 ++ [BitVec.ofNat 8 (n - 1), 0, 0, 0, 0, 0]
def tTokenBytes (i : Nat) : List Byte := leBytes 4 i ++ [1, 0, 0, 0]
def tHeader : List Byte :=
  leBytes 4 0x4B434544 ++ leBytes 2 1 ++ leBytes 2 0 ++ leBytes 4 256 ++ leBytes 4 257 ++ leBytes 4 256 ++ leBytes 20 0
    ++ leBytes 8 64 ++ leBytes 8 4224 ++ leBytes 8 6272
def tTable : List Byte := (List.range 256).flatMap tTokenBytes ++ (List.range 256).map (BitVec.ofNat 8)
def tBody : List Byte := (List.range 257).flatMap tNodeBytes ++ (leBytes 48 0 ++ tTable)
def tDeckImage : List Byte := tHeader ++ tBody

theorem leBytes_length : ∀ (n v : Nat), (leBytes n v).length = n
  | 0, _ => rfl
  | n + 1, v => by simp [leBytes, leBytes_length n]

theorem t_nodes_length : ((List.range 257).flatMap tNodeBytes).length = 4112 := by decide +kernel
theorem t_tokens_length : ((List.range 256).flatMap tTokenBytes).length = 2048 := by decide +kernel

theorem t_node_chunk (n : Nat) (h : n < 257) : (tDeckImage.drop (64 + 16 * n)).take 16 = tNodeBytes n := by
  unfold tDeckImage
  rw [drop_prefix tHeader tBody 64 (16 * n) (by decide +kernel)]
  exact chunk_flatMap tNodeBytes 16 (by intro i; unfold tNodeBytes; split <;> simp [leBytes_length]) _ _ n n (by simp [h])

theorem t_table_at (k : Nat) : tDeckImage.drop (4224 + k) = tTable.drop k := by
  unfold tDeckImage tBody
  rw [show 4224 + k = 64 + (4112 + (48 + k)) by omega, drop_prefix tHeader _ 64 _ (by decide +kernel),
    drop_prefix _ _ 4112 _ t_nodes_length, drop_prefix _ _ 48 _ (by rfl)]

theorem t_token_chunk (i : Nat) (h : i < 256) : (tDeckImage.drop (4224 + 8 * i)).take 8 = tTokenBytes i := by
  rw [t_table_at]
  exact chunk_flatMap tTokenBytes 8 (by intro i; simp [tTokenBytes, leBytes_length]) _ _ i i (by simp [h])

theorem t_pool (i : Nat) (h : i < 256) : (tDeckImage.drop (6272 + i)).take 1 = [BitVec.ofNat 8 i] := by
  rw [show 6272 + i = 4224 + (2048 + i) by omega, t_table_at]
  unfold tTable
  rw [drop_prefix _ _ 2048 _ t_tokens_length]
  have := chunk_flatMap (fun i => [BitVec.ofNat 8 i]) 1 (fun _ => rfl) ([] : List Byte) (List.range 256) i i (by simp [h])
  rw [List.append_nil, Nat.one_mul] at this
  rw [List.map_eq_flatMap]
  exact this

theorem t_header (n k : Nat) (h : n + k ≤ 64) : fieldOf tDeckImage n k = fieldOf tHeader n k := by
  have h2 : (tDeckImage.drop 0).take 64 = tHeader := by
    unfold tDeckImage
    have : tHeader.length = 64 := by decide +kernel
    rw [List.drop_zero, ← this, List.take_left]
  have := fieldOf_chunk h2 n k h
  simpa using this

theorem t_header_fields : deckVocab tDeckImage = 256 ∧ deckNodes tDeckImage = 257 ∧ deckPoolBytes tDeckImage = 256 ∧ deckNodesOff tDeckImage = 64
    ∧ deckTableOff tDeckImage = 4224 ∧ deckPoolOff tDeckImage = 6272 := by
  unfold deckVocab deckNodes deckPoolBytes deckNodesOff deckTableOff deckPoolOff
  rw [t_header 8 4 (by decide), t_header 0xC 4 (by decide), t_header 0x10 4 (by decide), t_header 0x28 8 (by decide),
    t_header 0x30 8 (by decide), t_header 0x38 8 (by decide)]
  decide +kernel

theorem t_image_length : tDeckImage.length = 6528 := by decide +kernel

/-- Node `n` of the least deck. -/
def tNode (n : Nat) : TrieNode :=
  if n = 0 then { token := none, first := 1, nchild := 256, label := 0, dense := true, lo := 0, hi := 255 }
  else { token := some (n - 1), first := 0, nchild := 0, label := n - 1, dense := false, lo := 0, hi := 0 }

def tNodeOf (b : List Byte) : TrieNode :=
  let t := fieldOf b 0 4
  { token := if bitAt t 31 then some (t % 2 ^ 20) else none, first := fieldOf b 4 4, nchild := fieldOf b 8 2,
    label := fieldOf b 0xA 1, dense := bitAt (fieldOf b 0xB 1) 0, lo := fieldOf b 0xC 1, hi := fieldOf b 0xD 1 }

theorem t_node_of : ∀ n < 257, tNodeOf (tNodeBytes n) = tNode n := by decide +kernel

theorem t_node (n : Nat) (h : n < 257) : deckNode tDeckImage n = tNode n := by
  rw [← t_node_of n h, ← t_node_chunk n h]
  unfold deckNode
  rw [t_header_fields.2.2.2.1]
  rfl

theorem t_nodes : (List.range 257).map (deckNode tDeckImage) = (List.range 257).map tNode :=
  List.map_congr_left (fun n h => t_node n (List.mem_range.mp h))

theorem t_token_bytes (i : Nat) (h : i < 256) : tokenBytes tDeckImage i = [BitVec.ofNat 8 i] ∧ tokenSpecial tDeckImage i = false := by
  have e : ∀ i < 256, fieldOf (tTokenBytes i) 0 4 = i ∧ fieldOf (tTokenBytes i) 4 1 = 1 ∧ bitAt (fieldOf (tTokenBytes i) 5 1) 0 = false := by
    decide +kernel
  have c := t_token_chunk i h
  have f (k m : Nat) (hk : k + m ≤ 8) : fieldOf tDeckImage (4224 + 8 * i + k) m = fieldOf (tTokenBytes i) k m := fieldOf_chunk c k m hk
  have f0 := f 0 4 (by omega)
  rw [Nat.add_zero] at f0
  unfold tokenBytes tokenSpecial
  rw [t_header_fields.2.2.2.2.1, t_header_fields.2.2.2.2.2, f0, f 4 1 (by omega), f 5 1 (by omega), (e i h).1, (e i h).2.1, (e i h).2.2]
  exact ⟨t_pool i h, rfl⟩

theorem t_deck_header : deckHeaderOk tDeckImage = true := by
  obtain ⟨a, b, c, d, e, f⟩ := t_header_fields
  have z : zeroRange tDeckImage 0x14 20 = true := by decide +kernel
  unfold deckHeaderOk
  rw [a, b, c, d, e, f, z, t_image_length, t_header 0 4 (by omega), t_header 4 2 (by omega), t_header 6 2 (by omega)]
  decide +kernel

theorem t_deck_entries : deckEntriesOk tDeckImage = true := by
  obtain ⟨a, b, c, d, e, f⟩ := t_header_fields
  unfold deckEntriesOk
  rw [a, b, c, d, e, Bool.and_eq_true, List.all_eq_true, List.all_eq_true]
  constructor
  · intro n hn
    have h := List.mem_range.mp hn
    have g (k m : Nat) (hk : k + m ≤ 16) : fieldOf tDeckImage (64 + 16 * n + k) m = fieldOf (tNodeBytes n) k m :=
      fieldOf_chunk (t_node_chunk n h) k m hk
    have g0 := g 0 4 (by omega)
    rw [Nat.add_zero] at g0
    show (bits (fieldOf tDeckImage (64 + 16 * n) 4) 30 20 == 0 && decide (fieldOf tDeckImage (64 + 16 * n + 8) 2 ≤ 256)
      && decide (fieldOf tDeckImage (64 + 16 * n + 0xB) 1 < 2) && fieldOf tDeckImage (64 + 16 * n + 0xE) 2 == 0) = true
    rw [g0, g 8 2 (by omega), g 0xB 1 (by omega), g 0xE 2 (by omega)]
    have all : ∀ n < 257, (bits (fieldOf (tNodeBytes n) 0 4) 30 20 == 0 && decide (fieldOf (tNodeBytes n) 8 2 ≤ 256)
      && decide (fieldOf (tNodeBytes n) 0xB 1 < 2) && fieldOf (tNodeBytes n) 0xE 2 == 0) = true := by decide +kernel
    exact all n h
  · intro n hn
    have h := List.mem_range.mp hn
    have g (k m : Nat) (hk : k + m ≤ 8) : fieldOf tDeckImage (4224 + 8 * n + k) m = fieldOf (tTokenBytes n) k m :=
      fieldOf_chunk (t_token_chunk n h) k m hk
    have g0 := g 0 4 (by omega)
    rw [Nat.add_zero] at g0
    show (decide (fieldOf tDeckImage (4224 + 8 * n + 4) 1 ≤ 128) && decide (fieldOf tDeckImage (4224 + 8 * n + 5) 1 < 2)
      && fieldOf tDeckImage (4224 + 8 * n + 6) 2 == 0
      && decide (fieldOf tDeckImage (4224 + 8 * n) 4 + fieldOf tDeckImage (4224 + 8 * n + 4) 1 ≤ 256)) = true
    rw [g0, g 4 1 (by omega), g 5 1 (by omega), g 6 2 (by omega)]
    have all : ∀ n < 256, (decide (fieldOf (tTokenBytes n) 4 1 ≤ 128) && decide (fieldOf (tTokenBytes n) 5 1 < 2)
      && fieldOf (tTokenBytes n) 6 2 == 0 && decide (fieldOf (tTokenBytes n) 0 4 + fieldOf (tTokenBytes n) 4 1 ≤ 256)) = true := by decide +kernel
    exact all n h

theorem filterMap_agree {α β : Type} (f g : α → Option β) : ∀ (l : List α), (∀ x ∈ l, f x = g x) → l.filterMap f = l.filterMap g
  | [], _ => rfl
  | y :: l, h => by
    rw [List.filterMap_cons, List.filterMap_cons, h y List.mem_cons_self,
      filterMap_agree f g l (fun x hx => h x (List.mem_cons_of_mem _ hx))]

theorem t_paths : deckPaths tDeckImage = [] :: (List.range 256).map (fun i => [BitVec.ofNat 8 i]) := by
  unfold deckPaths
  rw [t_header_fields.2.1, t_nodes, t_node 0 (by decide)]
  decide +kernel

theorem t_deck_trie : deckTrieOk tDeckImage = true := by
  have kids : (List.range 256).all (fun i => (deckNode tDeckImage (i + 1)).label == i && (deckNode tDeckImage (i + 1)).token.isSome) = true := by
    rw [List.all_eq_true]
    intro i hi
    have h := List.mem_range.mp hi
    rw [t_node (i + 1) (by omega)]
    have all : ∀ i < 256, ((tNode (i + 1)).label == i && (tNode (i + 1)).token.isSome) = true := by decide +kernel
    exact all i h
  unfold deckTrieOk
  rw [t_header_fields.2.1, t_nodes, t_node 0 (by decide), t_paths, kids]
  decide +kernel

theorem t_deck_tokens : deckTokensOk tDeckImage = true := by
  have owned : ((List.range 257).zip (deckPaths tDeckImage)).filterMap (fun x => (deckNode tDeckImage x.1).token.map (fun t => (t, x.2)))
      = (List.range 256).map (fun i => (i, [BitVec.ofNat 8 i])) := by
    rw [t_paths]
    have e : ((List.range 257).zip ([] :: (List.range 256).map (fun i => [BitVec.ofNat 8 i]))).filterMap
          (fun x => (deckNode tDeckImage x.1).token.map (fun t => (t, x.2)))
        = ((List.range 257).zip ([] :: (List.range 256).map (fun i => [BitVec.ofNat 8 i]))).filterMap
          (fun x => (tNode x.1).token.map (fun t => (t, x.2))) := by
      refine filterMap_agree _ _ _ (fun x hx => ?_)
      rw [t_node x.1 (List.mem_range.mp (List.of_mem_zip hx).1)]
    rw [e]
    decide +kernel
  unfold deckTokensOk
  rw [t_header_fields.2.1, owned, t_header_fields.1]
  have tail : (List.range 256).all (fun i => has (fun x => x.1 == i) ((List.range 256).map (fun i => (i, [BitVec.ofNat 8 i])))
      || tokenSpecial tDeckImage i) = true := by
    rw [List.all_eq_true]
    intro i hi
    have all : ∀ i < 256, has (fun x : Nat × List Byte => x.1 == i) ((List.range 256).map (fun i => (i, [BitVec.ofNat 8 i]))) = true := by
      decide +kernel
    rw [all i (List.mem_range.mp hi)]
    rfl
  have each : ((List.range 256).map (fun i => (i, [BitVec.ofNat 8 i]))).all (fun x => decide (x.1 < 256) && !tokenSpecial tDeckImage x.1
      && tokenBytes tDeckImage x.1 == x.2) = true := by
    rw [List.all_eq_true]
    intro x hx
    obtain ⟨i, hi, rfl⟩ := List.mem_map.mp hx
    have h := List.mem_range.mp hi
    obtain ⟨b1, b2⟩ := t_token_bytes i h
    simp [b1, b2, h]
  have nodup : decide ((dedup (((List.range 256).map (fun i => (i, ([BitVec.ofNat 8 i] : List Byte)))).map (fun x => x.1))).length
      = ((List.range 256).map (fun i => (i, ([BitVec.ofNat 8 i] : List Byte)))).length) = true := by decide +kernel
  simp only [nodup, each, tail, Bool.and_self]

/-- A deck that passes every check of MODEL_LOAD. -/
theorem witness_deck : deckOk tDeckImage = true := by
  unfold deckOk
  rw [t_deck_header, t_deck_entries, t_deck_trie, t_deck_tokens]
  rfl

/-- The premises of the statement about whole texts. -/
theorem witness_tokenizer : let d : Deck := { number := 3, tenant := 1, image := tDeckImage, fffd := [0xEF, 0xBF, 0xBD], va := 0, t1Bytes := 0, evicting := none }
    deckOk d.image = true ∧ d.fffd ≠ [] := ⟨witness_deck, by decide⟩
theorem test_longest_match : deckChild tDeckImage (deckNode tDeckImage 0) 65 = some 66 ∧ (deckNode tDeckImage 66).token = some 65 := by
  rw [t_node 0 (by decide), t_node 66 (by decide)]
  decide +kernel

/-! ### Search (05) -/

def tDesc05 : CollDesc :=
  { dim := 4, metric := 0, subbits := 8, codeBytes := 4, spill := false, vecT1 := true, projDim := 0, l1Count := 1, l2PerCell := 2, nprobeMax := 2
    nprobeDef := 1, l1Probe := 1, kRefine := 8, farLimit := 5, maxWait := 0, embedModel := 0, t1ListBytes := 65536 }
def tItem : Item :=
  { serial := 0, id := 77, epoch := 1, vec := [0, 0, 0, 0], text := [65, 66], tokens := [65, 66], deck := 3, marks := [2], fingerprint := 5, lists := [0] }
def tSeg : Segment := { entries := [{ id := 77, attr := 0, code := [0, 0, 0, 0] }], marks := [(1, 0)] }
def tList : LList :=
  { number := 0, place := .t1, visits := 7, segs := [tSeg], tombs := [{ pos := 0, epoch := 2 }], tombCap := 4096, openTail := false, rewriting := some { t1 := 0, t2 := 0, draw := 0 } }
def tColl : Collection :=
  { number := 9, tenant := 1, desc := tDesc05, image := [], lists := [tList], items := [tItem], published := 2, nextEpoch := 4
    epochs := [{ number := 3, cmd := 7, written := true, count := 1, status := 0 }]
    appends := [], compacting := [0, 1], compactCmds := [7], compactSkipped := false, evicting := none, va := 0, t1Bytes := 0, nextItem := 1 }
def tQuery (stage : Nat) : Query :=
  { key := { cmd := 7, idx := 0 }, tenant := 1, coll := 9, issue := none, vec := [0, 0, 0, 0], filter := [], k := 2, nprobe := 1, maxWait := 0
    widen := false, refine := true, exact := false, full := false, snapshot := 2, ranking := [], probes := [0], probed := 1, round := 0
    partials := [(0, { entries := [{ key := 0, index := 77, source := 0 }], ties := 0 })], farLate := 0, late := false, duplicates := 0, unsent := []
    merged := [{ key := 0, index := 77, source := 0 }], tiesLeft := 0, stage := stage, status := 0, recovered := false, hand := none }
def tPass : Pass :=
  { batch := 0, exact := false, coll := 9, list := 0, cached := false, segs := [tSeg], base := 0, tombs := [], queries := [{ cmd := 7, idx := 0 }] }
def tFar : FarJob :=
  { batch := 0, exact := false, coll := 9, list := 0, seg := 0, lpn := 40, channel := 5, content := tSeg, base := 0, tombs := [], queries := [{ cmd := 7, idx := 0 }] }
def tBatch : Batch := { queries := [{ cmd := 7, idx := 0 }], window := 500, batchMax := 2 }

/-- The search unit with two queries of command 7 at a stage, and some batches. -/
def tSearch (stage : Nat) (z : Search → Search) : State :=
  let s := tOp 0x0401 []
  { s with colls := [tColl], search := z { s.search with queries := [tQuery stage, { tQuery 2 with key := { cmd := 7, idx := 1 } }] } }

theorem witness_srch_query : let c := tCmd 0x0401 [(0x10, 2, 9), (0x14, 2, 4096), (0x18, 2, 2000), (0x1B, 1, 64), (0x20, 8, 0x1000), (0x38, 8, 0x100000)]
    let s := { tHost c with colls := [tColl] }
    s.cmdAt 7 0x0401 0 = some c ∧ s.collFor 1 7 9 = some tColl ∧ c.field 0x1B 1 = 64 ∧ s.resolve 1 0x1000 1024 4 = some (tKey 0x1000)
      ∧ s.resolve 1 0x100000 (resultSize 4096 * 64) 8 = some (tKey 0x100000) ∧ s.filterFor 1 0 = .inl [] ∧ s.searchTrouble tColl 4096 0 2000 false = none
      ∧ s.poisoned (tKey 0x1000) 1024 = false ∧ s.seatSearch = false ∧ s.searchTrouble tColl 4097 0 0 false = some St.badParam := by decide +kernel
theorem test_srch_query : let s := { tHost (tCmd 0x0401 [(0x10, 2, 9), (0x14, 2, 1), (0x1B, 1, 2), (0x20, 8, 0x1000), (0x38, 8, 0x100000)]) with colls := [tColl] }
    (tAfter s (.srchQuery 7)).search.queries.map (fun q => (q.key.idx, q.k, q.stage)) = [(0, 1, 0), (1, 1, 0)] := by decide +kernel
theorem witness_coarse : (tSearch 0 id).query? { cmd := 7, idx := 0 } = some (tQuery 0) ∧ (tSearch 0 id).coll? 9 = some tColl
    ∧ (tDesc05.prepare 0 (tQuery 0).values).isSome = true ∧ (tSearch 0 id).queryHand (tQuery 0) = true ∧ (tSearch 0 id).collCheck (tQuery 0) tColl = .ok
    ∧ (tSearch 0 id).queryHand { tQuery 0 with hand := some 3 } = false := by decide +kernel
theorem test_probe_set_joins : (tAfter (tSearch 1 id) (.probeSetArrive { cmd := 7, idx := 0 })).search.collecting.map (fun b => b.queries.length) = some 1
    ∧ (tAfter (tSearch 1 (fun z => { z with window := 0 })) (.probeSetArrive { cmd := 7, idx := 0 })).search.closed.length = 1
    ∧ (tAfter (tSearch 1 (fun z => { z with collecting := some { tBatch with batchMax := 2 } }))
        (.probeSetArrive { cmd := 7, idx := 0 })).search.closed.length = 1
    ∧ (tAfter (tSearch 1 (fun z => { z with closed := List.replicate 4 tBatch })) (.probeSetArrive { cmd := 7, idx := 0 })).search.stalled.length = 1 := by
  decide +kernel
theorem test_batch_close : (tAfter (tSearch 1 (fun z => { z with collecting := some tBatch })) (.batchClose .window)).search.closed = [tBatch] := by
  decide +kernel
theorem witness_batch_start : let s := tSearch 2 (fun z => { z with closed := [tBatch] })
    s.search.closed = [tBatch] ∧ s.search.stalled = [] ∧ s.seatSearch = false ∧ (∃ e ∈ s.search.engines, e.mode = .active ∧ e.work = [])
      ∧ (s.colls.map (fun x => x.number)).Nodup ∧ ∀ x ∈ s.colls, (x.lists.map (fun y => y.number)).Nodup := by decide +kernel
theorem test_batch_start : (tAfter (tSearch 2 (fun z => { z with closed := [tBatch] })) .batchStartScoring).search.nextBatch = 1 := by decide +kernel
theorem witness_exact : let s := tSearch 2 (fun z => { z with exactWaiting := [{ cmd := 7, idx := 0 }] })
    s.search.exactWaiting ≠ [] ∧ s.search.closed = [] ∧ (s.query? { cmd := 7, idx := 0 }).map (fun q => q.full) = some false := by decide +kernel
theorem test_visits_halve : (tAfter (tSearch 2 (fun z => { z with batches := 65536 })) .visitsHalve).colls.map (fun x => x.lists.map (fun y => y.visits)) = [[3]]
    ∧ (tAfter (tSearch 2 (fun z => { z with batches := 65535 })) .visitsHalve).colls.map (fun x => x.lists.map (fun y => y.visits)) = [[7]] := by
  decide +kernel
theorem witness_rebalance : (tSearch 2 (fun z => { z with batches := 4096 })).search.lastRebalance + 4096 ≤ 4096 := by decide +kernel
def tEngine : Engine := { mode := .active, passes := 0, strikes := [], work := [tPass], dealt := 0, tables := [] }
theorem witness_pass : let s := tSearch 2 (fun z => { z with engines := z.engines.set 17 tEngine })
    s.Inv ∧ s.search.engines[17]? = some tEngine ∧ s.powered 65 = true ∧ tEngine.next = some tPass ∧ s.flt.sLost = false := by decide +kernel
theorem witness_far : let s := tSearch 2 (fun z => { z with farWork := [tFar] })
    s.search.farWork.find? (fun j => j.coll == 9 && j.list == 0 && j.seg == 0) = some tFar ∧ s.unitOut 8 = false
      ∧ s.farTurn tFar = true ∧ s.farLost tFar = []
      ∧ ({ s with search := { s.search with farWork := [tFar, { tFar with batch := 1, seg := 1 }] } }).farTurn { tFar with batch := 1, seg := 1 } = false
      ∧ (s.query? { cmd := 7, idx := 0 }).map (fun q => q.stage) = some 2 ∧ tDesc05.farLimit ≠ 0 := by decide +kernel
theorem test_far_limit : ((tAfter (tSearch 2 (fun z => { z with farWork := [tFar] })) (.farLimitExpire { cmd := 7, idx := 0 })).query?
    { cmd := 7, idx := 0 }).map (fun q => (q.farLate, q.late)) = some (1, true) := by decide +kernel
theorem witness_merge : let s := tSearch 2 id
    s.queryHand (tQuery 2) = true ∧ s.query? { cmd := 7, idx := 0 } = some (tQuery 2) ∧ s.scoringLeft { cmd := 7, idx := 0 } = false ∧ s.inBatch { cmd := 7, idx := 0 } = false
      ∧ (∃ y ∈ s.search.queries, y.key.cmd = 7 ∧ y.key ≠ { cmd := 7, idx := 0 } ∧ y.issue = none ∧ y.stage ≠ 5)
      ∧ (s.cmd? 7).map (fun d => d.opcode) = some 0x0401 ∧ (tSearch 4 id).query? { cmd := 7, idx := 0 } = some (tQuery 4) := by decide +kernel
theorem test_search_merge : ((tAfter (tSearch 2 id) (.searchMerge { cmd := 7, idx := 0 } [])).query? { cmd := 7, idx := 0 }).map (fun q => q.stage)
    = some 4 := by decide +kernel

def tInsert : Cmd := tCmd 0x0402 [(0x10, 2, 9), (0x14, 4, 1), (0x18, 4, 0xFFFFFFFF), (0x20, 8, 0x1000), (0x28, 8, 64)]
theorem witness_delete : let c := { tCmd 0x0403 [(0x10, 2, 9), (0x14, 4, 65536), (0x20, 8, 0x1000)] with handle := 8 }
    let s := { tHost c with colls := [tColl] }
    s.cmd? 8 = some c ∧ s.epochBlocked c = false ∧ s.collFor 1 8 9 = some tColl ∧ s.coll? 9 = some tColl
      ∧ s.resolve 1 0x1000 (8 * 65536) 8 = some (tKey 0x1000) ∧ s.poisoned (tKey 0x1000) (8 * 65536) = false ∧ (∀ e ∈ tColl.epochs, e.cmd ≠ 8) := by
  decide +kernel
theorem witness_publish : tColl.epochs.find? (fun e => e.number == tColl.published + 1 && e.written) = some { number := 3, cmd := 7, written := true, count := 1, status := 0 } := by
  decide +kernel
theorem test_epoch_publish : ((tAfter { tOp 0x0402 [] with colls := [tColl] } (.epochPublish 9)).coll? 9).map (fun x => x.published) = some 3 := by decide +kernel
theorem witness_append : let x := { tColl with appends := [{ list := 0, epoch := 3, entry := { id := 78, attr := 0, code := [0, 0, 0, 0] } }] }
    x.appends.find? (fun a => a.list == 0) = some { list := 0, epoch := 3, entry := { id := 78, attr := 0, code := [0, 0, 0, 0] } }
      ∧ ((x.llist 0).place1 x.desc.segCap ({ tOp 0x0402 [] with colls := [x] }.oldestSnapshot x) 3 { id := 78, attr := 0, code := [0, 0, 0, 0] }).isSome = true
      ∧ ((x.llist 0).place1 x.desc.segCap ({ tOp 0x0402 [] with colls := [x] }.oldestSnapshot x) 3 { id := 78, attr := 0, code := [0, 0, 0, 0] }).map (fun z =>
          let w : Collection := { x.putList z with appends := [] }
          (tTen.t1.fits (w.t1Lists - x.t1Lists), decide (65792 * (changedSegs x w).length ≤ tTen.t2.limit * 65536))) = some (true, true)
      ∧ (tOp 0x0402 []).mediaRefuses = false := by
  decide +kernel
theorem witness_compact : (tColl.llist 0).rewriting.isSome = true ∧ (∃ m ∈ tColl.compacting, m ≠ 0) ∧ tColl.compactCmds ≠ []
    ∧ (let x := { tColl with compactCmds := [], lists := [{ tList with tombs := [] }] }
       ∀ y ∈ x.lists, y.removable ({ tOp 0x0404 [] with colls := [x] }.oldestSnapshot x) = false) := by decide +kernel
/-- Item 77 has a tombstone of epoch 2 and every query sees epoch 2: compaction drops it. -/
theorem test_compaction : ((tAfter { tOp 0x0404 [] with colls := [tColl] } (.compactionDone 9 0)).coll? 9).map
    (fun x => ((x.llist 0).segs.map (fun g => g.entries.length), x.compacting)) = some ([], [1]) := by decide +kernel

/-! ### Units: issues of context 0 of seat 0 (04 R110, 06, 08, 09) -/

def tIk : IssueKey := { seat := 0, ctx := 0, ticket := 3 }
def tUi (unit op : Nat) (body : List Byte) : UnitIssue :=
  { key := tIk, tenant := 1, stock := false, unit := unit, op := op, body := body, done := 0x8000, tag := 9, recovered := false, begun := false }
def tUnit (unit op : Nat) (body : List Byte) (mem : List Host.Cell) : State :=
  { tOf { tCtx with units := [3] } mem with issues := [tUi unit op body] }

/-- TOPK of the smallest 2 of 3 FP32 keys at 0x1000; result at 0x2000. -/
def tTopk : List Byte := leBytes 8 0x1000 ++ leBytes 8 0 ++ leBytes 8 3 ++ leBytes 2 2 ++ [0, 0] ++ leBytes 4 0 ++ leBytes 8 0x2000 ++ leBytes 24 0
def tKeys : List Host.Cell := (State.reset.wr ((Space.t1 0).key 0x1000) (leBytes 4 0x40000000 ++ leBytes 4 0x3F800000 ++ leBytes 4 0xBF800000)).mem

theorem witness_unit_completes : let s := tUnit 2 1 tTopk tKeys
    s.Inv ∧ s.issue? tIk = some (tUi 2 1 tTopk) ∧ ((s.seat 0).ctx 0).mode = .running ∧ (s.seat 0).inv = some 0 ∧ s.inv? 0 = some tInv ∧ 0 ∈ tInv.seats
      ∧ s.xlat 1 false .store 0x8000 = .ok 0x8000 ∧ s.fitted 6 = true ∧ meldFieldsOk (tUi 2 1 tTopk) false false = true := by decide +kernel
theorem test_finish_issue : ((tUnit 2 1 tTopk tKeys).finishIssue tIk 0x05 0).rd 0x8000 16 = [5, 1, 0, 0, 0, 0, 0, 0, 9, 0, 0, 0, 0, 0, 0, 0] := by
  decide +kernel
theorem test_meld_topk : let s := tAfter (tUnit 2 1 tTopk tKeys) (.meldTopk tIk)
    let t := tAfter s (.meldPiece tIk .agree)
    s.selections.length = 1 ∧ s.pieceTurn = some tIk ∧ (s.selection? tIk).map (fun x => (x.rest.length, x.levels, x.raw)) = some (3, [], false) ∧ t.rd 0x2000 4 = [2, 0, 0, 0] ∧ t.rd 0x2020 12 = [2, 0, 0, 0, 0, 0, 0, 0, 0, 0, 0x80, 0xBF] := by decide +kernel
theorem witness_meld_ranges : let s := tUnit 2 1 tTopk tKeys
    s.unitCheck (tUi 2 1 tTopk) .load 0x1000 12 8 = .ok ∧ s.unitCheck (tUi 2 1 tTopk) .store 0x2000 64 8 = .ok := by decide +kernel
/-- Seventeen lists of MERGE: a group of 16 is due. -/
theorem witness_merge_group : let s := tUnit 2 2 tTopk tKeys
    let x := selectionOf (tUi 2 2 tTopk) 2 [] (List.replicate 17 { entries := [], ties := 0 })
    x.group? = some 0 ∧ ({ s with selections := [x] }).mergeTurn = some tIk ∧ ({ s with selections := [x] }).pieceTurn = none := by decide +kernel
/-- 06 R170's worked example: K = 4 of 2.0, NaN, -0, +0, 2.0, 2.0, smallest first. -/
theorem test_selection_example :
    let e (i : Nat) (w : Word) : MEntry := { key := w, index := BitVec.ofNat 64 i, source := 0 }
    let r := selectBest 0 false false false 4 [e 0 0x40000000, e 1 0x7FC00000, e 2 0x80000000, e 3 0, e 4 0x40000000, e 5 0x40000000]
    r.entries.map (fun x => x.index.toNat) = [2, 3, 0, 4] ∧ r.ties = 1 ∧ r.invalid = 1 := by decide +kernel
theorem test_pieces : let e (i : Nat) (w : Word) : MEntry := { key := w, index := BitVec.ofNat 64 i, source := 0 }
    (mergeParts 0 false false false 2 [{ entries := [e 0 5, e 1 5], ties := 1 }, { entries := [e 3 5, e 4 6], ties := 4 }]).1.ties = 2 := by decide +kernel

/-! ### Pipeline queries (01, 07) -/

/-- A pack block: N and MAX 1, a budget of 4 tokens of deck 3, one segment of passages, output at 0x400000. -/
def tPack : List Byte :=
  leBytes 4 6 ++ leBytes 2 1 ++ leBytes 2 1 ++ leBytes 4 4 ++ leBytes 4 3 ++ [0, 0] ++ leBytes 2 1 ++ leBytes 2 1 ++ leBytes 2 0
    ++ leBytes 8 0x400000 ++ leBytes 4 144 ++ leBytes 4 0 ++ leBytes 24 0 ++ (1 :: leBytes 15 0)
/-- A model image's header: deck 3 and a context of 64 tokens. -/
def tModelImage : List Byte := leBytes 8 0 ++ leBytes 4 3 ++ leBytes 4 64 ++ leBytes 112 0
def tModel (n kind : Nat) : Model :=
  { number := n, kind := kind, tenant := 1, image := tModelImage, bytes := [], tiered := false, va := 0, t1Bytes := 0, evicting := none }
def tDeck : Deck := { number := 3, tenant := 1, image := tDeckImage, fffd := [0xEF, 0xBF, 0xBD], va := 0, t1Bytes := 0, evicting := none }
def tHand : Hand := { Hand.none with valid := true, tenant := 1, seats := [0, 1] }
def tPipeColl : Collection := { tColl with desc := { tDesc05 with embedModel := 5 } }
def tPipeCmd : Cmd := tCmd 0x0501 [(0x10, 2, 9), (0x14, 2, 1), (0x20, 8, 0x1000), (0x30, 8, 0x2000), (0x48, 4, 1)]
def tCand : Candidate := { id := 77, textBytes := 2, fingerprint := 0, cross := [65, 66], tokens := [65, 66], cuts := [(2, 2)], score := 0, rank := 0 }
def tPipe (stage : Nat) : Pipe :=
  { cmd := 7, tenant := 1, coll := 9, embedHand := 0, rerankHand := 0, policy := 0, question := [65], packBlock := tPack, genBlock := [], tokens := []
    candidates := [tCand], taken := 1, scratch := 0, lost := 0, snapshot := 2, queryCut := false, seqs := [], out := [1, 2], prompt := [65], partial' := false
    stage := stage }
/-- A query of a pipeline at a stage, its search done. -/
def tPiped (stage : Nat) : State :=
  { tHost tPipeCmd with
    colls := [tPipeColl], models := [tModel 5 2, tModel 6 3], decks := [tDeck], pipes := [tPipe stage], hands := State.reset.hands.set 0 tHand
    search := { State.reset.search with queries := [tQuery 5] }, tier := { State.reset.tier with passages := [7] }
    tenants := State.reset.tenants.set 1 { tTen with t1 := ⟨2 ^ 40, 0⟩ }
    mem := ((State.reset.wr (tKey 0x1000) [65]).wr (tKey 0x2000) tPack).mem }

theorem t_deck_vocab : deckVocab tDeck.image = 256 := t_header_fields.1
theorem t_pack_ok : packOk tPack (some tDeck) 1 = true := by
  unfold packOk
  dsimp only
  rw [t_deck_vocab]
  decide +kernel
theorem witness_pipe_query : let s := { tPiped 0 with pipes := [] }
    s.cmdAt 7 0x0501 0 = some tPipeCmd ∧ s.collFor 1 7 9 = some tPipeColl ∧ s.resolve 1 0x1000 1 1 = some (tKey 0x1000)
      ∧ (s.filterFor 1 0).getLeft? = some [] ∧ (s.packRead 1 0x2000).getLeft? = some tPack ∧ (s.handFor 1 7 0).isSome = true
      ∧ (s.resolve 1 0x400000 144 64).isSome = true ∧ s.searchTrouble tPipeColl 1 0 0 false = none ∧ s.poisoned (tKey 0x1000) 1 = false
      ∧ s.noSeats = false ∧ packDeck tPack = 3 := by decide +kernel
theorem witness_pack_deck : (tPiped 0).deckFor 1 7 3 = some tDeck := by rfl
theorem witness_embed : let s := tPiped 2
    s.pipe? 7 = some (tPipe 2) ∧ s.embedModel (tPipe 2) = some (tModel 5 2) ∧ s.crossModel (tPipe 2) = some (tModel 6 3) ∧ s.handTakes 0 5 0 = true
      ∧ (s.useHand 0 5 0).cmds = s.cmds ∧ s.noSeats = false ∧ s.objectCheck (.cmd 7) 1 0 0 = .ok
      ∧ ((s.useHand 0 5 0).filterFor 1 0).getLeft? = some [] ∧ mdlDeck tModelImage = 3 := by decide +kernel
theorem test_embed : let s := tAfter (tPiped 2) (.embed 7 [1, 2])
    s.search.queries.map (fun q => q.vec) = [[0, 0, 0, 0], [1, 2, 0, 0]] ∧ s.pipes.map (fun p => p.stage) = [3] := by decide +kernel
/-- The question of one byte is one token of the least deck. -/
theorem witness_query_tokenize : (tokenizeAll tDeck 0 [65]).rejected = false ∧ (tokenizeAll tDeck 0 [65]).cuts.map (fun c => c.token) = [65] := by
  decide +kernel
theorem witness_passages : let s := { tPiped 3 with decks := [] }
    s.passageTurn 7 = true ∧ s.unitOut 13 = false ∧ s.cutCheck 7 (passageWork none none tItem) = .ok ∧ s.query? { cmd := 7, idx := 0 } = some (tQuery 5) ∧ (s.tenant 1).t1.limit = 2 ^ 40 ∧ (s.tenant 1).t1.used = 0 ∧ packN tPack = 1
      ∧ (passageCuts tDeck tItem).cuts.length = 2 ∧ tItem.text.length = 2 := by decide +kernel
theorem test_passage_fetch : ((tAfter { tPiped 3 with decks := [] } (.passageFetch 7 [])).pipe? 7).map (fun p => (p.candidates.map (fun c => c.id), p.scratch, p.lost))
    = some ([77], 65536, 0) ∧ ((tAfter { tPiped 3 with decks := [] } (.passageFetch 7 [(77, .lost)])).pipe? 7).map (fun p => (p.candidates.map (fun c => c.id), p.scratch, p.lost))
    = some ([], 0, 1) := by decide +kernel
theorem witness_rerank : let s := tPiped 10
    s.pipe? 7 = some (tPipe 10) ∧ s.handTakes 0 6 2 = true ∧ s.noSeats = false ∧ s.objectCheck (.cmd 7) 1 0 0 = .ok := by decide +kernel
theorem test_rerank_loses_nan : ((tAfter (tPiped 10) (.rerank 7 ⟨some [[0x7FC00000]], .agree⟩)).pipe? 7).map (fun p => (p.candidates.length, p.lost)) = some (0, 1) := by
  decide +kernel
theorem witness_pack : packText tPack + 0 ≤ packBudget tPack ∧ has (fun g => g.kind == 2) (packSegs tPack) = false ∧ (tPiped 11).noSeats = false
    ∧ (tPiped 11).handSeated 0 = true := by
  decide +kernel
theorem test_pack : ((tAfter (tPiped 11) (.pack ⟨7, false⟩)).pipe? 7).map (fun p => (p.prompt, p.stage, p.out.take 6)) = some ([65, 66], 12, [2, 0, 0, 0, 1, 0]) := by
  decide +kernel
theorem witness_return : (tPiped 12).resolve 1 (fieldOf tPack 0x18 8) (64 + packMap tPack + 4) 64 = some (tKey 0x400000) ∧ packMap tPack = 64 := by
  decide +kernel
theorem test_pipe_return : let s := tAfter (tPiped 12) (.pipeReturn 7)
    s.rd (tKey 0x400000) 2 = [1, 2] ∧ s.rd (tKey 0x400080) 4 = [65, 0, 0, 0] ∧ s.pipes.length = 0 ∧ s.cmds.length = 0 := by decide +kernel

/-! ### Tokenizer and grammar units (08, 09) -/

/-- TOKENIZE of one byte with FINAL; output at 0x2000. -/
def tTokBody : List Byte := leBytes 4 3 ++ [0, 1] ++ leBytes 2 0 ++ leBytes 8 0x1000 ++ leBytes 4 1 ++ leBytes 4 393 ++ leBytes 8 0x2000 ++ leBytes 32 0
/-- DETOKENIZE of one id at 0x1000 with FINAL. -/
def tDetBody : List Byte := leBytes 4 3 ++ [0, 1] ++ leBytes 2 0 ++ leBytes 8 0x1000 ++ leBytes 4 1 ++ leBytes 4 131 ++ leBytes 8 0x2000 ++ leBytes 32 0
def tTok (unit op : Nat) (body : List Byte) : State :=
  { tUnit unit op body (State.reset.wr ((Space.t1 0).key 0x1000) [65]).mem with decks := [tDeck] }

theorem witness_tokenize : let s := tTok 3 1 tTokBody
    let u := tUi 3 1 tTokBody
    s.issue? tIk = some u ∧ u.begun = false ∧ s.inLane u = true ∧ s.fresh < 2 ^ 64 ∧ s.deckOf u 2 = none ∧ bodyTailZero u 0x28 = true
      ∧ s.unitCheck u .load 0x1000 1 1 = .ok ∧ s.unitCheck u .store 0x2000 1572 4 = .ok
      ∧ s.rdTva 1 false 0x1000 1 = [65] := by decide +kernel
theorem witness_unit_deck : (tTok 3 1 tTokBody).deckOf (tUi 3 1 tTokBody) 3 = some tDeck ∧ (tTok 4 1 tDetBody).deckOf (tUi 4 1 tDetBody) 3 = some tDeck := ⟨by rfl, by rfl⟩
theorem witness_tokenize_deck : 1 ≤ deckNodes tDeck.image ∧ tDeck.fffd.length * (1 + 130) ≤ 393
    ∧ (tokenizeBytes tDeckImage tDeck.fffd 0 true [] [] [65]).rejected = false := by
  rw [show deckNodes tDeck.image = 257 from t_header_fields.2.1]
  decide +kernel
theorem test_reject_counts_bytes : (tokenizeBytes tDeckImage tDeck.fffd 2 true [] [] [65, 0xC0, 65]).rejected = true
    ∧ (tokenizeBytes tDeckImage tDeck.fffd 2 true [] [] [65, 0xC0, 65]).taken = 2
    ∧ (tokenizeBytes tDeckImage tDeck.fffd 0 true [] [] [65, 0xC0, 65]).cuts.map (fun c => c.token) = [65, 0xEF, 0xBF, 0xBD, 65]
    ∧ (tokenizeBytes tDeckImage tDeck.fffd 1 true [] [] [65, 0xC0, 65]).cuts.map (fun c => c.token) = [65, 0xC0, 65] := by decide +kernel
theorem witness_deck_lines : (tTok 3 1 tTokBody).deckCheck (.issue tIk) tDeck (nodeLines tDeckImage (tokenizeBytes tDeckImage tDeck.fffd 0 true [] [] [65]).nodes) = .ok
    ∧ (tTok 4 1 tDetBody).deckCheck (.issue tIk) tDeck (tokenLines tDeckImage [65]) = .ok := by decide +kernel
/-- A carry of the least deck with an open match of no token. -/
theorem witness_carry : carryOk tDeckImage 3 (leBytes 256 0) = true ∧ carrySound tDeckImage (leBytes 256 0) = true
    ∧ carryOk tDeckImage 3 (leBytes 192 0 ++ [1] ++ leBytes 63 0) = false
    ∧ detokCarryOk 3 (leBytes 32 0) = true ∧ detokCarrySound (leBytes 32 0) = true := by decide +kernel
theorem test_tokenize_missing_deck : (tAfter { tTok 3 1 tTokBody with decks := [] } (.tokenize tIk)).rd 0x8000 4 = [5, 1, 0, 0] := by decide +kernel
theorem witness_detokenize : let s := tTok 4 1 tDetBody
    let u := tUi 4 1 tDetBody
    s.issue? tIk = some u ∧ s.inLane u = true ∧ bodyTailZero u 0x28 = true ∧ 128 * 1 + 3 ≤ 131
      ∧ s.unitCheck u .load 0x1000 4 4 = .ok ∧ s.unitCheck u .store 0x2000 131 1 = .ok := by decide +kernel
theorem test_detokenize : (detokenizeIds tDeckImage true [] [65, 256]).1 = [65] ∧ (detokenizeIds tDeckImage true [] [65, 256]).2.2.2 = 1 := by decide +kernel
theorem witness_deck_cache : let s := tTok 3 1 tTokBody
    deckPinned tDeck 0 = false ∧ s.deckCache.contains (3, 0) = false := by decide +kernel
theorem witness_deck_found : (tTok 3 1 tTokBody).decks.find? (fun d => d.number == 3) = some tDeck := by rfl
theorem witness_pinned_line : deckPinned tDeck 1 = true ∧ deckPinned tDeck 65 = true ∧ deckPinned tDeck 66 = false := by decide +kernel

/-- An automaton of deck 3 with two states: state 0 takes the byte 'A' to state 1, which accepts. -/
def tAutImage : List Byte :=
  leBytes 4 0x4D524741 ++ leBytes 2 1 ++ [0, 0] ++ leBytes 4 2 ++ leBytes 4 1 ++ leBytes 4 3 ++ leBytes 4 0 ++ leBytes 8 128 ++ leBytes 8 192 ++ leBytes 88 0
    ++ (leBytes 4 0 ++ leBytes 4 (1 + 2 ^ 22) ++ leBytes 4 1 ++ leBytes 52 0) ++ leBytes 8 (65 + 65 * 256 + 2 ^ 18)
def tAut : Automaton := { number := 4, tenant := 1, image := tAutImage, va := 0x5000, t1Bytes := 0, evicting := none }
/-- Issues of the grammar unit over the record at 0x1000; the mask goes to 0x100000, the copy to 0x3000. -/
def tGraBody (out tok dst : Nat) : List Byte :=
  leBytes 8 0x5000 ++ leBytes 8 0x1000 ++ leBytes 8 out ++ leBytes 4 tok ++ leBytes 4 0 ++ leBytes 8 dst ++ leBytes 24 0
def tGra (op : Nat) (body : List Byte) : State := { tUnit 5 op body [] with decks := [tDeck], automata := [tAut] }

theorem t_aut_shape : autShapeOk tAutImage = true ∧ autTablesOk tAutImage = true ∧ autEnds tAutImage = [] := by decide +kernel
theorem witness_automaton : autOk tAutImage (some tDeck) = true := by
  unfold autOk
  simp only [t_aut_shape.1, t_aut_shape.2.1, t_aut_shape.2.2]
  rfl
theorem witness_grammar : let s := tGra 1 (tGraBody 0x100000 0 0)
    let u := tUi 5 1 (tGraBody 0x100000 0 0)
    s.issue? tIk = some u ∧ s.inLane u = true ∧ s.autAt u 0x5000 = some tAut
      ∧ bodyTailZero u 0x28 = true ∧ s.unitCheck u .load 0x1000 576 64 = .ok ∧ s.unitCheck u .store 0x1000 576 64 = .ok
      ∧ recOk tAut (s.rdTva 1 false 0x1000 576) = true ∧ (recState (s.rdTva 1 false 0x1000 576)).ended = false
      ∧ s.unitCheck u .store 0x100000 131072 1 = .ok ∧ s.maskCache = [] := by decide +kernel
theorem witness_walks : let s := tGra 1 (tGraBody 0x100000 0 0)
    s.walkCheck (.issue tIk) tAut tDeck [0, 1] [2] = .ok ∧ s.deckHit tDeck 0 = false ∧ s.deckHit tDeck 1 = true := by decide +kernel
theorem witness_grammar_deck : (tGra 1 []).decks.find? (fun d => d.number == autDeck tAutImage && d.tenant == tAut.tenant) = some tDeck := by rfl
theorem witness_grammar_ended : (recState (leBytes 4 260 ++ leBytes 4 (2 ^ 31) ++ leBytes 568 0)).ended = true
    ∧ recOk tAut (leBytes 4 260 ++ leBytes 4 (2 ^ 31) ++ leBytes 568 0) = true := by decide +kernel
theorem t_token_65 : deckVocab tDeckImage = 256 ∧ tokenSpecial tDeckImage 65 = false ∧ tokenBytes tDeckImage 65 = [65] :=
  ⟨t_header_fields.1, (t_token_bytes 65 (by decide)).2, (t_token_bytes 65 (by decide)).1⟩
theorem witness_advance : (advance tAutImage tDeckImage 0 { state := 0, stack := [], ended := false } 65).1 = some { state := 1, stack := [], ended := false }
    ∧ (advance tAutImage tDeckImage 0 { state := 1, stack := [], ended := false } 65).1 = none := by
  have h : ∀ q, (advance tAutImage tDeckImage 0 { state := q, stack := [], ended := false } 65).1
      = ((autBytes tAutImage 0 [65] q [] []).1).map (fun x => { state := x.1, stack := x.2, ended := false }) := by
    intro q
    simp only [advance, t_token_65.1, t_token_65.2.1, t_token_65.2.2, t_aut_shape.2.2]
    rfl
  rw [h, h]
  decide +kernel
theorem witness_fork : let s := tGra 3 (tGraBody 0 0 0x3000)
    s.unitCheck (tUi 5 3 (tGraBody 0 0 0x3000)) .store 0x3000 576 64 = .ok ∧ 0x1000 + 576 ≤ 0x3000 := by decide +kernel
theorem test_fork_binds : (tAfter (tGra 3 (tGraBody 0 0 0x3000)) (.grammarFork tIk)).rd 0x3000 4 = [4, 1, 0, 0] := by decide +kernel
theorem test_mask_bytes : (maskBytes 256 [65, 256]).take 9 = [0, 0, 0, 0, 0, 0, 0, 0, 2] := by decide +kernel

/-! ### Hands and kernels (14, 04) -/

def tDealCmd : Cmd := tCmd 0x0901 [(0x12, 2, 1), (0x14, 2, 2), (0x18, 4, 0xFFFFFFFF)]
def tDeal : State := { tHost tDealCmd with tenants := State.reset.tenants.set 1 { tTen with seatLimit := 160 } }
/-- Hand 0 of tenant 1 with seats 0 and 1, in some state. -/
def tHeld (c : Cmd) (y : Seat → Seat) (x : Hand → Hand) : State :=
  { tHost c with
    tenants := State.reset.tenants.set 1 { tTen with seatLimit := 160 }, hands := State.reset.hands.set 0 (x tHand)
    seats := (State.reset.seats.set 0 (y (Seat.cleared .dealt false))).set 1 (Seat.cleared .dealt false) }

theorem witness_deal : tDeal.hands.length = 64 ∧ tDeal.cmdAt 7 0x0901 0 = some tDealCmd ∧ (tDeal.tenant 1).live = true
    ∧ (handParams tDealCmd).tenant = 0 ∧ tDeal.handBad 1 7 (handParams tDealCmd) = false ∧ tDeal.noSeats = false
    ∧ (List.range 64).find? (fun i => !(tDeal.hand i).valid) = some 0
    ∧ (tDeal.grant 1 0 (handParams tDealCmd) [] []).getLeft?.map (fun x => (x.1, x.2.length)) = some (2, 160) := by decide +kernel
/-- The first die and its lowest seats are taken when nothing else tells them apart. -/
theorem test_deal : let s := tAfter tDeal (.dealHand 7)
    (s.hand 0).seats = [0, 1] ∧ (s.seat 0).mode = .dealt ∧ (s.seat 1).clearing = true ∧ (s.seat 2).mode = .idle := by decide +kernel
theorem witness_seat_clear : let s := tHeld (tCmd 0x0901 []) (fun y => { y with clearing := true }) id
    0 < s.seats.length ∧ (s.seat 0).clearing = true ∧ (s.seat 0).mode = .dealt ∧ (s.hand (s.seat 0).hand).dealing = none := by decide +kernel
theorem witness_seat_clear_last : let s := tHeld (tCmd 0x0901 []) (fun y => { y with clearing := true }) (fun x => { x with dealing := some 7 })
    (s.seat 0).clearing = true ∧ (s.hand (s.seat 0).hand).dealing = some 7 ∧ (∀ j ∈ (s.hand (s.seat 0).hand).seats, j ≠ 0 → (s.seat j).clearing = false)
      ∧ (tAfter s (.seatClearDone 0)).cmds.length = 0 := by decide +kernel
def tResizeCmd : Cmd := tCmd 0x0902 [(0x12, 2, 3), (0x14, 2, 3), (0x18, 4, 0xFFFFFFFF)]
theorem witness_resize : let s := tHeld tResizeCmd id id
    s.cmdAt 7 0x0902 0 = some tResizeCmd ∧ (s.handOf tResizeCmd (handParams tResizeCmd)).getLeft? = some tHand
      ∧ s.handBad 1 7 (handParams tResizeCmd) = false
      ∧ (s.grant 1 0 (handParams tResizeCmd) [0, 1] []).getLeft?.map (fun x => (x.1, x.2.length)) = some (3, 158)
      ∧ ((tAfter s (.resizeHand 7)).hand 0).resize.map (fun r => r.grow) = some [2] := by decide +kernel
theorem witness_free_hand : let s := tHeld (tCmd 0x0903 []) id id
    s.cmdAt 7 0x0903 0 = some (tCmd 0x0903 []) ∧ (s.handOf (tCmd 0x0903 []) (handParams (tCmd 0x0903 []))).getLeft? = some tHand ∧ tHand.seats ≠ [] := by
  decide +kernel
theorem witness_seat_save : let s := tHeld (tCmd 0x0902 []) (fun y => { y with saving := true }) id
    (s.seat 0).saving = true ∧ (s.hand (s.seat 0).hand).resize = none ∧ ((tAfter s (.seatSaveDone 0)).seat 0).mode = .idle := by decide +kernel
theorem witness_boundary : let s := tHeld (tCmd 0 []) id id
    (s.hand 0).valid = true ∧ (s.hand 0).dealing = none ∧ (s.hand 0).seats ≠ [] ∧ s.up = true ∧ (s.tenant 1).reset = none ∧ (s.hand 0).freeing = none
      ∧ (s.hand 0).resize = none ∧ (∀ g ∈ (s.hand 0).seats, (s.seat g).mode ≠ .quarantined) ∧ s.invs = [] ∧ s.serving.reqs = []
      ∧ ((tAfter s (.trickBoundary 0)).hand 0).tricks = 1 := by decide +kernel
theorem witness_boundary_frees : let s := tHeld (tCmd 0x0903 []) id (fun x => { x with freeing := some (7, false) })
    ((tAfter s (.trickBoundary 0)).hand 0).valid = false ∧ (tAfter s (.trickBoundary 0)).cmds.length = 0 := by decide +kernel

/-- A model image of kind 4 with one kernel of one word, for 1 seat, which asks for a signature or not. -/
def tKernelImage (stock : Nat) : List Byte :=
  leBytes 4 0x4C444F4D ++ leBytes 2 1 ++ [4, 0] ++ leBytes 4 0xFFFFFFFF ++ leBytes 60 0 ++ leBytes 8 128 ++ leBytes 4 1 ++ leBytes 44 0
    ++ (leBytes 4 0x4E524B49 ++ leBytes 2 1 ++ leBytes 2 stock ++ leBytes 4 4 ++ leBytes 4 0 ++ leBytes 4 0 ++ leBytes 2 1 ++ leBytes 2 1 ++ leBytes 8 0)
    ++ leBytes 4 0
def tKernelModel : Model := { tModel 2 4 with image := tKernelImage 0, bytes := tKernelImage 0, va := 0x800000000000 }
def tKernelCmd : Cmd := tCmd 0x0304 [(0x14, 4, 2), (0x20, 8, 0x55), (0x28, 8, 0x6000)]
def tKern : State := { tHeld tKernelCmd id id with models := [tKernelModel] }
theorem witness_kernel_run : tKern.cmd? 7 = some tKernelCmd ∧ tKern.invs = [] ∧ tKern.modelFor 1 7 2 = some tKernelModel
    ∧ (tKernelModel.kernel? 0).map (fun k => (k.off, k.entry, k.minSeats, k.maxSeats)) = some (128, 0, 1, 1)
    ∧ tKern.resolve 1 0x6000 32 32 = some (tKey 0x6000) ∧ (tKern.handFor 1 7 0).isSome = true ∧ (tKern.hand 0).model = none
    ∧ ((tKern.hand 0).seats.filter (fun g => (tKern.seat g).inv.isNone && (tKern.seat g).mode = .dealt && !(tKern.seat g).clearing)).length = 2 := by
  decide +kernel
theorem test_kernel_run : let s := tAfter tKern (.kernelRun 7)
    (((s.seat 0).ctx 0).rs 1).toNat = 0x55 ∧ ((s.seat 0).ctx 0).pc = 160 ∧ ((s.seat 0).ctx 0).mode = .running ∧ (s.seat 1).inv = none := by decide +kernel
theorem witness_steady : let s := tHeld (tCmd 0 []) (fun y => { y with steady := { y.steady with on := true } }) id
    0 < s.seats.length ∧ (s.seat 0).steady.on = true ∧ (s.seat 0).mode = .dealt ∧ 3600 ≤ 3600 ∧ ¬ 3600 ≤ 3599 := by decide +kernel
theorem witness_steady_shortfall : (10 * 10 < 9 * 100) ∧ 9 * 100 ≤ 90 * 10 := by decide

/-! ### Objects (12, 14, 18) -/

def tLoadCmd (kind number len : Nat) : Cmd := tCmd 0x0301 [(0x10, 1, kind), (0x14, 4, number), (0x18, 8, 0x100000), (0x20, 8, len)]
def tLoad (kind number : Nat) (b : List Byte) : State :=
  { tHost (tLoadCmd kind number b.length) with mem := (State.reset.wr (tKey 0x100000) b).mem }

theorem witness_load_kind : (tLoad 0 0 (leBytes 64 0)).cmdAt 7 0x0301 0 = some (tLoadCmd 0 0 64) ∧ (tLoad 0 0 (leBytes 64 0)).flash.stopped = false
    ∧ (tLoadCmd 0 0 64).field 0x20 8 = 64 ∧ (tLoadCmd 9 0 64).field 0x10 1 = 9 := by decide +kernel
theorem witness_bad_deck : ((tLoad 6 0 (leBytes 64 1)).loadBytes (tLoadCmd 6 0 64)).getLeft? = some (leBytes 64 1) ∧ deckOk (leBytes 64 1) = false := by
  decide +kernel
theorem witness_deck_number : freeNumber 128 ([] : List Nat) = some 0 := by decide
/-- An object of one block that is not TIERED is stored and placed when the quotas and the media take it. -/
theorem t_install_one (s : State) (t kind n va t1 : Nat) (b : List Byte) (hb : 0 < b.length ∧ b.length ≤ 65536) (hp : s.flash.pack = none)
    (hm : s.mediaRefuses = false) (h1 : (s.tenant t).t1.fits t1 = true) (h2 : (s.tenant t).t2.fits 65792 = true)
    (hk : ∀ k, k ≤ 5 → s.placesPages k = true) (draw : Nat) :
    ∃ z, s.install t { kind := kind, number := n, tiered := false, codec := false, blocks := plainBlocks draw va t 0 b, va := va, t1 := t1 } = .inl z := by
  have hl : ceilDiv b.length 65536 = 1 := by
    simp only [ceilDiv, if_neg (by decide : ¬ 65536 = 0)]
    omega
  have hbl : (block64 b).length ≤ 65536 := Nat.le_of_eq (block64_length _)
  have hf := tierStored_bound draw 0 va t hbl
  have hq : (s.tenant t).t2.fits (tierStored draw 0 va t (block64 b)).charge = true := by
    simp only [Quota.fits, decide_eq_true_eq] at h2 ⊢
    omega
  have hw := mediaPuts_one s (.object kind n 0 b.length) draw 0 va t hp hbl hk
  have hblocks : plainBlocks draw va t 0 b = [(0, b.length, tierStored draw 0 va t (block64 b))] := by
    simp [plainBlocks, tierBlocksOf, hl, Nat.min_eq_right hb.2]
  simp only [State.install, Loading.owned, hblocks, List.map_cons, List.map_nil, sumNat, List.foldl_cons, List.foldl_nil, Nat.zero_add, hq, hm, hw, h1,
    Bool.false_and, Bool.false_eq_true, if_false, Bool.not_true, Bool.not_false, if_true, List.length_cons, List.length_nil]
  exact ⟨_, rfl⟩
theorem witness_install : ∃ z, (tLoad 6 0 []).draw.install 1 { kind := 6, number := 0, tiered := false, codec := false
                                                               blocks := plainBlocks (tLoad 6 0 []).fresh ((tLoad 6 0 []).nextVa 1) 1 0 tDeckImage
                                                               va := (tLoad 6 0 []).nextVa 1, t1 := 65536 } = .inl z :=
  t_install_one _ 1 6 0 _ 65536 tDeckImage (by rw [t_image_length]; decide) (by decide +kernel) (by decide +kernel) (by decide +kernel)
    (by decide +kernel) (by decide +kernel) _
theorem witness_bad_signature : mdlOk (tKernelImage 1) 4 [] = true ∧ signaturesOk (tKernelImage 1) = false
    ∧ ((tLoad 4 0 (tKernelImage 1)).loadBytes (tLoadCmd 4 0 164)).getLeft? = some (tKernelImage 1) := by decide +kernel
/-- A table of 8 rows of 4 FP32 weights with plain steps, number 5, of member 0. -/
def tEmbDesc : List Byte := leBytes 8 8 ++ leBytes 2 4 ++ [0, 0, 5, 0] ++ leBytes 2 1 ++ leBytes 16 0 ++ leBytes 8 1 ++ leBytes 24 0
def tStart : EmbTable := EmbTable.start 1 5 tEmbDesc
theorem witness_load_table : embDescOk ((tLoad 8 5 tEmbDesc).variant.links + 1) 5 (tEmbDesc.take 64) = true ∧ (tLoad 8 5 tEmbDesc).table? 5 = none
    ∧ ((tLoad 8 5 tEmbDesc).loadBytes (tLoadCmd 8 5 64)).getLeft? = some tEmbDesc ∧ (tLoad 8 5 tEmbDesc).mediaRefuses = false := by decide +kernel
/-- Its first generation is one block of its remap table. -/
theorem t_start_blocks (draw : Nat) : tStart.genBlocks draw 0 tStart.ckpt = [(.table 5 0 0, tierStored draw 0 0 1 (block64 (tStart.ckpt.bytes tEmbDesc)))] := by
  have h : ceilDiv (tStart.ckpt.bytes tEmbDesc).length 65536 = 1 := by decide +kernel
  have h0 : tStart.desc = tEmbDesc ∧ tStart.tenant = 1 ∧ tStart.number = 5 := by decide +kernel
  simp [EmbTable.genBlocks, tierBlocksOf, h0.1, h0.2.1, h0.2.2, h]
theorem witness_table_quota : ((tLoad 8 5 tEmbDesc).tenant 1).t2.fits
      (2 * sumNat ((tStart.genBlocks (tLoad 8 5 tEmbDesc).fresh 0 tStart.ckpt).map (fun y => y.2.charge))) = true
    ∧ ∃ z, (tLoad 8 5 tEmbDesc).draw.mediaPuts 1 (tStart.genBlocks (tLoad 8 5 tEmbDesc).fresh 0 tStart.ckpt) = (z, 1) := by
  have hl : ((tLoad 8 5 tEmbDesc).tenant 1).t2.limit = 1000 ∧ ((tLoad 8 5 tEmbDesc).tenant 1).t2.used = 0 := by decide +kernel
  have hb : (block64 (tStart.ckpt.bytes tEmbDesc)).length ≤ 65536 := Nat.le_of_eq (block64_length _)
  have hc := (tierStored_bound (tLoad 8 5 tEmbDesc).fresh 0 0 1 hb).2
  rw [t_start_blocks]
  constructor
  · simp only [Quota.fits, hl.1, hl.2, List.map_cons, List.map_nil, sumNat, List.foldl_cons, List.foldl_nil, decide_eq_true_eq]
    omega
  · exact ⟨_, mediaPuts_one _ _ _ 0 0 1 (by decide +kernel) hb (by decide +kernel)⟩
def tEvict : State := { tHost (tCmd 0x0302 [(0x10, 1, 6), (0x14, 4, 3)]) with decks := [tDeck] }
theorem witness_evict : tEvict.cmdAt 7 0x0302 0 = some (tCmd 0x0302 [(0x10, 1, 6), (0x14, 4, 3)]) ∧ tEvict.models = [] ∧ tEvict.automata = []
    ∧ mdlDeck tModelImage = 3 ∧ (tAfter tEvict (.modelEvict 7)).decks.map (fun d => d.evicting.isSome) = [true] := by decide +kernel
theorem witness_eviction : let s := { tEvict with decks := [{ tDeck with evicting := some { cmd := 7, issues := [] } }] }
    (∀ y ∈ s.cmds, s.names 6 3 7 y = false) ∧ s.decks.length = 1 ∧ (tAfter s (.evictionComplete 6 3)).decks.length = 0 := by decide +kernel
theorem witness_eviction_waits : (tUnit 3 1 tTokBody []).issue? tIk ≠ none := by decide +kernel

/-! ### Generation (10) -/

/-- A deck header of 2 tokens, for tests that only need the vocabulary's size. -/
def tSmallDeck : Deck := { tDeck with image := leBytes 8 0 ++ leBytes 4 2 ++ leBytes 52 0 }
/-- Greedy, 8 tokens at most, model 6, hand 0, a tree of 4 nodes 2 deep; a ring of 64 records at 0x20000. -/
def tGenBlock : List Byte :=
  leBytes 8 0x99 ++ leBytes 4 6 ++ [0, 4, 2, 0] ++ leBytes 4 3 ++ leBytes 4 8 ++ leBytes 4 0 ++ leBytes 4 0x3F800000 ++ leBytes 2 1 ++ leBytes 6 0
    ++ leBytes 8 0 ++ leBytes 8 0 ++ leBytes 8 0x20000 ++ leBytes 8 64 ++ leBytes 8 0x30000 ++ leBytes 8 0x30040 ++ leBytes 40 0
def tGenCmd : Cmd := tCmd 0x0601 [(0x10, 8, 0x1000), (0x18, 8, 0x2000), (0x20, 4, 2)]
def tGen : State :=
  { tHost tGenCmd with
    models := [tModel 6 1], decks := [tSmallDeck], hands := State.reset.hands.set 0 tHand
    mem := ((State.reset.wr (tKey 0x1000) tGenBlock).wr (tKey 0x2000) [1, 0, 0, 0, 1, 0, 0, 0]).mem }

theorem witness_gen_start : tGen.Inv ∧ tGen.cmdAt 7 0x0601 0 = some tGenCmd ∧ (tGen.genRead 1 0x1000).getLeft? = some tGenBlock
    ∧ tGen.genBad 1 7 tGenBlock = false ∧ tGen.resolve 1 0x2000 8 4 = some (tKey 0x2000) ∧ tGen.poisoned (tKey 0x2000) 8 = false
    ∧ tGen.noSeats = false ∧ tGen.modelFor 1 7 6 = some (tModel 6 1) ∧ deckVocab tSmallDeck.image = 2 ∧ mdlContext tModelImage = 64
    ∧ (genParams tGenBlock).topK = 1 ∧ tGen.serving.reqs.length = 0
    ∧ (tGen.tenant 1).t1.fits ((ceilDiv (2 + 8) 64 - 0 + 2) * frameBytes tModelImage + 4 * (2 + 8)) = true
    ∧ tGen.resolve 1 (genParams tGenBlock).tailAddr.toNat 4 4 = some (tKey 0x30040) := by decide +kernel
def tLive : State := tAfter tGen (.genStart 7)
theorem test_gen_start : tLive.serving.reqs.map (fun r => (r.cmd, r.prompt, r.reserved, r.pages.length)) = [(7, [1, 1], 40, 1)]
    ∧ (tLive.tenant 1).t1.used = 40 := by decide +kernel
theorem witness_prefill : (tLive.req? 0).map (fun r => (r.id, r.hand, r.model)) = some (0, 0, 6)
    ∧ (tLive.waitPrefill 0).length = 0 := by decide +kernel
/-- With a balance the request's prefill may start. -/
def tPaid : State := tLive.updAccount 1 3 (fun x => { x with balance := 10000 })
theorem witness_prefill_paid : (nextByAccount (tPaid.hand 0).lastPre (tPaid.waitPrefill 0)).map (fun r => r.id) = some 0
    ∧ (tPaid.req? 0).map (fun r => tPaid.passCheck r (tModel 6 1)) = some .ok ∧ tPaid.handTakes 0 6 3 = true ∧ tPaid.noSeats = false ∧ 1 < tPaid.tenants.length := by decide +kernel
theorem test_prefill_charges : let s := tAfter tPaid (.prefillChunk 0)
    (s.account 1 3).balance = 10000 - 2 * 256 ∧ (s.req? 0).map (fun r => r.prefilled) = some 2 := by decide +kernel
theorem witness_gen_cancel : let s := { tLive with cmds := tLive.cmds ++ [{ tCmd 0x0603 [(0x10, 8, 0x99)] with handle := 8 }] }
    (s.cmdAt 8 0x0603 0).isSome = true ∧ (s.serving.reqs.find? (fun r => r.tenant == 1 && r.tag.toNat == 0x99)).isSome = true ∧ s.inStep 0 = false
      ∧ s.serving.reqs.find? (fun r => r.tenant == 1 && r.tag.toNat == 0x98) = none := by decide +kernel

/-- The request in a decode step, its draft tree not yet made; MODEL 6 with a draft at offset 128 or none. -/
def tDrafting : Model :=
  { tModel 6 1 with image := leBytes 8 0 ++ leBytes 4 3 ++ leBytes 4 64 ++ leBytes 96 0 ++ leBytes 8 128 ++ leBytes 8 0 ++ leBytes 128 0 }
def tStep (m : Model) : State :=
  { tPaid with
    models := [m], hands := State.reset.hands.set 0 { tHand with model := some 6, phase := 4 }
    serving := { tPaid.serving with
      reqs := tPaid.serving.reqs.map (fun r => { r with prefilled := 2 })
      batches := [{ hand := 0, model := 6, replica := 0, reqs := [0], part := 0, running := true }] } }
theorem witness_draft : let s := tStep tDrafting
    (s.req? 0).map (fun r => (r.tree, r.automaton, r.nodeCap, r.depthCap, s.drafts r, (s.reqDeck r).isSome)) = some ([], none, 4, 2, true, true)
      ∧ s.inStep 0 = true ∧ s.handTakes 0 6 4 = true ∧ (s.req? 0).map (fun r => s.passCheck r tDrafting) = some .ok
      ∧ treeOk tSmallDeck.image 4 2 [{ token := 1, parent := 0, depth := 1 }] = true
      ∧ treeOk tSmallDeck.image 4 2 [{ token := 1, parent := 1, depth := 1 }] = false
      ∧ treeOk tSmallDeck.image 1 2 [{ token := 1, parent := 0, depth := 1 }] = false := by decide +kernel
theorem test_draft_tree : ((tAfter (tStep tDrafting) (.draftTree 0 [{ token := 1, parent := 0, depth := 1 }])).req? 0).map (fun r => r.tree.length) = some 2 := by
  decide +kernel
/-- Without a draft the launch makes the root the whole tree. -/
def tAccept : State :=
  let s := tStep (tModel 6 1)
  { s with serving := { s.serving with reqs := s.serving.reqs.map (fun r => r.setTree [r.root]) } }
theorem witness_accept : let s := tAccept
    (s.req? 0).map (fun r => (s.drafts r, r.automaton, (s.reqModel r).isSome, (s.reqDeck r).isSome)) = some (false, none, true, true) ∧ s.inStep 0 = true
      ∧ (s.req? 0).map (fun r => (r.tree.length, s.stepUnitsOut r, s.passCheck r (tModel 6 1))) = some (1, false, .ok) ∧ s.stepPart 0 = 0
      ∧ s.noSeats = false ∧ s.handTakes 0 6 4 = true := by decide +kernel
/-- Greedy takes the largest logit; a step emits one token without a draft. -/
theorem test_accept : let s := tAfter tAccept (.acceptStep 0 [[0x3F800000, 0x40000000]] false)
    (s.req? 0).map (fun r => (r.output, r.committed)) = some ([1], 2) ∧ (s.account 1 3).balance = 10000 - 256 := by decide +kernel
theorem witness_emit : let s := tStep (tModel 6 1)
    (s.req? 0).map (fun r => (r.ended, decide (r.tenant < s.tenants.length))) = some (none, true) := by decide +kernel
/-- Parked beyond a limit of 1, the ring full of 64 records and one queued. -/
def tParked : State :=
  { tPaid with
    hands := State.reset.hands.set 0 { tHand with parkLimit := 1 }
    serving := { tPaid.serving with
      reqs := tPaid.serving.reqs.map (fun r => { r with isParked := true, parked := 2, tail := 64, head := 0, queue := [List.replicate 64 7] }) } }
theorem witness_ring_stall : (tParked.hand 0).parkLimit ≠ 0 ∧ (tParked.hand 0).parkLimit < 2 ∧ (tParked.req? 0).map (fun r => r.isParked) = some true
    ∧ ((tParked.writeRing 0).req? 0).map (fun r => (r.isParked, r.queue.length)) = some (true, 1)
    ∧ (tAfter tParked (.ringStall 0)).serving.reqs.length = 0 := by decide +kernel
theorem witness_kv_rebuild : (tPaid.req? 0).map (fun r => (r.pages.length, r.ended)) = some (1, none)
    ∧ ((tAfter tPaid (.kvRebuild 0 0)).req? 0).map (fun r => r.recovered) = some true ∧ (tAfter tPaid (.kvRebuild 0 1)).counter 0xB0078 = 0 := by
  decide +kernel
theorem test_stop_string : stopMatch [[66, 67], [67]] [65, 66, 67] = some (1, 0) ∧ stopHold [[66, 67]] [65, 66] = 1 := by decide +kernel
theorem test_throttle : (tPaid.serving.reqs.map (fun r => (({ r with rejectRun := 7 } : Request).throttle 8 32 4 0).1.nodeCap)) = [2] := by decide +kernel

/-! ### Embedding tables (11) -/

def tRow : EmbRow := { id := 2, t := 0, w := [0x3F800000, 0, 0, 0], st := [] }
def tTab (remap : List Nat) : EmbTable :=
  { number := 5, tenant := 1, desc := tEmbDesc, digest := 0x77, remap := remap, emptySlots := [], rows := [tRow], steps := [], applied := 3, seen := [], unbuilt := []
    sinceCkpt := 0, ckpt := { step := 0, remap := remap, emptySlots := [], rows := [] }, ckptGen := 0, ckptDue := none, ckptNew := none, nextStep := 4, t1Bytes := 0, remote := [] }
/-- Member 0 of a cell of members 0 and 1, with one table and a command. -/
def tEmb (c : Cmd) (t : EmbTable) (mem : List Host.Cell) (w : List Exchange) : State :=
  { tHost c with
    mem := mem, cell := { State.reset.cell with actMember := 0, members := 3 }
    embed := { State.reset.embed with tables := [t], waiting := w, nextBatch := 9 } }
def tEmbMem : List Host.Cell := ((State.reset.wr (tKey 0x1000) [2, 0, 0, 0, 0, 0, 0, 0]).wr (tKey 0x2000)
  ([0, 0, 0x80, 0x3F, 0, 0, 0, 0, 1] ++ leBytes 55 0 ++ [0, 0, 0x80, 0x3F])).mem
def tLookup : Cmd := tCmd 0x0701 [(0x10, 1, 5), (0x14, 4, 1), (0x18, 8, 0x1000), (0x20, 8, 0x40000)]
/-- The digest of the table's descriptor. -/
def tDig : Nat := (embDigest tEmbDesc).toNat
def tX : Exchange :=
  { who := .cmd 7, tenant := 1, stock := true, table := 5, desc := tEmbDesc, batch := 9, update := false, indices := [2], data := 0x40000, pass := [2], rest := [], rows := []
    asked := [(1, 0, [2])], got := [], owners := [], accepted := 0, dropped := false }

theorem witness_emb_lookup : let s := tEmb tLookup (tTab [1]) tEmbMem []
    s.cmdAt 7 0x0701 0 = some tLookup ∧ s.tableFor 1 5 = some (tTab [1]) ∧ s.resolve 1 0x1000 8 8 = some (tKey 0x1000)
      ∧ s.resolve 1 0x40000 (embOutBytes tEmbDesc 1) 64 = some (tKey 0x40000) ∧ s.poisoned (tKey 0x1000) 8 = false
      ∧ embIndices 1 (s.rd (tKey 0x1000) 8) = [2] ∧ 2 < embRows tEmbDesc ∧ (tTab [1]).owner 2 ≠ s.me ∧ s.inCell ((tTab [1]).owner 2) = true
      ∧ embFrozen tEmbDesc = false ∧ s.embed.waiting = [] ∧ s.table? 5 = some (tTab [1]) ∧ (tTab [1]).unbuilt = [] := by decide +kernel
theorem test_lookup_asks_owner : ((tAfter (tEmb tLookup (tTab [1]) tEmbMem []) (.embLookup 7)).embed.waiting).map (fun x => (x.batch, x.asked)) = [(10, [(1, 0, [2])])] := by
  decide +kernel
def tGatherBody : List Byte := leBytes 2 5 ++ leBytes 2 0 ++ leBytes 4 1 ++ leBytes 8 0x1000 ++ leBytes 8 0x2000 ++ leBytes 40 0
def tGather (op : Nat) (body : List Byte) : State :=
  { tUnit 7 op body [] with embed := { State.reset.embed with tables := [tTab [1]] }, cell := { State.reset.cell with actMember := 0, members := 3 } }
theorem witness_gather : let s := tGather 1 tGatherBody
    let u := tUi 7 1 tGatherBody
    s.issue? tIk = some u ∧ s.tableFor 1 5 = some (tTab [1]) ∧ bodyTailZero u 0x20 = true ∧ s.unitCheck u .load 0x1000 8 8 = .ok
      ∧ s.unitCheck u .store 0x2000 (embOutBytes tEmbDesc 1) 64 = .ok := by decide +kernel
theorem witness_lookup_req : let s := tEmb tLookup (tTab [0]) [] []
    let m := embHeader 1 5 1 0 1 0x77 0 9 0 0 0 0 ++ leBytes 8 2
    s.takes 1 m = true ∧ s.table? 5 = some (tTab [0]) ∧ (tTab [0]).digest.toNat = fieldOf m 8 8 ∧ (tTab [0]).present 2 = some tRow.w := by decide +kernel
theorem witness_lookup_rsp : let s := tEmb tLookup (tTab [1]) [] [tX]
    let m := embHeader 2 5 1 0 1 tDig 0 9 0 0 1 0 ++ leBytes 8 1 ++ leBytes 64 0x3F800000
    s.takes 2 m = true ∧ s.embed.waiting.find? (fun y => y.batch == fieldOf m 0x18 4 && !y.update) = some tX
      ∧ (embDigest tX.desc).toNat = fieldOf m 8 8
      ∧ tX.asked.find? (fun a => a.1 == fieldOf m 2 1 && a.2.1 == fieldOf m 0x1C 2) = some (1, 0, [2]) := by decide +kernel
theorem test_lookup_completes : let m := embHeader 2 5 1 0 1 tDig 0 9 0 0 1 0 ++ leBytes 8 1 ++ leBytes 64 0x3F800000
    let s := tAfter (tEmb tLookup (tTab [1]) [] [tX]) (.lookupRsp m)
    s.rd (tKey 0x40000) 4 = [0, 0, 0x80, 0x3F] ∧ s.rd (tKey 0x40040) 1 = [1] ∧ s.cmds.length = 0 := by decide +kernel
theorem witness_stray_answer : let s := tEmb tLookup (tTab [1]) [] []
    s.takes 2 (embHeader 2 5 1 0 1 0x77 0 8 0 0 1 0) = true
      ∧ (tAfter s (.lookupRsp (embHeader 2 5 1 0 1 0x77 0 8 0 0 1 0))).counter 0x100034 = 1 := by decide +kernel
theorem witness_sketch : let s := { tUp with embed := { tUp.embed with accesses := 2 ^ tUp.embed.sketchShift, sketch := [(3, 1), (9, 15)] } }
    2 ^ s.embed.sketchShift ≤ s.embed.accesses ∧ sparseWf 0 0 s.embed.sketch = true ∧ (tAfter s .sketchHalve).embed.sketch = [(9, 7)] := by decide +kernel

/-- LR 1.0 and participants 0; one gradient. -/
def tUpdCmd (step : Nat) : Cmd := tCmd 0x0702 [(0x10, 1, 5), (0x14, 4, 1), (0x18, 8, 0x1000), (0x20, 8, 0x2000), (0x28, 8, step)]
def tUpd (step : Nat) : EmbUpdate :=
  { n := 1, step := step, block := [0, 0, 0x80, 0x3F, 0, 0, 0, 0, 1] ++ leBytes 55 0, indices := [2], payload := [0, 0, 0x80, 0x3F] ++ leBytes 60 0 }
theorem witness_emb_update : let s := tEmb (tUpdCmd 4) (tTab [1]) tEmbMem []
    s.cmdAt 7 0x0702 0 = some (tUpdCmd 4) ∧ s.resolve 1 0x2000 64 64 = some (tKey 0x2000) ∧ s.rd (tKey 0x2000) 64 = (tUpd 4).block
      ∧ embDataBytes tEmbDesc 1 false = 128 ∧ s.resolve 1 0x2000 128 64 = some (tKey 0x2000) ∧ s.resolve 1 0x1000 8 8 = some (tKey 0x1000)
      ∧ s.poisoned (tKey 0x2000) 128 = false ∧ s.rd (tKey 0x2040) 64 = (tUpd 4).payload
      ∧ s.embUpdateBad (tTab [1]) (tUpd 4) = false ∧ s.embUpdateBad (tTab [1]) (tUpd 3) = true := by decide +kernel
def tGatherUpd : List Byte := leBytes 2 5 ++ leBytes 2 0 ++ leBytes 4 1 ++ leBytes 8 0x1000 ++ leBytes 8 0x2000 ++ leBytes 8 4 ++ leBytes 32 0
theorem witness_gather_update : let s := tGather 2 tGatherUpd
    let u := tUi 7 2 tGatherUpd
    s.issue? tIk = some u ∧ bodyTailZero u 0x20 = true ∧ s.unitCheck u .load 0x2000 64 64 = .ok ∧ s.unitCheck u .load 0x1000 8 8 = .ok
      ∧ embDataBytes tEmbDesc 1 false = 128 ∧ s.unitCheck u .load 0x2000 128 64 = .ok := by decide +kernel
theorem witness_foreign_update : let s := tEmb tLookup (tTab [0]) [] []
    s.takes 3 (embHeader 3 5 1 0 0 0x78 2 9 0 0 0 0) = true ∧ s.table? 5 = some (tTab [0]) ∧ s.takes 5 (embHeader 5 6 1 0 0 0x77 2 9 0 0 0 0) = true
      ∧ s.table? 6 = none ∧ (tTab [0]).digest.toNat = 0x77 := by decide +kernel
/-- A row the table's owner has not brought back since T1 was lost is rebuilt from the checkpoint when it is asked for. -/
theorem test_rebuild_at_lookup : let t := { tTab [0] with rows := [], unbuilt := [2], ckpt := { (tTab [0]).ckpt with rows := [tRow] } }
    (((tEmb tLookup t [] []).rebuildRows 5 [2]).1.table? 5).map (fun t => (t.rows, t.unbuilt, t.t1Bytes)) = some ([tRow], [], 65536) := by decide +kernel
/-- A step above those applied: the batch's one entry is taken where nothing was shed and the staging has room. -/
theorem witness_batch_taken : let s := tEmb tLookup (tTab [0]) [] []
    let m := embHeader 3 5 1 0 1 0x77 4 9 0 0 0 0 ++ leBytes 8 2 ++ leBytes 64 0x3F800000
    let l := embHeader 5 5 1 0 1 0x77 4 9 0 0 0 0 ++ leBytes 8 2 ++ leBytes 64 0x3F800000
    s.takes 3 m = true ∧ s.takes 5 l = true ∧ s.table? 5 = some (tTab [0]) ∧ (1, 4, 0) ∉ (tTab [0]).seen ∧ (tTab [0]).applied < 4
      ∧ (tTab [0]).steps = [] ∧ s.combineUsed + (embBatchOf (tTab [0]) 0 3 m).sums.length * embEntry tEmbDesc false ≤ 2 ^ 29
      ∧ s.combineUsed + (embBatchOf (tTab [0]) 0 5 l).rows.length * embEntry tEmbDesc true ≤ 2 ^ 29
      ∧ ({ s with embed := { s.embed with tables := [{ tTab [0] with steps := [{ step := 4, lr := 0, participants := 0, closes := [], sums := [], rows := []
                                                                                 shed := [1] }] }] } } : State).stepDue (tTab [0]) = none := by
  decide +kernel
/-- A combine buffer that is full sheds the whole batch of the source. -/
def tFullStep (n : Nat) : OpenStep :=
  { step := 9, lr := 0, participants := 0, closes := [], sums := List.replicate n (0, 2, []), rows := [], shed := [] }
theorem t_combine (o : OpenStep) : (tEmb tLookup { tTab [0] with steps := [o] } [] []).combineUsed = 0 + (0 + o.bytes tEmbDesc + 0 * embStride tEmbDesc) := rfl
theorem witness_batch_shed : ∃ n, 2 ^ 29 < (tEmb tLookup { tTab [0] with steps := [tFullStep n] } [] []).combineUsed := by
  have he : 1 ≤ embEntry tEmbDesc false := by decide +kernel
  have h (n : Nat) : (tFullStep n).bytes tEmbDesc = n * embEntry tEmbDesc false := by
    simp only [OpenStep.bytes, tFullStep, List.length_replicate, List.length_nil, Nat.zero_mul, Nat.add_zero]
  refine ⟨2 ^ 29 + 1, ?_⟩
  rw [t_combine, h]
  have := Nat.le_mul_of_pos_right (2 ^ 29 + 1) he
  omega
theorem witness_duplicate_and_late : let t := { tTab [0] with seen := [(1, 4, 0)] }
    (1, 4, 0) ∈ t.seen ∧ (1, 2, 0) ∉ t.seen ∧ 2 ≤ t.applied ∧ fieldOf (embHeader 3 5 1 0 0 0x77 2 9 0 0 0 0) 0x10 8 = 2
      ∧ bitAt (fieldOf (embHeader 3 5 1 0 0 0x77 2 9 0 0 0 0) 0x1E 1) 0 = false := by decide +kernel
theorem test_late_part_counted : let s := tAfter (tEmb tLookup (tTab [0]) [] []) (.update (embHeader 3 5 1 0 1 0x77 2 9 0 0 0 0 ++ leBytes 64 2))
    s.counter 0xC0040 = 1 ∧ s.embed.tally.map (fun y => (y.src, y.batch, y.accepted, y.dropped, y.late)) = [(1, 9, 0, 1, true)] := by decide +kernel
def tUpdX : Exchange := { tX with update := true, asked := [], owners := [(1, 1)] }
theorem witness_update_ack : let s := tEmb (tUpdCmd 4) (tTab [1]) [] [tUpdX]
    let m := embHeader 4 5 1 0 0 tDig 4 9 0 0 1 0
    s.takes 4 m = true ∧ s.embed.waiting.find? (fun y => y.update && y.batch == fieldOf m 0x18 4 && has (fun o => o.1 == fieldOf m 2 1) y.owners) = some tUpdX
      ∧ (embDigest tUpdX.desc).toNat = fieldOf m 8 8
      ∧ (tAfter s (.updateAck m)).cmds.length = 0 := by decide +kernel
def tOpen (n : Nat) (closes : List Nat) : OpenStep :=
  { step := n, lr := 0x3F800000, participants := 3, closes := closes, sums := [(0, 2, [0x3F000000, 0, 0, 0])], rows := [], shed := [] }
theorem witness_step_due : let s := tEmb tLookup (tTab [0]) [] []
    s.stepDue { tTab [0] with steps := [tOpen 6 [], tOpen 4 []] } = some (tOpen 4 []) ∧ s.stepDue { tTab [0] with steps := [tOpen 4 [0]] } = none
      ∧ s.stepDue { tTab [0] with steps := [tOpen 4 [0, 1]] } = some (tOpen 4 [0, 1]) := by decide +kernel
/-- SGD with a learning rate of 1.0 takes 0.5 from 1.0. -/
theorem test_sgd : (embApply tEmbDesc (ofF32 0x3F800000) tRow [0x3F000000, 0, 0, 0]).w = [0x3F000000, 0, 0, 0] := by decide +kernel
def tGen1 : EmbGen := { step := 4, remap := [0], emptySlots := [], rows := [tRow] }
def tCkpt : EmbTable := { tTab [0] with ckptDue := some tGen1 }
theorem witness_checkpoint : (tEmb tLookup tCkpt [] []).table? 5 = some tCkpt ∧ (tEmb tLookup tCkpt [] []).flash.stopped = false
    ∧ (tEmb tLookup tCkpt [] []).mediaRefuses = false
    ∧ ({ tEmb tLookup tCkpt [] [] with flash := { State.reset.flash with sealed := true } } : State).mediaRefuses = true := by decide +kernel
theorem t_ckpt_blocks (draw : Nat) : tCkpt.genBlocks draw (tCkpt.ckptGen + 1) tGen1 = [(.table 5 1 0, tierStored draw 0 0 1 (block64 (tGen1.bytes tEmbDesc)))] := by
  have h : ceilDiv (tGen1.bytes tEmbDesc).length 65536 = 1 := by decide +kernel
  have h0 : tCkpt.desc = tEmbDesc ∧ tCkpt.tenant = 1 ∧ tCkpt.number = 5 ∧ tCkpt.ckptGen = 0 := by decide +kernel
  simp [EmbTable.genBlocks, tierBlocksOf, h0.1, h0.2.1, h0.2.2.1, h0.2.2.2, h]
theorem witness_checkpoint_quota : let l := (tCkpt.genBlocks (tEmb tLookup tCkpt [] []).fresh (tCkpt.ckptGen + 1) tGen1)
    ((tEmb tLookup tCkpt [] []).tenant 1).t2.fits (sumNat (l.map (fun x => x.2.charge))) = true
      ∧ ∃ z, (tEmb tLookup tCkpt [] []).draw.mediaPuts 1 l = (z, 1) := by
  have hl : ((tEmb tLookup tCkpt [] []).tenant 1).t2.limit = 1000 ∧ ((tEmb tLookup tCkpt [] []).tenant 1).t2.used = 0 := by decide +kernel
  have hb : (block64 (tGen1.bytes tEmbDesc)).length ≤ 65536 := Nat.le_of_eq (block64_length _)
  have hc := (tierStored_bound (tEmb tLookup tCkpt [] []).fresh 0 0 1 hb).2
  simp only [t_ckpt_blocks]
  constructor
  · simp only [Quota.fits, hl.1, hl.2, List.map_cons, List.map_nil, sumNat, List.foldl_cons, List.foldl_nil, decide_eq_true_eq]
    omega
  · exact ⟨_, mediaPuts_one _ _ _ 0 0 1 (by decide +kernel) hb (by decide +kernel)⟩
/-- A quota of nothing holds no second generation. -/
theorem witness_checkpoint_skip : ∀ n, 0 < n → (⟨0, 0⟩ : Quota).fits n = false := by
  intro n h
  simp only [Quota.fits, decide_eq_false_iff_not]
  omega
theorem witness_checkpoint_done : let t := { tTab [0] with ckptNew := some tGen1 }
    (tEmb tLookup t [] []).table? 5 = some t ∧ ((tAfter (tEmb tLookup t [] []) (.embCheckpointDone 5)).table? 5).map (fun t => (t.ckpt.step, t.ckptGen)) = some (4, 1) := by
  decide +kernel
/-- 11 R279's hash is a permutation of its constants: a check at row 0 of table 0 with salt 0. -/
theorem test_hash_zero : embHash 0 0 0 = 0 := by decide

/-! ### Tiers and media (12, 13) -/

def tBlk (present dirty : Bool) : TBlock :=
  { tenant := 1, block := 2 ^ 31 + 5, kind := 6, number := 3, bytes := 65536, present := present, dirty := dirty, home := 2, lastUse := 0 }
def tTierBody (n : Nat) : List Byte := leBytes 8 (2 ^ 47 + 5 * 65536) ++ leBytes 8 n ++ leBytes 48 0
def tTier (op n : Nat) (x : TBlock) : State :=
  { tUnit 6 op (tTierBody n) [] with
    tenants := State.reset.tenants.set 1 tTen, tier := { State.reset.tier with blocks := [x] }, decks := [{ tDeck with va := BitVec.ofNat 64 (65536 * x.block) }]
    pt := tPages ++ [({ tenant := 1, level := 0, path := 2 ^ 31 + 5 }, 0x70003)] }
theorem witness_tier_blocks : let s := tTier 1 1 (tBlk false false)
    let u := tUi 6 1 (tTierBody 1)
    s.tierTurn tIk 1 = true ∧ s.issue? tIk = some u ∧ s.tierBlocks u = some [tBlk false false] ∧ s.tierBlocks (tUi 6 1 (tTierBody 2)) = none
      ∧ (s.tenant 1).t1.fits 65536 = true ∧ (s.tenant 1).t1.fits 0 = true ∧ s.frameStalls 1 (2 ^ 31 + 5) = false
      ∧ s.pageLost 1 (2 ^ 31 + 5) = false ∧ s.pageBad 1 (2 ^ 31 + 5) = false := by decide +kernel
theorem witness_tier_resident : (tTier 1 1 (tBlk true false)).tierBlocks (tUi 6 1 (tTierBody 1)) = some [tBlk true false]
    ∧ (tTier 2 1 (tBlk true true)).tierTurn tIk 2 = true ∧ (tTier 1 1 (tBlk true true)).tierTurn tIk 2 = false
    ∧ (tTier 2 1 (tBlk true true)).writebackRefused (tBlk true true) = false
    ∧ ((tAfter (tTier 2 1 (tBlk true true)) (.tierWriteback tIk)).tier.blocks.map (fun x => x.dirty)) = [false] := by decide +kernel
/-- The page a queued fetch is for is the queue's front. -/
def tFetching : State :=
  let s := tTier 1 1 (tBlk false false)
  { s with tier := { s.tier with queue := [(1, 2 ^ 31 + 5)] } }
theorem witness_demand : let s := tTier 1 1 (tBlk false false)
    s.block? 1 (2 ^ 31 + 5) = some (tBlk false false) ∧ s.up = true ∧ s.canon 1 (2 ^ 31 + 5) = 2 ^ 31 + 5 ∧ s.absentAt 1 (2 ^ 31 + 5) = true
      ∧ s.dieLost (bits (s.ptEntry 1 0 (65536 * (2 ^ 31 + 5))).toNat 10 9) = false ∧ s.tier.queue = []
      ∧ tFetching.tier.queue.head? = some (1, 2 ^ 31 + 5) ∧ tFetching.absentAt 1 (2 ^ 31 + 5) = true ∧ tFetching.frameStalls 1 (2 ^ 31 + 5) = false
      ∧ tFetching.pageLost 1 (2 ^ 31 + 5) = false ∧ tFetching.tierTurn tIk 1 = false := by decide +kernel
/-- A demand is queued; its completion charges the tenant and makes the block present. -/
theorem test_demand : let s := tAfter (tTier 1 1 (tBlk false false)) (.demandFetch 1 (2 ^ 31 + 5))
    s.tier.queue = [(1, 2 ^ 31 + 5)] ∧ (s.tenant 1).t1.used = 0 := by decide +kernel
theorem test_fetch_complete : let s := tAfter tFetching (.fetchComplete 1 (2 ^ 31 + 5) true)
    s.tier.queue = [] ∧ (s.tenant 1).t1.used = 65536 ∧ s.tier.blocks.map (fun x => x.present) = [true] := by decide +kernel
/-- The first line of the block's frame: frame 7 of M0. -/
def tLine : Nat := ((Space.t1 0).key (7 * 65536)) / 128
theorem witness_line_repair : let s := tTier 1 1 (tBlk true false)
    (s.bump 0xD0018).lineHolds tLine = .page 1 (2 ^ 31 + 5) ∧ (s.bump 0xD0018).lineHolds (tLine + 512) = .other
      ∧ ((s.bump 0xD0018).pageHolds 1 (2 ^ 31 + 5)) = .object { kind := 6, number := 3, tenant := 1, va := 2 ^ 47 + 5 * 65536, len := 6528 }
      ∧ (s.bump 0xD0018).sourceless 1 (2 ^ 31 + 5) = false ∧ (s.bump 0xD0018).pageLost 1 (2 ^ 31 + 5) = false := by decide +kernel
def tQuotaCmd (tier limit : Nat) : Cmd := tCmd 0x0303 [(0x10, 1, 1), (0x11, 1, tier), (0x14, 4, limit)]
theorem witness_quota : let s := tHost (tQuotaCmd 2 7)
    s.cmdAt 7 0x0303 0 = some (tQuotaCmd 2 7) ∧ (s.tenant 1).reset = none ∧ (s.tenant 1).live = true
      ∧ sumNat ((List.range 64).map (fun i => if i = 1 then 7 else (s.tenant i).t2.limit)) * 65536 ≤ s.variant.mediaBytes
      ∧ ((tAfter s (.quotaSet 7)).tenant 1).t2.limit = 7 := by decide +kernel
theorem witness_quota_bounds : let s := tHost (tQuotaCmd 1 0xFFFFFFFF)
    s.tier.assignable < sumNat ((List.range 64).map (fun i => if i = 1 then 0xFFFFFFFF else (s.tenant i).t1.limit))
      ∧ sumNat ((List.range 64).map (fun i => if i = 1 then 0 else (s.tenant i).t1.limit)) ≤ s.tier.assignable
      ∧ (tQuotaCmd 0 7).field 0x11 1 = 0 ∧ (tQuotaCmd 4 7).field 0x11 1 = 4 ∧ (tQuotaCmd 1 7).field 0x11 1 = 1 := by decide +kernel

def tMediaCmd (op off len buf : Nat) : Cmd := tCmd op [(0x10, 8, off), (0x18, 4, len), (0x20, 8, buf)]
def tMedia (op len buf : Nat) : State := tHost (tMediaCmd op 65536 len buf)
theorem witness_media_write : let s := tMedia 0x0801 64 0x1000
    s.Inv ∧ s.cmdAt 7 0x0801 0 = some (tMediaCmd 0x0801 65536 64 0x1000) ∧ s.mediaBlocked (tMediaCmd 0x0801 65536 64 0x1000) = false
      ∧ s.resolve 1 0x1000 64 64 = some (tKey 0x1000) ∧ s.flash.stopped = false ∧ s.mediaRefuses = false ∧ s.poisoned (tKey 0x1000) 64 = false
      ∧ ({ s with flash := { s.flash with sealed := true } } : State).mediaRefuses = true := by decide +kernel
theorem witness_media_quota : let s := tMedia 0x0801 64 0x1000
    (s.tenant 1).t2.used + tierCharges s.fresh 1 ≤ (s.tenant 1).t2.limit * 65536 + s.mediaCharge (isSpace 1 1) := by
  have hl : ((tMedia 0x0801 64 0x1000).tenant 1).t2.limit = 1000 ∧ ((tMedia 0x0801 64 0x1000).tenant 1).t2.used = 0 := by decide +kernel
  have := tierCharge_le (tMedia 0x0801 64 0x1000).fresh 0
  simp only [hl.1, hl.2, tierCharges_one]
  omega
theorem witness_media_range : let bad (off len : Nat) := off % 65536 ≠ 0 ∨ 2 ^ 48 < off + len ∨ len = 0 ∨ 2 ^ 30 < len
    bad 1 64 ∧ bad (2 ^ 48 - 65536) 65537 ∧ bad 65536 0 ∧ bad 65536 (2 ^ 30 + 1) ∧ ¬ bad (2 ^ 48 - 65536) 65536 ∧ ¬ bad 0 (2 ^ 30) := by decide
theorem witness_media_order : let c := { tMediaCmd 0x0801 65536 64 0x1000 with handle := 8 }
    ({ tMedia 0x0803 64 0 with cmds := (tMedia 0x0803 64 0).cmds ++ [c] } : State).mediaBlocked c = true := by decide +kernel
theorem witness_media_read : let s := tMedia 0x0802 64 0x1000
    s.cmdAt 7 0x0802 0 = some (tMediaCmd 0x0802 65536 64 0x1000) ∧ s.resolve 1 0x1000 (roundUp 64 64 + ceilDiv 1 8) 64 = some (tKey 0x1000)
      ∧ s.mediaLost (isSpace 1 1) = false ∧ (s.spaceBytes 1 65536 64).length = 64 ∧ (tAfter s (.mediaRead 7)).rd (tKey 0x1040) 1 = [1] := by decide +kernel
theorem witness_media_trim : let s := tMedia 0x0803 64 0
    s.cmdAt 7 0x0803 0 = some (tMediaCmd 0x0803 65536 64 0) ∧ s.mediaBlocked (tMediaCmd 0x0803 65536 64 0) = false
      ∧ (tAfter s (.mediaTrim 7)).cmds.length = 0 := by decide +kernel
theorem witness_unseal : let s := tMedia 0x0804 0 0
    s.cmdAt 7 0x0804 0 = some (tMediaCmd 0x0804 65536 0 0) ∧ s.flash.sealed = false ∧ s.variant.flashBlocks < 50 * s.flash.reserve s.variant := by
  decide +kernel
/-- With every die but one gone the reserve is below 2%. -/
theorem witness_unseal_refused : let f := { State.reset.flash with sealed := true, dies := [(.good, 0)] }
    f.sealed = true ∧ 50 * f.reserve .v9720 ≤ Variant.flashBlocks .v9720 := by decide +kernel

theorem witness_journal (r : JRec) : (List.replicate (512 * Variant.flashChannels .v9720) r).length = 512 * Variant.flashChannels .v9720
    ∧ tUp.variant = .v9720 ∧ tUp.flash.stopped = false ∧ 2 ^ 30 ≤ ({ tUp.flash with sinceCkpt := 2 ^ 30 } : Flash).sinceCkpt :=
  ⟨List.length_replicate, by decide +kernel, by decide +kernel, Nat.le_refl _⟩
def tFlash : State := { tUp with flash := { tUp.flash with map := [(9, .at 4097)] } }
theorem witness_nand_read : tFlash.flash.map.find? (fun x => x.1 == 9) = some (9, .at 4097) := by decide +kernel
theorem test_lost_page : (tAfter tFlash (.nandReadDone 9 .lost 2)).flash.map = [(9, .lost)] ∧ (tAfter tFlash (.nandReadDone 9 .lost 2)).counter 0xE0044 = 1
    ∧ (tAfter tFlash (.nandReadDone 9 .lost 2)).counter 0xE003C = 2 := by decide +kernel
theorem witness_flash : tUp.Inv ∧ tUp.flash.eligible .v9720 0 = true ∧ (tUp.flash.blk 0).use ≠ .retired ∧ 0 < tUp.flash.dies.length
    ∧ (tUp.flash.die 0).1 = .good ∧ tUp.flash.backWork = false ∧ tUp.flash.stopped = false
    ∧ ({ tUp with flash := { tUp.flash with folding := true } } : State).flash.backWork = true ∧ tUp.flash.patEarly = [] ∧ tUp.flash.eligible .v9720 4095 = false := by decide +kernel
theorem witness_rebuilding : let s := tAfter tUp (.dieFail 0)
    (s.flash.die 0).1 = .rebuilding ∧ s.flash.stopped = false ∧ s.flash.folding = false ∧ ((tAfter s (.dieRebuildDone 0)).flash.die 0).1 = .failed := by decide +kernel
theorem witness_holdup : ({ tUp with flash := { tUp.flash with stopped := true } } : State).flash.stopped = true
    ∧ (tAfter { tUp with flash := { tUp.flash with stopped := true, journal := [{ seq := 0, kind := 1, a := 9, b := 0, crc := 0 }] } } .holdupFlush).flash.durable.length = 1 := by decide +kernel

/-! ### Failure (15) -/

theorem witness_firmware : tUp.fwRuns = true ∧ sparseWf 0 0 tUp.flt.gens = true ∧ 0 < (tUp.flt.cluster false).kitty ∧ tUp.flt.standbyOk = false
    ∧ tUp.flt.activeB = false ∧ tUp.flt.failedResets < 2 ∧ tUp.generation 0 < 5 ∧ ¬ 0 < tUp.generation 0 ∧ (8191 : Nat) / 4096 ≤ 8 := by decide +kernel
theorem witness_generation : ({ tUp with flt := { tUp.flt with gens := [(0, 7)] } } : State).generation 0 = 7 := by decide +kernel
theorem test_takeover : let r := tAfter tUp (.clusterReady 1)
    let s := tAfter r (.clusterWatchdog 0)
    r.flt.standbyOk = true ∧ s.flt.activeB = true ∧ s.flt.standbyOk = false ∧ (tAfter s (.clusterReady 0)).flt.standbyOk = true := by decide +kernel
theorem test_core_watchdog : (tAfter tUp (.coreWatchdog 1 3)).generation (holderId 4 11) = 1 := by decide +kernel
theorem test_refused_fence : (tAfter { tUp with flt := { tUp.flt with gens := [(0, 7)] } } (.fence 0 6)).counter 0xF0030 = 1 := by decide +kernel
theorem witness_unit_hang : let s := tUnit 2 1 tTopk tKeys
    s.fwRuns = true ∧ s.fitted 6 = true ∧ s.unitBusy 6 = true ∧ s.flt.units.length = 0 ∧ s.flt.sLost = false
      ∧ (tAfter s (.unitWatchdog 6)).issues.map (fun u => u.recovered) = [true] := by decide +kernel
theorem witness_channel : 33 / 32 < tUp.tier.dies.length ∧ 33 % 32 < tUp.variant.channels 1 ∧ tUp.dieLost 1 = false
    ∧ (tUp.tier.dies.getD 1 { lost := [], homing := [], beyond := 0 }) = { lost := [], homing := [], beyond := 0 } := by decide +kernel
theorem witness_die_loss : tUp.variant.seatFitted 88 = true ∧ tUp.cmds = [] ∧ tUp.invs = [] ∧ tUp.serving.reqs = [] ∧ tUp.pipes = []
    ∧ tUp.variant ≠ .v9706 ∧ tUp.flt.sLost = false ∧ sparseWf 0 0 tUp.flt.phasesLost = true := by decide +kernel
theorem test_phase_and_converter : let s := { tUp with flt := { tUp.flt with phasesLost := [(2, 2)], converters := 1 } }
    (tAfter s (.phaseLoss 2)).power.activeW = 400 ∧ (tAfter s (.phaseLoss 1)).power.activeW = 950 ∧ (tAfter s .converterLoss).power.activeW = 640 := by
  decide +kernel

/-! ### Links and the cell (16) -/

/-- Member 0 of the cell of members 0 and 1, with link 0 to member 1 in some state. -/
def tCell (y : Link → Link) (z : Cell → Cell) : State :=
  { tUp with
    cell := z { State.reset.cell with
      actEnable := true, actMember := 0, actCellId := 4, members := 3, epoch := 5
      links := State.reset.cell.links.set 0 (y { Link.idle true with mode := .up, laneA := true, laneB := true, peer := 1, peerSerial := 7, first := .firstLeg }) } }
def tHb : List Byte := leBytes 2 4 ++ [1, 4] ++ leBytes 4 5 ++ leBytes 16 3 ++ leBytes 2 tUp.variant.deviceId ++ leBytes 6 0 ++ leBytes 8 7
theorem witness_train : let s := tCell (fun k => { k with mode := .training }) id
    s.up = true ∧ 0 < s.cell.links.length ∧ s.powered 80 = true ∧ (s.link 0).mode = .training ∧ s.judgeLink tHb = .up ∧ fieldOf tHb 2 1 = 1
      ∧ s.judgeLink (leBytes 2 5 ++ tHb.drop 2) = .rejected := by decide +kernel
theorem test_one_lane_is_degraded : ((tAfter (tCell (fun k => { k with mode := .training }) id) (.linkTrained 0 1 tHb)).link 0).mode = .degraded
    ∧ ((tAfter (tCell (fun k => { k with mode := .training }) id) (.linkTrained 0 2 tHb)).link 0).mode = .up := by decide +kernel
theorem witness_down : ((tCell (fun k => { k with mode := .down }) id).link 0).mode = .down := by decide +kernel
theorem witness_lanes : let s := tCell id id
    (s.link 0).trained = true ∧ (s.link 0).laneA = true ∧ (s.link 0).laneB = true := by decide +kernel
theorem test_heartbeats_missed : let s := tAfter (tCell (fun k => { k with missed := 2 }) id) (.heartbeatTimeout 0)
    s.counter (linkReg 0 0x10) = 1 ∧ (s.link 0).mode = .training := by decide +kernel
def tSpare : State := tCell (fun k => { k with mode := .degraded, laneA := false, offered := true, peerOffered := true }) id
theorem witness_spare : (tSpare.link 0).mode = .degraded ∧ (tSpare.link 0).offered = true ∧ (tSpare.link 0).peerOffered = true
    ∧ ((tAfter tSpare (.spareTrained 0)).link 0).mode = .up ∧ (tAfter tSpare (.spareTrained 0)).counter 0x10002C = 1
    ∧ ((tCell (fun k => { k with mode := .degraded }) id).link 0).offered = false := by decide +kernel
theorem witness_membership : let s := tCell id id
    s.cell.actEnable = true ∧ fieldOf (membershipBytes 6 7 0 2) 0 4 = 6 ∧ fieldOf (membershipBytes 5 7 0 2) 0 4 ≤ s.cell.epoch ∧ s.cell.epoch < 6
      ∧ (tAfter s (.membership (membershipBytes 6 7 0 2))).cell.members = 7 ∧ (tAfter s (.membership (membershipBytes 5 7 0 2))).counter 0x100034 = 1 := by
  decide +kernel
/-- Member 1 where member 0 coordinates and no link goes to member 2. -/
def tFollower : State := tCell (fun k => { k with peer := 0 }) (fun c => { c with actMember := 1, members := 7 })
theorem witness_peer_lost : tFollower.cell.members.getLsbD 2 = true ∧ tFollower.routeTo 2 = none ∧ tFollower.coordinates = false
    ∧ 2 ∉ tFollower.cell.lostMembers ∧ (tFollower.updCell (fun c => { c with lostMembers := c.lostMembers ++ [2] })).coordinates = false
    ∧ (tAfter tFollower (.peerLost 2)).cell.lostMembers = [2] := by decide +kernel
theorem witness_leave : (tCell id id).coordinates = true ∧ (tCell id id).cell.members.getLsbD 1 = true
    ∧ (tAfter (tCell id id) (.leave 1)).cell.members = 1 := by decide +kernel
theorem witness_knock : 35 < tUp.variant.links ∧ ({ tUp with power := { tUp.power with phase := .fold } } : State).power.phase = .fold
    ∧ tUp.power.phase ≠ .fold ∧ (tAfter { tUp with power := { tUp.power with phase := .fold } } (.knock 9)).power.wakeLink = 9 := by decide +kernel

/-- A DATA frame of class TRUMP from member 1, whole, with SEQ 0. -/
def tFrame (ty : Nat) : List Byte := linkFrame ty 12 1 0 0 65535 0 [1, 2, 3]
theorem witness_frame : let s := tCell id id
    s.up = true ∧ (s.link 0).trained = true ∧ frameOk (tFrame 0) = true ∧ frameOk ((tFrame 0).set 20 9) = false ∧ (s.link 0).nakSent = false := by
  decide +kernel
theorem witness_frame_types : (∀ t < 4, frameType (tFrame t) = t) ∧ frameSeq (tFrame 0) = ((tCell id id).link 0).recvSeq ∧ frameClass (tFrame 0) ≠ 3
    ∧ frameBit (tFrame 0) 5 = false ∧ ((tCell id id).link 0).first.trump ≠ 0 := by decide +kernel
theorem test_bad_frame_one_nak : let s := tAfter (tCell id id) (.data 0 ((tFrame 0).set 20 9))
    s.out.length = 1 ∧ (s.link 0).nakSent = true ∧ s.counter (linkReg 0 4) = 1 ∧ (tAfter s (.data 0 ((tFrame 0).set 20 9))).out.length = 1 := by decide +kernel
theorem test_good_frame_moves_seq : ((tAfter (tCell id id) (.data 0 (tFrame 0))).link 0).recvSeq = 1
    ∧ ((tAfter (tCell id id) (.heartbeat 0 (linkFrame 2 0 1 0 0 65535 0 tHb))).link 0).heard = true := by decide +kernel

/-! ### The host attachment (17) -/

/-- A module whose port is trained to x16 in CXL 3.1 mode, with a window of 16 GiB. -/
def tPort : State :=
  { tUp with cxl := { tUp.cxl with mode := .cxl31, width := 16, rate := 2, configReady := true, memActive := true, activeGib := 16 } }

theorem witness_config : tPort.powered 79 = true ∧ tPort.cxl.perst = false ∧ tPort.cxl.configReady = true ∧ tUp.cxl.configReady = false := by decide +kernel
theorem test_config : ∃ w, (tAfter tPort (.configRequest 8)).out = [.config 8 (some w)] ∧ w.toNat / 256 = 0x120000 := by
  refine ⟨_, rfl, ?_⟩
  show (BitVec.ofNat 32 (0x120000 * 256 + (Config.configSpace 8).toNat % 256)).toNat / 256 = 0x120000
  rw [BitVec.toNat_ofNat]
  omega
theorem witness_perst : tUp.power.phase ≠ .fold ∧ ({ tUp with cxl := { tUp.cxl with perst := true } } : State).cxl.perst = true ∧ tUp.power.phase = .running
    ∧ (tAfter { tUp with power := { tUp.power with phase := .fold } } .perstAssert).power.wakeCause = 2 := by decide +kernel
theorem witness_port : tPort.portUp = true ∧ tPort.memPort = true ∧ tUp.cxl.width = 0 ∧ cxlTrains .cxl31 16 2 = true ∧ cxlTrains .cxl31 16 1 = false
    ∧ cxlTrains .pcie 4 3 = true ∧ tPort.hdmBytes = 16 * 2 ^ 30 := by decide +kernel
theorem test_host_resets : (tAfter tPort .cxlHotReset).power.kind = 6 ∧ (tAfter tPort .linkDown).counter 0x110010 = 1 ∧ (tAfter tPort .flr).cxl.width = 16 := by
  decide +kernel
theorem witness_hdm : tPort.cxl.memActive = true ∧ 64 + 4 ≤ tPort.hdmBytes ∧ tPort.cxl.flip = none ∧ tPort.cxl.devicePages = []
    ∧ tPort.poisoned (Space.hdm.key 64) 4 = false ∧ tPort.Inv
    ∧ ({ tPort with cxl := { tPort.cxl with memActive := false } } : State).memPort = true
    ∧ ({ tPort with tier := { tPort.tier with poison := [Space.hdm.key 0 / 128] } } : State).poisoned (Space.hdm.key 64) 4 = true := by decide +kernel
theorem test_hdm : (tAfter tPort (.hdmWrite 64 [1, 2, 3, 4])).rd (Space.hdm.key 65) 2 = [2, 3]
    ∧ (tAfter tPort (.hdmRead 64 4)).out = [.mem 64 [0, 0, 0, 0] false] ∧ (tAfter tPort (.hdmRead (2 ^ 34 - 4) 5)).out = [] := by decide +kernel
theorem witness_flip : ({ tPort with cxl := { tPort.cxl with flip := some (3, true) } } : State).cxl.flip = some (3, true)
    ∧ (tAfter { tPort with cxl := { tPort.cxl with flip := some (3, true) } } .biasFlipDone).cxl.devicePages = [3] := by decide +kernel
theorem witness_unmask : tPort.power.ready = true ∧ 31 ∉ tPort.cxl.unmasked
    ∧ (tAfter { tPort with cxl := { tPort.cxl with pendingVec := [31] } } (.msixVectorUnmask 31)).out = [.msix 31] := by decide +kernel
theorem witness_host_reject : ((tOp 0x0604 []).queue 1 0).isSome = true ∧ (tOp 0x0604 []).cmd? 7 = some (tCmd 0x0604 [])
    ∧ ((tAfter (tOp 0x0604 []) (.hostReject (.sqRead 1 0))).tenant 1).faulted = true := by decide +kernel
theorem witness_ide : ({ tPort with cxl := { tPort.cxl with ideKeys := some [] } } : State).cxl.ideKeys ≠ none := by decide +kernel

/-- The mailbox with SPDM at a step and a session. -/
def tSpdm (step session : Nat) : State := { tPort with sec := { tPort.sec with spdmStep := step, session := session } }
theorem witness_spdm : (tSpdm 3 2).doeUp = true ∧ 3 ≤ (tSpdm 3 2).sec.spdmStep ∧ (tSpdm 3 1).sec.session = 1 ∧ (tSpdm 3 2).sec.session = 2
    ∧ (tSpdm 2 0).sec.spdmStep < 3 ∧ (tSpdm 3 2).cxl.mode ≠ .pcie := by decide +kernel
theorem test_spdm : (tAfter (tSpdm 3 2) .getVersion).sec.spdmStep = 1 ∧ (tAfter (tSpdm 2 0) (.negotiateAlgorithms 5)).out = [.spdm 0x63 [5]]
    ∧ (tAfter (tSpdm 2 0) .getDigests).out = [.spdm 0x7F []] := by decide +kernel
/-- FIPS 180-4's digest of the empty message begins E3 B0 C4 42. -/
theorem test_sha256 : (sha256 []).take 4 = [0xE3, 0xB0, 0xC4, 0x42] := by decide +kernel

/-! ### Firmware and the dump (20, 23) -/

/-- A firmware image without payload. -/
def tFw : List Byte :=
  leBytes 4 0x57464D55 ++ leBytes 4 9 ++ [0, 0] ++ leBytes 2 0 ++ leBytes 4 0 ++ sha256 [] ++ leBytes 64 0 ++ leBytes 128 0 ++ leBytes 16 0
def tStage : State := { tOp 0x0B01 [(0x10, 8, 0x1000), (0x18, 4, 256)] with mem := (State.reset.wr (tKey 0x1000) tFw).mem }
theorem witness_fw_stage : tStage.cmdAt 7 0x0B01 0 = some (tCmd 0x0B01 [(0x10, 8, 0x1000), (0x18, 4, 256)])
    ∧ tStage.resolve 1 0x1000 256 1 = some (tKey 0x1000) ∧ tStage.poisoned (tKey 0x1000) 256 = false ∧ fieldOf tFw 0xC 4 = 0 ∧ tFw.length = 256
    ∧ tStage.activating = false ∧ tStage.sec.probation = false ∧ (tStage.sec.imageOk (tFw.set 0 0)).1 = false := by decide +kernel
/-- Every check but the signature's, whose outcome Config leaves open. -/
theorem witness_fw_signed (h : Config.verifies 0 (tFw.take 0x30) ((tFw.drop 0x30).take 64) = true) : (tStage.sec.imageOk tFw).1 = true := by
  unfold Security.imageOk
  simp only [h]
  decide +kernel
def tActivate : State :=
  { tOp 0x0B02 [] with sec := { State.reset.sec with staged := true, slot1 := some { FwImage.shipped with version := 9 } }, flt := { State.reset.flt with standbyOk := true } }
theorem witness_fw_activate : tActivate.cmd? 7 = some (tCmd 0x0B02 []) ∧ tActivate.sec.stagedImage = some { FwImage.shipped with version := 9 }
    ∧ tActivate.sec.erasing = false ∧ tActivate.recovering = false ∧ (tActivate.sec.slotOk (some { FwImage.shipped with version := 9 })).1 = true
    ∧ ({ tActivate with flt := State.reset.flt } : State).recovering = true ∧ (tOp 0x0B02 []).sec.stagedImage = none := by decide +kernel
theorem test_fw_activate : let s := tAfter tActivate (.fwActivate 7 true)
    s.sec.probation = true ∧ s.sec.activeSlot = true ∧ s.sec.running.map (fun i => i.version) = some 9 ∧ s.flt.activeB = true ∧ s.cmds.length = 0 := by
  decide +kernel
theorem witness_probation : let s := { tUp with sec := { tUp.sec with probation := true, running := some { FwImage.shipped with svn := 5 } } }
    s.fwRuns = true ∧ s.sec.probation = true ∧ (tAfter s .probationPass).sec.svnFuse = 5 := by decide +kernel
theorem witness_debug : ({ tUp with sec := { tUp.sec with erasing := true } } : State).activating = false ∧ tUp.fwRuns = true := by decide +kernel
theorem witness_fatal : tUp.alwaysOn = true ∧ tUp.power.phase = .running ∧ (tAfter tUp (.fatalError 4)).power.phase = .fatal
    ∧ (tAfter tUp (.fatalError 6)).power.phase = .running := by decide +kernel
def tDump (n : Nat) : State :=
  { tOp 0x0A01 [(0x18, 4, 64), (0x20, 8, 0x3000)] with dump := { State.reset.dump with valid := true, image := List.replicate n 9 } }
theorem witness_dump_read : (tDump 10).cmdAt 7 0x0A01 0 = some (tCmd 0x0A01 [(0x18, 4, 64), (0x20, 8, 0x3000)])
    ∧ (tDump 10).resolve 1 0x3000 64 1 = some (tKey 0x3000) ∧ (tDump 10).dump.valid = true ∧ (tDump 10).dump.image.length = 10
    ∧ (tDump 0).dump.image.length ≤ 0 ∧ State.reset.dump.valid = false ∧ (tDump 10).smbusServed = true
    ∧ (tAfter (tDump 10) (.dumpRead 7)).rd (tKey 0x3009) 2 = [9, 0] := by decide +kernel

/-! ### Supply, heat, sideband (19, 22) -/

/-- A module in a phase. -/
def tPh (p : Phase) (f : Power → Power) : State := { tUp with power := f { tUp.power with phase := p } }
theorem witness_supply : (tPh .unpowered id).power.phase = .unpowered ∧ (tPh .brownOut id).power.resetTrip = false ∧ (tPh .running (fun p => { p with dip := 1 })).power.dip = 1
    ∧ (tPh .running (fun p => { p with dip := 2 })).power.dip = 2 ∧ (tPh .running (fun p => { p with dip := 3 })).power.dip = 3
    ∧ (tPh .fold id).power.phase = .fold := by decide +kernel
theorem test_supply : (tAfter tUp .uvWarn).power.uvLevel = 4 ∧ (tAfter (tAfter tUp .uvWarn) .uvRelease).power.uvLevel = 8
    ∧ (tAfter (tAfter (tAfter tUp .uvWarn) .uvRelease) .issueLevelStep).power.uvLevel = 12 ∧ (tAfter (tPh .unpowered id) .powerOn).power.kind = 1
    ∧ (tAfter tUp .brownOut).power.phase = .brownOut := by decide +kernel
theorem test_cap_window : (tAfter tUp (.capWindow 48000 951)).power.capLevel = tUp.power.capLevel - 1 ∧ tUp.power.activeW = 950
    ∧ (tAfter { tUp with power := { tUp.power with capLevel := 9 } } (.capWindow 48000 921)).power.capLevel = 10
    ∧ (tAfter { tUp with power := { tUp.power with capLevel := 9 } } (.capWindow 48000 922)).power.capLevel = 9 := by decide +kernel
theorem test_thermal_window : let s := { tUp with power := { tUp.power with thermalLevel := 9 } }
    (tAfter s (.thermalWindow [105, 20])).power.thermalLevel = 7 ∧ (tAfter s (.thermalWindow [101, 20])).power.thermalLevel = 10
      ∧ (tAfter s (.thermalWindow [104, 20])).power.thermalLevel = 9 := by decide +kernel
theorem witness_trip : (tAfter tUp .thermalTrip).power.phase = .tripped ∧ (tPh .tripped id).power.heldReset = none ∧ (tPh .tripped id).power.cooled = false
    ∧ (tPh .tripped (fun p => { p with heldReset := some 5 })).power.heldReset = some 5 ∧ (tPh .tripped (fun p => { p with cooled := true })).power.cooled = true := by
  decide +kernel
theorem witness_domain_switch : let s := tPh .running (fun p => { p with switches := [(5, false)] })
    s.fwRuns = true ∧ s.power.switches = (5, false) :: [] ∧ (tAfter s .domainSwitch).powered 5 = false ∧ (tAfter s .domainSwitch).powered 4 = true := by decide +kernel
theorem witness_bring_up : State.reset.power.phase = .bringUp ∧ State.reset.power.dip = 0 ∧ State.reset.power.kind ≠ 4 ∧ State.reset.sec.activeSlot = false
    ∧ (State.reset.sec.slotOk State.reset.sec.slot0).1 = true
    ∧ (({ State.reset.sec with slot0 := none } : Security).slotOk none).1 = false ∧ (State.reset.sec.slotOk State.reset.sec.slot1).1 = false := by decide +kernel
theorem witness_sensors : tUp.smbusServed = true ∧ tUp.power.phase ≠ .fatal ∧ ({ tUp with mgmt := { tUp.mgmt with events := [0x72] } } : State).mgmt.events = 0x72 :: []
    ∧ (tPh .bootStopped id).power.phase = .bootStopped ∧ tFw.length ≤ 2 ^ 26 ∧ tUp.mgmt.aliveStopped = false ∧ tUp.power.phase ≠ .unpowered := by decide +kernel
theorem test_sideband : (tAfter tUp (.sensorPoll [48000, 10])).mgmt.sensors.take 2 = [48000, 10]
    ∧ (tAfter { tUp with mgmt := { tUp.mgmt with events := [0x72] } } (.pldmMonitorRead 0)).out = [.pldm [0, 0x72, 0, 0, 0]]
    ∧ (tAfter tUp .aliveToggle).mgmt.alive = !tUp.mgmt.alive ∧ (tAfter tUp .extest).mgmt.jtag = .bypass := by decide +kernel
theorem witness_hard_reset : tUp.seats.length = 176 ∧ tUp.colls = [] ∧ tUp.Inv := by decide +kernel
theorem test_hard_reset : let s := { tUp with flt := { tUp.flt with sticky := 3 }, power := { tUp.power with commits := 4 } }
    (s.hardReset 5 false false).flt.sticky = 3 ∧ (s.hardReset 1 false false).flt.sticky = 0 ∧ (s.hardReset 1 false false).power.commits = 4 := by decide +kernel

/-! ### The remaining premises -/

/-- A descriptor header at seat offset 64 for MELD, TOPK, with a body of 64 bytes and its record at T1 address 0x8000. -/
def tHead : List Byte := [2, 1] ++ leBytes 2 0 ++ leBytes 4 64 ++ leBytes 8 0x8000 ++ leBytes 8 9 ++ leBytes 8 0
def tSend : State := tOf tCtx (State.reset.wr ((Space.seat 0).key 64) tHead).mem
theorem witness_uissue : (tCtx.rs 4).toNat = 64 ∧ tSend.rd ((Space.seat 0).key 64) 32 = tHead ∧ tCtx.units.length < 32
    ∧ (tSend.seat 0).badIn 64 32 = [] ∧ (tSend.seat 0).badIn 96 64 = [] ∧ tSend.hostAccepts 0x8000 16 = true ∧ tSend.fitted (unitBit 2) = true
    ∧ tSend.unitOut (unitBit 2) = false ∧ tSend.flt.sLost = false ∧ 1 ≤ unitOps 2 ∧ tSend.xlat 1 false .store 0x8000 = .ok 0x8000 := by decide +kernel
theorem test_uissue : (tAfter tSend (.uissue tIss 1 4)).issues.map (fun u => (u.unit, u.op, u.done.toNat, u.body.length)) = [(2, 1, 0x8000, 64)]
    ∧ (tK tSend (.uissue tIss 1 4)).units = [0] ∧ (tAfter tThr (.uissue tIss 1 4)).flt.kfault.map (fun r => r.kind) = some 2 := by decide +kernel
theorem witness_lanes_fit : (∀ l, (fun _ : Nat => 0) l < 2 ^ laneBits .fp32) ∧ 0 < laneCount .fp32 := ⟨fun _ => Nat.two_pow_pos _, by decide⟩
/-- 15 · 2^5 and 7 · 2^14 pass the greatest numbers of the formats. -/
theorem witness_drain_overflow : let up (_ _ _ : Nat) : Bool := false
    Fmt.e4m3.maxCode < Fmt.e4m3.roundMag up 16 5 ∧ Fmt.e5m2.maxCode < Fmt.e5m2.roundMag up 7 14 := by decide +kernel
/-- PROBE of list 0 for the best entry. -/
def tProbe : List Byte := leBytes 2 9 ++ leBytes 2 1 ++ leBytes 2 1 ++ leBytes 2 0 ++ leBytes 8 0x1000 ++ leBytes 8 0x1800 ++ leBytes 8 0 ++ leBytes 8 0x2000 ++ leBytes 24 0
def tProber : State := { tUnit 1 1 tProbe [] with colls := [tColl] }
theorem witness_probe : tProber.issue? tIk = some (tUi 1 1 tProbe) ∧ tProber.seatSearch = false
    ∧ tProber.colls.find? (fun y => y.number == fieldOf tProbe 0 2 && y.tenant == 1
        && (match y.evicting with | none => true | some e => e.issues.contains tIk)) = some tColl
    ∧ bodyTailZero (tUi 1 1 tProbe) 0x28 = true ∧ tProber.searchTrouble tColl 1 1 0 false = none
    ∧ tProber.unitCheck (tUi 1 1 tProbe) .load 0x1000 16 4 = .ok ∧ tProber.unitCheck (tUi 1 1 tProbe) .load 0x1800 4 4 = .ok
    ∧ tProber.unitCheck (tUi 1 1 tProbe) .store 0x2000 48 8 = .ok ∧ 0 < tDesc05.lists
    ∧ (tDesc05.prepare 0 ([0, 0, 0, 0].map ofF32)).isSome = true := by decide +kernel
/-- One record of a vector and no text at 0x1000. -/
def tInsCmd : Cmd := tCmd 0x0402 [(0x10, 2, 9), (0x14, 4, 1), (0x18, 4, 0xFFFFFFFF), (0x20, 8, 0x1000), (0x28, 8, 48)]
def tIns : State := { tHost tInsCmd with colls := [tColl], hands := State.reset.hands.set 0 tHand }
theorem witness_insert : tIns.cmdAt 7 0x0402 0 = some tInsCmd ∧ tIns.epochBlocked tInsCmd = false ∧ tIns.collFor 1 7 9 = some tColl
    ∧ tIns.coll? 9 = some tColl ∧ (tIns.handFor 1 7 0).isSome = true ∧ tIns.resolve 1 0x1000 48 64 = some (tKey 0x1000)
    ∧ recordOffsets (tIns.rd (tKey 0x1000) 48) 4 1 0 = some ([0], 48) ∧ 48 ≤ roundUp 48 64 ∧ tIns.noSeats = false
    ∧ tIns.poisoned (tKey 0x1000) 48 = false := by decide +kernel

/-- PIPE_QUERY with GENERATE: its block is GEN_START's of tGen. -/
def tPipeGen : State :=
  let c := tCmd 0x0501 [(0x10, 2, 9), (0x14, 2, 1), (0x16, 2, 4), (0x20, 8, 0x1000), (0x30, 8, 0x2000), (0x38, 8, 0x5000), (0x48, 4, 1)]
  { tPiped 0 with pipes := [], cmds := [c], models := [tModel 6 1], mem := ((State.reset.wr (tKey 0x1000) [65]).wr (tKey 0x5000) tGenBlock).mem }
theorem witness_pipe_generate : (tPipeGen.genRead 1 0x5000).getLeft? = some tGenBlock ∧ tPipeGen.genBad 1 7 tGenBlock = false
    ∧ tPipeGen.tooWide (genParams tGenBlock).topK = false ∧ ((tPipeGen.modelFor 1 7 6).filter (fun m => m.kind == 1)).map (fun m => mdlDeck m.image) = some 3
    ∧ packDeck tPack = 3 := by decide +kernel
/-- A boundary of a hand whose tenant is being reset, and of one whose freeing is due. -/
theorem witness_boundary_reset : let s := tHeld (tCmd 0 []) id id
    ({ s with tenants := s.tenants.modify 1 (fun t => { t with reset := some { destroy := false, leaveAbsent := false, cmds := [] } }) } : State).up = true
      ∧ ((tAfter { s with tenants := s.tenants.modify 1 (fun t => { t with reset := some { destroy := false, leaveAbsent := false, cmds := [] } }) }
          (.trickBoundary 0)).hand 0).valid = false := by decide +kernel
/-- 90% of an average of 1,000 cells holds a load of 800 up. -/
theorem test_steady_fills : let s := tHeld (tCmd 0 []) (fun y => { y with steady := { y.steady with on := true, average := 1000 } }) id
    let z := ((tAfter s (.steadyLoadWindow 0 950 0)).seat 0).steady
    z.dummy = 0 ∧ z.rate = 10 ∧ (tAfter s (.steadyLoadWindow 0 0 3600) |>.seat 0).steady.gapped = true := by decide +kernel

/-! ### Waiting, turns and residency -/

/-- A line of T1 on a channel in transit, and on no such channel. -/
def tTransit : State :=
  { tOf tCtx tMem with tier := { tThr.tier with dies := [{ lost := [], homing := [Config.channelOf 0 (64 % 2 ^ 64 / 128)], beyond := 0 }] } }
theorem witness_transit : tTransit.underHoming 64 = true ∧ (tOf tCtx tMem).underHoming 64 = false ∧ (tOf tCtx tDma).dmaHoming tInv 0 (dmaOf 0 (tThr.rd 0 32)) = false := by
  refine ⟨?_, by decide +kernel, by decide +kernel⟩
  simp [State.underHoming, tTransit]
/-- A DMA that writes address 64. -/
def tDmaOut : Dma := { ticket := 0, src := 0, dst := 64, length := 64, srcAddr := false, dstAddr := true, zero := false, decomp := false }
theorem witness_dma_transit : tTransit.dmaHoming tInv 0 tDmaOut = true := by
  have h : tTransit.dmaSources tInv 0 tDmaOut = [] ∧ tTransit.dmaTargets tInv tDmaOut = [64] := by decide +kernel
  simp [State.dmaHoming, h.1, h.2, witness_transit.1]
/-- A word that a context wrote since the DMA, and one it did not. -/
theorem witness_stored_words : let x : Seat := { tSeat with badWords := [132, 136], dmaLines := [(2, 64)], storedWords := [136] }
    ∃ w ∈ x.badIn 128 64, w ∉ x.storedWords := by decide +kernel
/-- Context 1 waits with an MRUN or an MDRAIN at place 0: context 0 is behind it at place 1 and not at place 0. -/
theorem witness_turns : let x (drain : Bool) : Seat := { tSeat with ctxs := [tCtx, { tCtx with turn := some (0, drain) }] }
    (x false).behind 0 1 false = true ∧ (x false).behind 0 0 false = false ∧ tSeat.behind 0 0 false = false ∧ tSeat.behind 0 0 true = false
      ∧ ({ x true with sets := (tReady.seat 0).sets } : Seat).behind 0 1 true = true := by decide +kernel
theorem witness_bad_run : ((tRepair 1).seat 0).repair.map (fun r => (((tRepair 1).seat 0).badRun r.tile).isNone) = some true := by decide +kernel
/-- The centroid block of a collection that is present, absent and poisoned. -/
theorem witness_centroids : let x : Collection := { tColl with va := 0x800000050000, image := [1] }
    let s := { tTier 1 1 (tBlk true false) with colls := [x], decks := [] }
    s.objectCheck (.cmd 7) 1 x.va.toNat 1 = .wait ∧ ({ s with pt := tPages ++ [({ tenant := 1, level := 0, path := 2 ^ 31 + 5 }, 0x70103)] } : State).objectCheck (.cmd 7) 1 x.va.toNat 1 = .ok := by
  decide +kernel
/-- A list whose page is in T1, whose page is not, and whose fetch failed for a query. -/
theorem witness_list_pages : let x : Collection := { tColl with lists := [{ tList with pages := [0x800000050000] }] }
    let s := { tTier 1 1 (tBlk false false) with colls := [x] }
    s.listAbsent x (x.llist 0) = true ∧ tProber.listAbsent tColl (tColl.llist 0) = false ∧ s.listFate (tQuery 2) x (x.llist 0) = none := by decide +kernel
/-- A refinement reads items no page of which is lost. -/
theorem witness_items_sound : (tSearch 2 id).mediaLost (tItem.owns 9 true) = false ∧ (tSearch 2 id).mediaLost (tItem.owns 9 false) = false := by decide +kernel
/-- A re-rank whose question and passages were cut at the fetch. -/
theorem witness_cross : let s := { tPiped 10 with decks := [] }
    (s.crossTokens (tPipe 10) (tModel 6 3)).2 = [] ∧ s.cutCheck 7 [] = .ok ∧ (s.tenant 1).t1.fits 0 = true := by decide +kernel
theorem witness_return_room : ((tPiped 12).resolve 1 (fieldOf tPack 0x18 8) (64 + packMap tPack + 4 * packBudget tPack) 64).isSome = true := by decide +kernel
/-- No deal waits before the command, and an earlier one does. -/
theorem witness_deals : tDeal.dealsEarlier 7 = false ∧ tDeal.affinityLeaves 1 7 (handParams tDealCmd) = false
    ∧ ({ tDeal with cmds := tDeal.cmds ++ [{ tDealCmd with handle := 8 }] } : State).dealsEarlier 8 = true := by decide +kernel
/-- A hand being freed that has lost its last seat. -/
theorem witness_emptied : let s := tHeld (tCmd 0x0903 []) id (fun x => { x with freeing := some (7, true), seats := [] })
    ((((s.updHand 0 (fun x => { x with tricks := x.tricks + 1 })).stepShrink 0).stepReplace 0).hand 0).seats = []
      ∧ ((((s.updHand 0 (fun x => { x with tricks := x.tricks + 1 })).stepShrink 0).stepReplace 0).hand 0).freeing.isSome = true := by decide +kernel
theorem witness_not_resetting : let s := tTok 3 1 tTokBody
    (s.tenant (tUi 3 1 tTokBody).tenant).reset = none := by decide +kernel
theorem witness_mask : let s := tGra 1 (tGraBody 0x100000 0 0)
    s.maskCheck (.issue tIk) tAut tDeck (recState (s.rdTva 1 false 0x1000 576)) = .ok := by decide +kernel
/-- The map and the stored blocks of the media outlast a reset. -/
theorem test_reset_keeps_map : (tFlash.hardReset 3 false false).flash.map = [(9, .at 4097)] := by decide +kernel

end Sys2Proof.Machine
end

section
/-!
PROOFS. The reset state, the one memory write, and the writes of registers (00, 12 R308, 19 R506, 21 R540, R541).
-/
namespace Sys2Proof.Machine

/-! ### The state right after reset -/

/-- Settles O3: nothing is written at reset. -/
theorem canonicalFormsAtReset : Obligations.CanonicalFormsAtReset := ⟨reset_mem_wf, rfl⟩

/-! ### The one write of memory -/

/-- Bytes written read back. -/
theorem State.rd_wr_same (s : State) (k : Nat) (bs : List Byte) (h : Memory.wf s.mem = true) : (s.wr k bs).rd k bs.length = bs := by
  refine List.ext_getElem (by simp [State.rd]) fun i _ hi => ?_
  have hread : memGet (s.wr k bs).mem (k + i) = bs.getD i 0 := by
    rw [s.wr_read k bs (k + i) h, if_pos (by omega), Nat.add_sub_cancel_left]
  simp only [State.rd, List.getElem_map, List.getElem_range, hread, List.getD_eq_getElem?_getD, List.getElem?_eq_getElem hi,
    Option.getD_some]

/-- Bytes outside a write read as before. -/
theorem State.wr_sameOutside (s : State) (k : Nat) (bs : List Byte) (h : Memory.wf s.mem = true) :
    SameOutside s (s.wr k bs) k bs.length := fun a ha => by
  rw [s.wr_read k bs a h, if_neg ha]

/-- A write heals the poisoned lines it writes whole, and no other (12 R308). -/
theorem State.wr_poison_contains (s : State) (k : Nat) (bs : List Byte) (l : Nat) :
    (s.wr k bs).tier.poison.contains l = true ↔
      s.tier.poison.contains l = true ∧ ¬ (k ≤ 128 * l ∧ 128 * (l + 1) ≤ k + bs.length) := by
  simp only [State.wr, List.contains_iff_mem, List.mem_filter, Bool.not_eq_true', ← Bool.not_eq_true,
    Bool.and_eq_true, decide_eq_true_eq]

/-- Settles O5, from the laws of sparse maps. -/
theorem memoryWriteReadsBack : Obligations.MemoryWriteReadsBack := fun s key bytes h =>
  ⟨s.rd_wr_same key bytes h.1, s.wr_sameOutside key bytes h.1, h.wr key bytes, s.wr_poison_contains key bytes, rfl⟩

/-! ### Registers before READY -/

/-- A read at or past 0x10000 of a module that is not READY shows all ones (19 R506, 21 R541). -/
theorem State.reg_not_ready (s : State) (live : Bool) (off : Nat) (hr : s.power.ready = false) (hlo : 0x10000 ≤ off)
    (hhi : off < 2 ^ 26) (hal : off % 4 = 0) : s.reg live off = 0xFFFFFFFF := by
  unfold State.reg
  have hin : ¬ (off ≥ 2 ^ 26 || off % 4 ≠ 0) = true := by
    simp only [ge_iff_le, ne_eq, Bool.or_eq_true, decide_eq_true_eq]
    omega
  rw [if_neg hin, if_pos (by simp [hlo, hr])]

/-- The low byte of MOD_ID is reserved and the stepping fits its byte, so the Device ID stands in the upper half (21 R545). -/
theorem modId_deviceId : (State.reset.reg false 0x00).toNat / 65536 = 0x9720 := by
  have hs : Config.stepping.toNat < 2 ^ 8 := Config.stepping.isLt
  have hreg : State.reset.reg false 0x00 = BitVec.ofNat 32 (at' 16 0x9720 + at' 8 Config.stepping.toNat) := rfl
  simp only [hreg, at', BitVec.toNat_ofNat]
  omega

/-- Settles O2: below 0x10000 by computation, above it because the module is not READY. -/
theorem resetShowsNoReady : Obligations.ResetShowsNoReady :=
  ⟨rfl, rfl, rfl, modId_deviceId, fun off hlo hhi hal => State.reset.reg_not_ready false off rfl hlo hhi hal, rfl⟩

/-! ### Writes of registers -/

section RegisterWrite
variable {s : State} (v : Addr)

/-- An aligned word written to a running module is the register's own write (21 R540). -/
theorem exec_registerWrite_word (hu : s.up = true) {off : Nat} (hlt : off < 2 ^ 26) (hal : off % 4 = 0) :
    exec (.registerWrite off 4 v) s = .next (s.writeReg off (BitVec.ofNat 32 v.toNat)) := by
  have hin : ¬ (!s.up || decide (2 ^ 26 ≤ off)) = true := by simp only [hu, Bool.not_true, Bool.false_or, decide_eq_true_eq]; omega
  simp only [exec, execRegisterWrite]
  rw [if_neg hin, if_pos (by simp [hal])]

/-- An aligned write of eight bytes is its two words, low first (00 R14, 21 R540). -/
theorem exec_registerWrite_pair (hu : s.up = true) {off : Nat} (hlt : off < 2 ^ 26) (hal : off % 8 = 0) :
    exec (.registerWrite off 8 v) s = .next ((s.writeReg off (BitVec.ofNat 32 v.toNat)).writeReg (off + 4)
      (BitVec.ofNat 32 (v.toNat / 2 ^ 32))) := by
  have hin : ¬ (!s.up || decide (2 ^ 26 ≤ off)) = true := by simp only [hu, Bool.not_true, Bool.false_or, decide_eq_true_eq]; omega
  simp only [exec, execRegisterWrite]
  rw [if_neg hin, if_neg (by simp), if_pos (by simp [hal])]

/-- A write of another width or alignment, or past the window, changes nothing (21 R540, R541). -/
theorem exec_registerWrite_ignored {off width : Nat} (h : (width ≠ 4 ∧ width ≠ 8) ∨ off % 4 ≠ 0 ∨ 2 ^ 26 ≤ off) :
    exec (.registerWrite off width v) s = .next s := by
  have hword : 2 ^ 26 ≤ off ∨ ¬ (width = 4 ∧ off % 4 = 0) ∧ ¬ (width = 8 ∧ off % 8 = 0) := by omega
  simp only [exec, execRegisterWrite]
  rcases hword with hpast | ⟨h4, h8⟩
  · rw [if_pos (by simp only [hpast, decide_true, Bool.or_true])]
  · simp [h4, h8]

/-- The high half of a doubleword is a word of its own. -/
theorem toNat_high_word : (BitVec.ofNat 64 (v.toNat / 2 ^ 32)).toNat = v.toNat / 2 ^ 32 := by
  rw [BitVec.toNat_ofNat, Nat.mod_eq_of_lt (by omega)]

/-- The second word of an aligned doubleword goes to the state that the first one leads to. -/
theorem exec_registerWrite_halves (hu : s.up = true) {off : Nat} {t : State} (hal : off % 8 = 0) (hlt : off < 2 ^ 26)
    (ht : exec (.registerWrite off 4 v) s = .next t) (htu : t.up = true) :
    exec (.registerWrite off 8 v) s = exec (.registerWrite (off + 4) 4 (BitVec.ofNat 64 (v.toNat / 2 ^ 32))) t := by
  rw [exec_registerWrite_word v hu hlt (by omega)] at ht
  rw [exec_registerWrite_pair v hu hlt hal, exec_registerWrite_word _ htu (by omega) (by omega), toNat_high_word]
  injection ht with ht
  rw [ht]
end RegisterWrite

section WriteReg
variable (s : State) (w : Word)

/-- A tenant's limit has a register of its own (14 R382). -/
theorem State.writeReg_dlrTLimit {t : Nat} (ht : t < 64) : s.writeReg (0x31000 + 4 * t) w = s.after (execDlrTLimitWrite t w s) := by
  have hb : (0x31000 + 4 * t) / 0x10000 = 3 := by omega
  have ho : (0x31000 + 4 * t) % 0x10000 = 0x1000 + 4 * t := by omega
  have hin : 0x1000 + 4 * t < 0x1100 := by omega
  simp [State.writeReg, hb, ho, hin]

/-- A tenant's weight has a register of its own (10 R272). -/
theorem State.writeReg_srvTWeight {t : Nat} (ht : t < 64) : s.writeReg (0xB1000 + 4 * t) w = s.after (execSrvTWeightWrite t w s) := by
  have hb : (0xB1000 + 4 * t) / 0x10000 = 11 := by omega
  have ho : (0xB1000 + 4 * t) % 0x10000 = 0x1000 + 4 * t := by omega
  have hin : 0x1000 + 4 * t < 0x1100 := by omega
  have hspec : 0x1000 + 4 * t ≠ 4 := by omega
  simp [State.writeReg, hb, ho, hin, hspec]

/-- A vector's mask bit set masks the vector (17 R447). -/
theorem State.writeReg_mask {vec : Nat} (hv : vec < 2048) (hw : bitAt w.toNat 0 = true) :
    s.writeReg (0x118000 + 16 * vec + 12) w = s.updCxl (fun c => { c with unmasked := c.unmasked.filter (fun x => x ≠ vec) }) := by
  have hb : (0x118000 + 16 * vec + 12) / 0x10000 = 17 := by omega
  have ho : (0x118000 + 16 * vec + 12) % 0x10000 = 0x8000 + 16 * vec + 12 := by omega
  have hvec : (0x8000 + 16 * vec + 12 - 0x8000) / 16 = vec := by omega
  have hbit : (0x8000 + 16 * vec + 12) % 16 = 12 := by omega
  simp only [State.writeReg, hb, ho]
  rw [if_neg (by omega), if_neg (by omega), if_neg (by omega), if_pos (by omega)]
  simp only [State.writeMsix, hvec, hbit, hw, if_true]

/-- The blocks without a register to write ignore every write (21 R541). -/
theorem State.writeReg_readOnly {off : Nat} (h : off / 0x10000 ∈ [0, 4, 8, 9, 10, 13, 19, 20]) : s.writeReg off w = s := by
  simp only [List.mem_cons, List.not_mem_nil, or_false] at h
  obtain h | h | h | h | h | h | h | h := h <;> simp only [State.writeReg, h]

/-- SRCH_CTRL takes settings in range (05 R160). -/
theorem State.writeSrchCtrl_valid {w : Nat} (hv : s.variant ≠ .v9706) (hs : s.flt.sLost = false) (hwin : bits w 23 13 ≤ 2000)
    (hlo : 1 ≤ bits w 12 0) (hhi : bits w 12 0 ≤ 4096) : s.writeSrchCtrl w = { s with search := { s.search with
      err := s.search.err && !bitAt w 31, window := bits w 23 13, batchMax := bits w 12 0 } } := by
  have hin : ¬ (bits w 23 13 > 2000 || bits w 12 0 < 1 || bits w 12 0 > 4096) = true := by simp; omega
  simp only [State.writeSrchCtrl]
  rw [if_neg (by simp [hv, hs]), if_neg hin]
  rfl

/-- FLS_CTRL takes settings in range (13 R355). -/
theorem State.writeFlsCtrl_valid {w : Nat} (h1 : 50 ≤ bits w 30 24) (h2 : bits w 30 24 ≤ 95) (h3 : 10 ≤ bits w 22 16)
    (h4 : bits w 22 16 + 10 ≤ bits w 30 24) (h5 : 1 ≤ bits w 15 4) (h6 : 1 ≤ bits w 3 0) (h7 : bits w 3 0 ≤ 8) :
    s.writeFlsCtrl w = { s with flash := { s.flash with ctrlErr := s.flash.ctrlErr && !bitAt w 31, foldHigh := bits w 30 24
                                                        foldLow := bits w 22 16, hotVisits := bits w 15 4, bgShare := bits w 3 0 } } := by
  have hin : ¬ (bits w 30 24 < 50 || bits w 30 24 > 95 || bits w 22 16 < 10 || bits w 22 16 + 10 > bits w 30 24 || bits w 15 4 < 1
      || bits w 3 0 < 1 || bits w 3 0 > 8) = true := by
    simp only [gt_iff_lt, Bool.or_eq_true, decide_eq_true_eq]; omega
  simp only [State.writeFlsCtrl]
  rw [if_neg hin]
  rfl

/-- FLS_PATROL takes settings in range (13 R356). -/
theorem State.writeFlsPatrol_valid {w : Nat} (h1 : 1 ≤ bits w 27 24) (h2 : 8 ≤ bits w 23 16) (h3 : 1 ≤ bits w 15 0) :
    s.writeFlsPatrol w = { s with flash := { s.flash with
      patErr := s.flash.patErr && !bitAt w 31, patBlocks := bits w 27 24, relocBits := bits w 23 16, aonStep := bits w 15 0 } } := by
  have hin : ¬ (bits w 27 24 < 1 || bits w 23 16 < 8 || bits w 15 0 < 1) = true := by
    simp only [Bool.or_eq_true, decide_eq_true_eq]; omega
  simp only [State.writeFlsPatrol]
  rw [if_neg hin]
  rfl
end WriteReg

/-- Settles O19: each offset through the word write it stands for. -/
theorem registerWrites : Obligations.RegisterWrites := by
  intro s v hu w wr f
  have word {off : Nat} (hlt : off < 2 ^ 26) (hal : off % 4 = 0) : wr off = .next (s.writeReg off w) := exec_registerWrite_word v hu hlt hal
  have dlrTLimit {t : Nat} (ht : t < 64) : wr (0x31000 + 4 * t) = exec (.dlrTLimitWrite t w) s := by
    rw [word (by omega) (by omega), s.writeReg_dlrTLimit w ht]; rfl
  have srvTWeight {t : Nat} (ht : t < 64) : wr (0xB1000 + 4 * t) = exec (.srvTWeightWrite t w) s := by
    rw [word (by omega) (by omega), s.writeReg_srvTWeight w ht]; rfl
  have w32 {off : Nat} (hlt : off < 2 ^ 26 := by decide) (hal : off % 4 = 0 := by decide) : wr off = .next (s.writeReg off w) := word hlt hal
  refine ⟨w32, w32, w32, fun t ht => ⟨dlrTLimit ht, srvTWeight ht⟩, w32, w32, w32, w32, w32, w32, w32, w32, w32, w32, w32, w32, w32, w32,
    fun hv hs h1 h2 h3 => (w32 (off := 0x70000)).trans (congrArg _ (s.writeSrchCtrl_valid hv hs h1 h2 h3)),
    fun h1 h2 h3 h4 h5 h6 h7 => (w32 (off := 0xE0004)).trans (congrArg _ (s.writeFlsCtrl_valid h1 h2 h3 h4 h5 h6 h7)),
    fun h1 h2 h3 => (w32 (off := 0xE0008)).trans (congrArg _ (s.writeFlsPatrol_valid h1 h2 h3)), w32, fun vec hv hw => ?_, fun off hoff hal => ?_,
    fun off width h => exec_registerWrite_ignored v h, fun off t hal hlt ht htu => exec_registerWrite_halves v hu hal hlt ht htu⟩
  · rw [word (by omega) (by omega), s.writeReg_mask w hv hw]; rfl
  · have hlt : off < 2 ^ 26 := by
      simp only [List.mem_cons, List.not_mem_nil, or_false] at hoff
      omega
    rw [word hlt hal, s.writeReg_readOnly w hoff]

end Sys2Proof.Machine
end

section
/-!
PROOFS. The canonical form of the memory and the counters is kept by every operation, and so by every step (notes/assumptions/4.md). One
lemma for each operation, in the order of the model: `State.Inv.f` for an operation `f` of the state, `exec…_keeps` for a command. A proof
names the operations from the last to the first; `.ite`, `.when` and `.unless` stand for conditions, `.set` for changes of other fields.
-/
namespace Sys2Proof.Machine

/-- What a command ends in is a next state in canonical form. -/
def Res.Keeps (r : Res) : Prop := ∃ t, r = .next t ∧ t.Inv

/-- A state with the memory and the counters of a state in canonical form, whatever its other fields. -/
theorem State.Inv.set {s : State}
    {variant power admin tenants rr cmds nextHandle hostMap dlr hands invs nextInv seats steadyLoad audCtrl audLast audInject potBad pt
     issues models decks automata colls dirLen search selections pipes deckCache maskCache imageBuf imageBad serving embed tier flash
     flt cell cxl sec mgmt dump latch fresh out pending}
    (hs : s.Inv) :
    State.Inv ⟨variant, power, admin, tenants, rr, cmds, nextHandle, hostMap, dlr, hands, invs, nextInv, seats, steadyLoad, audCtrl, audLast,
      audInject, potBad, pt, issues, models, decks, automata, colls, dirLen, search, selections, pipes, deckCache, maskCache, imageBuf,
      imageBad, serving, embed, tier, flash, flt, cell, cxl, sec, mgmt, dump, s.ctr, latch, s.mem, fresh, out, pending⟩ := hs

/-- Either branch keeps it. -/
theorem State.Inv.ite {c : Prop} [Decidable c] {a b : State} (ha : a.Inv) (hb : b.Inv) : (if c then a else b).Inv := by
  split
  · exact ha
  · exact hb

/-- A change made under a condition keeps it if the change does. -/
theorem State.Inv.when {c : Prop} [Decidable c] {s t : State} (hs : s.Inv) (ht : s.Inv → t.Inv) : (if c then t else s).Inv := (ht hs).ite hs

/-- A change made unless a condition holds keeps it if the change does. -/
theorem State.Inv.unless {c : Prop} [Decidable c] {s t : State} (hs : s.Inv) (ht : s.Inv → t.Inv) : (if c then s else t).Inv := hs.ite (ht hs)

/-- The state a command ends in. -/
theorem State.Inv.after {s : State} {r : Res} (hr : Res.Keeps r) : (s.after r).Inv := by
  obtain ⟨t, rfl, ht⟩ := hr
  exact ht

/-- A fold over states paired with what it gathers. -/
theorem State.Inv.foldl_fst {α β : Type} {f : State × β → α → State × β} {l : List α} {p : State × β}
    (hf : ∀ p a, p.1.Inv → (f p a).1.Inv) (hp : p.1.Inv) : (l.foldl f p).1.Inv := by
  induction l generalizing p with
  | nil => exact hp
  | cons a l ih => exact ih (hf p a hp)

/-- The state of a pair that a call returned. -/
theorem State.Inv.of_eq {β : Type} {p : State × β} {z : State} {b : β} (e : p = (z, b)) (hp : p.1.Inv) : z.Inv := by
  subst e
  exact hp

/-- The state of a triple that a call returned. -/
theorem State.Inv.of_snd_eq {α β : Type} {p : α × β × State} {z : State} {a : α} {b : β} (e : p = (a, b, z)) (hp : p.2.2.Inv) : z.Inv := by
  subst e
  exact hp

/-- Either branch keeps it, where each returns a state with something else. -/
theorem State.Inv.ite_fst {β : Type} {c : Prop} [Decidable c] {a b : State × β} (ha : a.1.Inv) (hb : b.1.Inv) : (if c then a else b).1.Inv := by
  split
  · exact ha
  · exact hb

/-- A load that succeeds ends in the state it gives. -/
theorem State.Inv.inl {z : State} (hz : z.Inv) : ((Sum.inl z : State ⊕ State × Nat).elim id Prod.fst).Inv := hz

/-- Either branch keeps it, where each ends a load. -/
theorem State.Inv.ite_sum {c : Prop} [Decidable c] {a b : State ⊕ State × Nat} (ha : (a.elim id Prod.fst).Inv) (hb : (b.elim id Prod.fst).Inv) :
    ((if c then a else b).elim id Prod.fst).Inv := by
  split
  · exact ha
  · exact hb

section Step
variable {s : State}

theorem State.Inv.foldl' {α : Type} {f : State → α → State} {l : List α} (hf : ∀ s a, s.Inv → (f s a).Inv) (hs : s.Inv) :
    (l.foldl f s).Inv := .foldl f hf l hs

/-! ### The laws of the shared operations, with the state they speak of read from the goal -/

theorem State.Inv.wr' {k : Nat} {bs : List Byte} (hs : s.Inv) : (s.wr k bs).Inv := hs.wr k bs
theorem State.Inv.bumpBy' {off n : Nat} (hs : s.Inv) : (s.bumpBy off n).Inv := hs.bumpBy off n
theorem State.Inv.bump' {off : Nat} (hs : s.Inv) : (s.bump off).Inv := hs.bump off
theorem State.Inv.bump64' {off n : Nat} (hs : s.Inv) : (s.bump64 off n).Inv := hs.bump64 off n
theorem State.Inv.msix' {v : Nat} (hs : s.Inv) : (s.msix v).Inv := hs.msix v
theorem State.Inv.fltBump' {off holder st arg : Nat} (hs : s.Inv) : (s.fltBump off holder st arg).Inv := hs.fltBump off holder st arg
theorem State.Inv.updTenant' {t : Nat} {f : Tenant → Tenant} (hs : s.Inv) : (s.updTenant t f).Inv := hs
theorem State.Inv.updQueue' {t q : Nat} {f : QPair → QPair} (hs : s.Inv) : (s.updQueue t q f).Inv := hs
theorem State.Inv.tenantFault' {t cause : Nat} (hs : s.Inv) : (s.tenantFault t cause).Inv := hs.tenantFault t cause
theorem State.Inv.complete' {hd st n r0 r1 : Nat} (hs : s.Inv) : (s.complete hd st n r0 r1).Inv := hs.complete hd st n r0 r1
theorem State.Inv.fail' {hd st : Nat} (hs : s.Inv) : (s.fail hd st).Inv := hs.fail hd st
theorem State.Inv.endInvocation' {n : Nat} (hs : s.Inv) : (s.endInvocation n).Inv := hs.endInvocation n
theorem State.Inv.settleSeat' {g : Nat} (hs : s.Inv) : (s.settleSeat g).Inv := hs.settleSeat g
theorem State.Inv.finishIssue' {k : IssueKey} {st n : Nat} (hs : s.Inv) : (s.finishIssue k st n).Inv := hs.finishIssue k st n
theorem State.Inv.completeWaiter' {w : Waiter} {st n r0 : Nat} (hs : s.Inv) : (s.completeWaiter w st n r0).Inv := hs.completeWaiter w st n r0
theorem State.Inv.settleDeletes' {t k : Nat} (hs : s.Inv) : (State.settleDeletes t k s).Inv := .settleDeletes t k hs
theorem State.Inv.dealPot' {h : Nat} (hs : s.Inv) : (s.dealPot h).Inv := hs.dealPot h
theorem Th.fault_inv' {t : Th} {k a : Nat} (hs : s.Inv) : (t.fault s k a).Inv := Th.fault_inv hs t k a

/-! ### Ops -/

theorem State.Inv.updSearch {f : Search → Search} (hs : s.Inv) : (s.updSearch f).Inv := hs

theorem State.Inv.updFlash {f : Flash → Flash} (hs : s.Inv) : (s.updFlash f).Inv := hs

theorem State.Inv.updTier {f : Tier → Tier} (hs : s.Inv) : (s.updTier f).Inv := hs

theorem State.Inv.updServing {f : Serving → Serving} (hs : s.Inv) : (s.updServing f).Inv := hs

theorem State.Inv.updEmbed {f : Embed → Embed} (hs : s.Inv) : (s.updEmbed f).Inv := hs

theorem State.Inv.updFlt {f : Flt → Flt} (hs : s.Inv) : (s.updFlt f).Inv := hs

theorem State.Inv.updCell {f : Cell → Cell} (hs : s.Inv) : (s.updCell f).Inv := hs

theorem State.Inv.updCxl {f : Cxl → Cxl} (hs : s.Inv) : (s.updCxl f).Inv := hs

theorem State.Inv.updSec {f : Security → Security} (hs : s.Inv) : (s.updSec f).Inv := hs

theorem State.Inv.updMgmt {f : Mgmt → Mgmt} (hs : s.Inv) : (s.updMgmt f).Inv := hs

theorem State.Inv.updDump {f : Dump → Dump} (hs : s.Inv) : (s.updDump f).Inv := hs

theorem State.Inv.updPower {f : Power → Power} (hs : s.Inv) : (s.updPower f).Inv := hs

theorem State.Inv.wrNat {key n v : Nat} (hs : s.Inv) : (s.wrNat key n v).Inv := .wr' hs

theorem State.Inv.setSbuf {g : Nat} {l : List Host.Cell} (hs : s.Inv) : (s.setSbuf g l).Inv := ⟨State.setSbuf_wf s g l hs.1, hs.2⟩

theorem State.Inv.draw (hs : s.Inv) : s.draw.Inv := hs

theorem State.Inv.drawN {n : Nat} (hs : s.Inv) : (s.drawN n).Inv := hs

theorem State.Inv.emit {o : Out} (hs : s.Inv) : (s.emit o).Inv := hs

theorem State.Inv.updHand {h : Nat} {f : Hand → Hand} (hs : s.Inv) : (s.updHand h f).Inv := hs

theorem State.Inv.askDomain {d : Nat} (hs : s.Inv) : (s.askDomain d).Inv := .ite hs (.updPower hs)

theorem State.Inv.updSeat {g : Nat} {f : Seat → Seat} (hs : s.Inv) : (s.updSeat g f).Inv := hs

theorem State.Inv.updCtx {g c : Nat} {f : Ctx → Ctx} (hs : s.Inv) : (s.updCtx g c f).Inv := .updSeat hs

theorem State.Inv.updCmd {h : Nat} {f : Cmd → Cmd} (hs : s.Inv) : (s.updCmd h f).Inv := hs

theorem State.Inv.updInv {n : Nat} {f : Invocation → Invocation} (hs : s.Inv) : (s.updInv n f).Inv := hs

theorem State.Inv.wrPages {t : Nat} {stock : Bool} {acc : Access} {k va : Nat} {bs : List Byte} (hs : s.Inv) :
    (s.wrPages t stock acc k va bs).Inv := by
  induction k generalizing s va bs with
  | zero => exact hs
  | succ k ih =>
    refine .ite hs (ih ?_)
    split
    · exact hs.wr' 
    · exact hs

theorem State.Inv.wrRange {t : Nat} {stock : Bool} {acc : Access} {va : Nat} {bs : List Byte} (hs : s.Inv) : (s.wrRange t stock acc va
  bs).Inv :=
  .wrPages hs

theorem State.Inv.wrTva {t : Nat} {stock : Bool} {va : Nat} {bs : List Byte} (hs : s.Inv) : (s.wrTva t stock va bs).Inv := .wrRange hs

theorem State.Inv.ptSet {t level va : Nat} {e : Addr} (hs : s.Inv) : (s.ptSet t level va e).Inv := hs

theorem State.Inv.mapPage {t va : Nat} {e : Addr} (hs : s.Inv) : (s.mapPage t va e).Inv := .ptSet (.ptSet (.ptSet (.ptSet hs)))

theorem State.Inv.unmapPages {t va n : Nat} (hs : s.Inv) : (s.unmapPages t va n).Inv := hs

theorem State.Inv.fenceTo {holder g : Nat} (hs : s.Inv) : (s.fenceTo holder g).Inv := by
  unfold State.fenceTo
  exact .foldl' (fun _ _ h1 => .fltBump' h1) (.fltBump' hs)

theorem State.Inv.fenceHolder {holder : Nat} (hs : s.Inv) : (s.fenceHolder holder).Inv := .fenceTo hs

theorem State.Inv.recovered {h : Nat} (hs : s.Inv) : (s.recovered h).Inv := .updCmd hs

theorem State.Inv.dropCmd {h : Nat} (hs : s.Inv) : (s.dropCmd h).Inv := by
  unfold State.dropCmd
  split
  · exact hs
  · exact .updQueue' hs

theorem State.Inv.forgetIssue {p : IssueKey → Bool} (hs : s.Inv) : (s.forgetIssue p).Inv := hs

theorem State.Inv.cancelIssues {seats : List Nat} (hs : s.Inv) : (s.cancelIssues seats).Inv := .set (.forgetIssue hs)

theorem State.Inv.stopInvocation {n st : Nat} (hs : s.Inv) : (s.stopInvocation n st).Inv := .updInv hs

theorem State.Inv.recoveredIssue {k : IssueKey} (hs : s.Inv) : (s.recoveredIssue k).Inv := hs

theorem State.Inv.recoveredWaiter {w : Waiter} (hs : s.Inv) : (s.recoveredWaiter w).Inv := by
  unfold State.recoveredWaiter
  split
  · exact .recovered hs
  · exact .recoveredIssue hs

theorem State.Inv.chargeT1 {t n : Nat} (hs : s.Inv) : (s.chargeT1 t n).Inv := .updTenant' hs

theorem State.Inv.releaseT1 {t n : Nat} (hs : s.Inv) : (s.releaseT1 t n).Inv := .updTenant' hs

theorem State.Inv.dropPipe {h : Nat} (hs : s.Inv) : (s.dropPipe h).Inv := by
  unfold State.dropPipe
  exact .foldl' (fun _ _ h1 => .releaseT1 h1) hs

theorem State.Inv.spoilOut {p : Pipe} (hs : s.Inv) : (s.spoilOut p).Inv := by
  unfold State.spoilOut
  split
  · exact .wr' (.draw hs)
  · exact hs

theorem State.Inv.chargeT2 {t n : Nat} (hs : s.Inv) : (s.chargeT2 t n).Inv := .updTenant' hs

theorem State.Inv.releaseT2 {t n : Nat} (hs : s.Inv) : (s.releaseT2 t n).Inv := .updTenant' hs


/-! ### Frames -/

theorem State.Inv.updLink {l : Nat} {f : Link → Link} (hs : s.Inv) : (s.updLink l f).Inv := .updCell hs

theorem State.Inv.putFrame {l ty flags src dst : Nat} {payload : List Byte} (hs : s.Inv) : (s.putFrame l ty flags src dst payload).Inv :=
  .emit (.updLink hs)

theorem State.Inv.pumpFwd {l c : Nat} {t : State} (hs : s.Inv) (e : s.pumpFwd l c = some t) : t.Inv := by
  unfold State.pumpFwd at e
  dsimp only at e
  split at e
  · cases e
  · split at e
    · cases e
    · obtain rfl := Option.some.inj e
      exact .putFrame (.updLink (.updLink hs))

theorem State.Inv.pumpOwn {l c : Nat} {t : State} (hs : s.Inv) (e : s.pumpOwn l c = some t) : t.Inv := by
  unfold State.pumpOwn at e
  dsimp only at e
  split at e
  · cases e
  · split at e
    · cases e
    · obtain rfl := Option.some.inj (Option.ite_none_left_eq_some.1 e).2
      exact .putFrame (.updLink hs)

theorem State.Inv.pumpOne {l : Nat} {t : State} (hs : s.Inv) (e : s.pumpOne l = some t) : t.Inv := by
  obtain ⟨c, _, hc⟩ := List.exists_of_findSome?_eq_some e
  split at hc
  · next u hu =>
    obtain rfl := Option.some.inj hc
    exact hs.pumpFwd hu
  · exact hs.pumpOwn hc

theorem State.Inv.pump {l k : Nat} (hs : s.Inv) : (State.pump l k s).Inv := by
  induction k generalizing s with
  | zero => exact hs
  | succ k ih =>
    unfold State.pump
    split
    · next t ht => exact ih (hs.pumpOne ht)
    · exact hs

theorem State.Inv.pumpLink {l : Nat} (hs : s.Inv) : (s.pumpLink l).Inv := .pump hs

theorem State.Inv.sendMsg {m : OutMsg} (hs : s.Inv) : (s.sendMsg m).Inv := by
  unfold State.sendMsg
  split
  · exact .updCell hs
  · exact .pumpLink (.updLink hs)

theorem State.Inv.send {dst cls : Nat} {bytes : List Byte} (hs : s.Inv) : (s.send dst cls bytes).Inv := .sendMsg hs

theorem State.Inv.noteRoutes (hs : s.Inv) : s.noteRoutes.Inv := .updCell (.bumpBy' hs)

theorem State.Inv.reroute (hs : s.Inv) : s.reroute.Inv := by
  unfold State.reroute
  exact .foldl' (fun _ _ h1 => .sendMsg h1) (.updCell (.foldl' (fun _ _ h2 => .updLink h2) (.noteRoutes hs)))


/-! ### Operands -/

theorem Th.done_inv {t : Th} {k : Ctx} (hs : s.Inv) : (t.done s k).Inv := .updCtx hs

theorem Th.jump_inv {t : Th} {k : Ctx} {pc : Addr} (hs : s.Inv) : (t.jump s k pc).Inv := .updCtx hs

theorem Th.skip_inv {t : Th} (hs : s.Inv) : (t.skip s).Inv := Th.done_inv hs

theorem Th.stall_inv {t : Th} {w : Wait} (hs : s.Inv) : (t.stall s w).Inv := .updCtx hs

theorem Th.queueUp_inv {t : Th} {n : Nat} {drain : Bool} {w : Wait} (hs : s.Inv) : (t.queueUp s n drain w).Inv := .updCtx hs

theorem Th.inTurn_inv {t : Th} {drain : Bool} {w : Wait} {f : Th → State → Nat → State} (hs : s.Inv) (hf : ∀ x (s : State) y, s.Inv → (f x
  s y).Inv) : (t.inTurn s drain w f).Inv :=
  .ite (Th.queueUp_inv hs) (hf _ _ _ (.updCtx hs))

theorem Th.doneWait_inv {t : Th} {k : Ctx} {w : Wait} (hs : s.Inv) : (t.doneWait s k w).Inv := .settleSeat' (Th.done_inv hs)

theorem State.Inv.kfault {v : Invocation} {f : FaultRec} (hs : s.Inv) : (s.kfault v f).Inv := hs

theorem Th.fetchWord_inv {t : Th} {va : Nat} {f : State} (hs : s.Inv) (hs' : f.Inv) : (t.fetchWord s va f).Inv := by
  unfold Th.fetchWord
  split
  · exact Th.fault_inv' hs
  · exact Th.stall_inv hs
  · exact hs'

theorem Th.fetch_inv {t : Th} {f : State} (hs : s.Inv) (hs' : f.Inv) : (t.fetch s f).Inv :=
  .ite (Th.fault_inv' hs) (Th.fetchWord_inv hs (.ite (Th.fetchWord_inv hs hs') hs'))

theorem State.Inv.issue {i : Iss} {word len : Nat} {legal vector : Bool} {ss vs : List (BitVec 5)} {f : Th → State → State} (hs : s.Inv)
  (hf : ∀ x (s : State), s.Inv → (f x s).Inv) : (s.issue i word len legal vector ss vs f).Inv := by
  unfold State.issue
  split
  · exact hs
  · exact Th.fetch_inv hs (.ite (Th.fault_inv' hs) (.ite hs (.ite (Th.skip_inv hs) (hf _ _ hs))))

theorem State.Inv.scalar {i : Iss} {ins : Instr} {ss : List (BitVec 5)} {f : Th → State → State} (hs : s.Inv) (hf : ∀ x (s : State), s.Inv
  → (f x s).Inv) : (s.scalar i ins ss f).Inv :=
  .issue hs (fun _ _ h1 => hf _ _ h1)

theorem State.Inv.vector {i : Iss} {ins : Instr} {ss vs : List (BitVec 5)} {f : Th → State → State} (hs : s.Inv) (hf : ∀ x (s : State),
  s.Inv → (f x s).Inv) : (s.vector i ins ss vs f).Inv :=
  .issue hs (fun _ _ h1 => hf _ _ h1)

theorem State.Inv.audEvent {kind unit row col : Nat} (hs : s.Inv) : (s.audEvent kind unit row col).Inv := .ite hs hs

theorem State.Inv.parityEvent {g cmd : Nat} (hs : s.Inv) : (s.parityEvent g cmd).Inv := .recovered (.audEvent (.bump' hs))

theorem State.Inv.markSeat {g : Nat} (hs : s.Inv) : (s.markSeat g).Inv := .updSeat hs

theorem State.Inv.withdraw {n : Nat} {old now : List Ctx} (hs : s.Inv) : (s.withdraw n old now).Inv := .updInv hs

theorem State.Inv.storeAt {g key : Nat} {bs : List Byte} (hs : s.Inv) : (s.storeAt g key bs).Inv := .wr' (.updSeat hs)

theorem State.Inv.unstore {g : Nat} (hs : s.Inv) : (s.unstore g).Inv := .updSeat (.foldl' (fun _ _ h1 => .ite (.wr' h1) h1) hs)

theorem State.Inv.rerunSeat {g line : Nat} (hs : s.Inv) : (s.rerunSeat g line).Inv := by
  unfold State.rerunSeat
  dsimp only
  split
  · exact .updSeat (.setSbuf (.withdraw (.updSeat (.ite (.unstore hs) hs))))
  · exact .updSeat (.ite (.unstore hs) hs)

theorem State.Inv.parityFault {g : Nat} {v : Invocation} {f : FaultRec} {line : Nat} (hs : s.Inv) : (s.parityFault g v f line).Inv :=
  .rerunSeat (.fltBump' (.kfault hs))

theorem Th.readSeat_inv {t : Th} {off n : Nat} {f : List Byte → State} (hs : s.Inv) (hf : ∀ x, (f x).Inv) : (t.readSeat s off n f).Inv := by
  unfold Th.readSeat
  dsimp only
  split
  · exact hf _
  · exact .ite (Th.stall_inv (.parityEvent hs)) (.parityFault (.parityEvent hs))

theorem State.Inv.potRefetch {key n cmd : Nat} (hs : s.Inv) : (s.potRefetch key n cmd).Inv :=
  .ite hs (.set (.recovered (.audEvent (.bumpBy' hs))))

theorem State.Inv.potWritten {key n : Nat} (hs : s.Inv) : (s.potWritten key n).Inv := hs

theorem State.Inv.writeSeat {g off : Nat} {bs : List Byte} (hs : s.Inv) : (s.writeSeat g off bs).Inv := .wr' (.updSeat hs)


/-! ### Scalar -/

theorem execTspawn_keeps {i : Iss} {d a b : BitVec 5} (hs : s.Inv) : Res.Keeps (execTspawn i d a b s) := by
  unfold execTspawn
  dsimp only
  refine ⟨_, rfl, .scalar hs (fun _ _ h1 => ?_)⟩
  split
  · exact Th.done_inv h1
  · exact .updCtx (Th.done_inv (.draw h1))

theorem execIllegalEncoding_keeps {i : Iss} {w0 w1 : Word} (hs : s.Inv) : Res.Keeps (execIllegalEncoding i w0 w1 s) := by
  refine ⟨_, rfl, ?_⟩
  split
  · exact hs
  · exact .issue hs (fun _ _ h1 => Th.fault_inv' h1)


/-! ### ThreadMem -/

theorem State.Inv.abortInv {n : Nat} (hs : s.Inv) : (s.abortInv n).Inv := .stopInvocation hs

theorem State.Inv.touchRange {t va len : Nat} {dirty : Bool} (hs : s.Inv) : (s.touchRange t va len dirty).Inv := hs

theorem State.Inv.touch {t va : Nat} {dirty : Bool} (hs : s.Inv) : (s.touch t va dirty).Inv := .touchRange hs

theorem Th.accessAt_inv {t : Th} {acc : Access} {va : Nat} {parts : List (Nat × Nat)} {f : State → Nat → State} (hs : s.Inv) (hf : ∀ (s :
  State) x, s.Inv → (f s x).Inv) : (t.accessAt s acc va parts f).Inv := by
  unfold Th.accessAt
  split
  · exact Th.fault_inv' hs
  · exact Th.stall_inv hs
  · exact .ite (Th.stall_inv hs) (.ite (.abortInv (.bump' hs)) (.ite (.abortInv hs) (hf _ _ (.touch (.foldl' (fun _ _ h1 => .ite
      (.potWritten h1) (.potRefetch h1)) hs)))))

theorem Th.access_inv {t : Th} {acc : Access} {va len : Nat} {f : State → Nat → State} (hs : s.Inv) (hf : ∀ (s : State) x, s.Inv → (f s
  x).Inv) : (t.access s acc va len f).Inv :=
  Th.accessAt_inv hs (fun _ _ h1 => hf _ _ h1)

theorem execLdsSts_keeps {i : Iss} {store : Bool} {sz : BitVec 2} {d a : BitVec 5} {off : BitVec 11} (hs : s.Inv) : Res.Keeps (execLdsSts i
  store sz d a off s) := by
  unfold execLdsSts
  dsimp only
  refine ⟨_, rfl, .scalar hs (fun _ _ h1 => ?_)⟩
  split
  · exact Th.fault_inv' h1
  · exact .ite (Th.skip_inv (.writeSeat h1)) (Th.readSeat_inv h1 (fun _ => Th.done_inv h1))

theorem execLdSt_keeps {i : Iss} {store : Bool} {sz : BitVec 2} {d a : BitVec 5} {off : BitVec 11} (hs : s.Inv) : Res.Keeps (execLdSt i
  store sz d a off s) :=
  ⟨_, rfl, .scalar hs (fun _ _ h1 => .ite (Th.fault_inv' h1) (.ite (Th.access_inv h1 (fun _ _ h2 => Th.skip_inv (.storeAt h2)))
    (Th.access_inv h1 (fun _ _ h3 => Th.done_inv h3))))⟩

theorem State.Inv.storeLanes {g key : Nat} {guard : Word} {v : VReg} (hs : s.Inv) : (s.storeLanes g key guard v).Inv := by
  unfold State.storeLanes
  exact .foldl' (fun _ _ h1 => .storeAt h1) hs

theorem execVldsVsts_keeps {i : Iss} {store : Bool} {sz : BitVec 2} {d a : BitVec 5} {off : BitVec 11} (hs : s.Inv) : Res.Keeps
  (execVldsVsts i store sz d a off s) := by
  refine ⟨_, rfl, .vector hs (fun _ _ h1 => .ite (Th.fault_inv' h1) (.ite (Th.skip_inv h1) (.ite (Th.fault_inv' h1) (.ite (Th.skip_inv
    (.foldl' (fun _ _ h2 => .writeSeat h2) h1)) ?_))))⟩
  split
  · exact Th.readSeat_inv h1 (fun _ => h1)
  · exact Th.done_inv h1

theorem execVldVst_keeps {i : Iss} {store : Bool} {sz : BitVec 2} {d a : BitVec 5} {off : BitVec 11} (hs : s.Inv) : Res.Keeps (execVldVst i
  store sz d a off s) :=
  ⟨_, rfl, .vector hs (fun _ _ h1 => .ite (Th.fault_inv' h1) (.ite (Th.skip_inv h1) (.ite (Th.accessAt_inv h1 (fun _ _ h2 => Th.skip_inv
    (.storeLanes h2))) (Th.accessAt_inv h1 (fun _ _ h3 => Th.done_inv h3)))))⟩

theorem execAmo_keeps {i : Iss} {fn : BitVec 8} {d a b : BitVec 5} (hs : s.Inv) : Res.Keeps (execAmo i fn d a b s) := by
  refine ⟨_, rfl, .scalar hs (fun _ _ h1 => .ite (Th.fault_inv' h1) (Th.access_inv h1 (fun _ _ h2 => .ite (Th.done_inv ?_) (Th.skip_inv
    ?_))))⟩
  · split
    · exact .storeAt h2
    · exact h2
  · split
    · exact .storeAt h2
    · exact h2

theorem State.Inv.updBarrier {n b : Nat} {f : Barrier → Barrier} (hs : s.Inv) : (s.updBarrier n b f).Inv := .updInv hs

theorem State.Inv.updInvCtxs {v : Invocation} {f : Ctx → Ctx} (hs : s.Inv) : (s.updInvCtxs v f).Inv := by
  unfold State.updInvCtxs
  exact .foldl' (fun _ _ h1 => .updSeat h1) hs

theorem State.Inv.arrive {t : Th} {b : Nat} (hs : s.Inv) : (s.arrive t b).Inv :=
  .ite (.updInvCtxs (.updBarrier (.updCtx hs))) (.updBarrier (.updCtx hs))

theorem State.Inv.barrierWait {t : Th} {b : Nat} (hs : s.Inv) : (s.barrierWait t b).Inv := by
  unfold State.barrierWait
  dsimp only
  split
  · exact Th.fault_inv' hs
  · exact .ite (Th.done_inv hs) (Th.done_inv hs)

theorem execHbarInit_keeps {i : Iss} {bar : BitVec 4} {a : BitVec 5} (hs : s.Inv) : Res.Keeps (execHbarInit i bar a s) :=
  ⟨_, rfl, .scalar hs (fun _ _ h1 => .ite (Th.fault_inv' h1) (Th.done_inv (.updInvCtxs (.updBarrier h1))))⟩

theorem execDma_keeps {i : Iss} {d a : BitVec 5} (hs : s.Inv) : Res.Keeps (execDma i d a s) := by
  refine ⟨_, rfl, .scalar hs (fun _ _ h1 => .ite (Th.fault_inv' h1) (.ite (Th.fault_inv' h1) (.ite (Th.stall_inv h1) (Th.readSeat_inv h1
    (fun _ => .ite (Th.fault_inv' h1) ?_)))))⟩
  split
  · exact Th.fault_inv' h1
  · exact Th.stall_inv h1
  · exact .ite (Th.fault_inv' h1) (Th.done_inv h1)

theorem State.Inv.refetchBlock {t va : Nat} {x : Stored} (hs : s.Inv) : (s.refetchBlock t va x).Inv := .wrRange (.bump' hs)

theorem State.Inv.refetchLine {g line src : Nat} (hs : s.Inv) : (s.refetchLine g line src).Inv := .bump' (.updSeat (.wr' hs))

theorem State.Inv.engineParity {g ctx : Nat} {v : Invocation} {w : Nat} (hs : s.Inv) : (s.engineParity g ctx v w).Inv := by
  unfold State.engineParity
  dsimp only
  split
  · exact .refetchLine (.parityEvent hs)
  · exact .parityFault (.draw (.parityEvent hs))

theorem execDmaComplete_keeps {seat ctx ticket : Nat} {crcBad : Bool} (hs : s.Inv) :
    Res.Keeps (execDmaComplete seat ctx ticket crcBad s) := by
  refine ⟨_, rfl, ?_⟩
  extract_lets x s1
  split
  · split
    · exact hs
    · split
      · exact hs
      · exact .engineParity hs
      · refine .ite hs ?_
        extract_lets s2 marks
        have h2 : s2.Inv := .when (.updCtx hs) (fun h => .recovered (.bump' h))
        clear_value s2
        refine .ite (.settleSeat' (.abortInv (.bump' h2))) (.ite (.settleSeat' (.abortInv h2)) ?_)
        split
        · exact .settleSeat' (.abortInv (.bump' h2))
        · extract_lets s3 s4 s5
          have h5 : s5.Inv := .when (.foldl' (fun _ _ h => .potRefetch h)
            (.foldl' (fun _ _ h => .refetchBlock (.recovered (.bump' h))) h2)) .touchRange
          exact .settleSeat' (.ite (.touchRange (.foldl' (fun _ _ h => .potWritten h) (.wrTva h5))) (.updSeat (.writeSeat h5)))
  · exact hs

theorem execUissue_keeps {i : Iss} {d a : BitVec 5} (hs : s.Inv) : Res.Keeps (execUissue i d a s) :=
  ⟨_, rfl, .scalar hs (fun _ _ h1 => .ite (Th.fault_inv' h1) (.ite (Th.fault_inv' h1) (.ite (Th.stall_inv h1) (Th.readSeat_inv h1 (fun _ =>
    .ite (Th.fault_inv' h1) (.ite (Th.fault_inv' h1) (.ite (Th.fault_inv' h1) (Th.access_inv h1 (fun _ _ h2 => Th.readSeat_inv h2 (fun _ =>
    .ite (.finishIssue' (.set (Th.done_inv h2))) (.ite (.finishIssue' (.set (Th.done_inv h2))) (.when (.set (Th.done_inv h2))
    .finishIssue'))))))))))))⟩

theorem execTvaLoadData_keeps {seat ctx : Nat} (hs : s.Inv) : Res.Keeps (execTvaLoadData seat ctx s) := by
  refine ⟨_, rfl, ?_⟩
  split
  · exact hs
  · exact .updCtx hs

theorem execParityRefetchDone_keeps {seat line : Nat} (hs : s.Inv) : Res.Keeps (execParityRefetchDone seat line s) := by
  refine ⟨_, rfl, ?_⟩
  dsimp only
  split
  · exact hs
  · exact .ite hs (.refetchLine hs)


/-! ### Matrix -/

theorem execMrun_keeps {i : Iss} (hs : s.Inv) : Res.Keeps (execMrun i s) := by
  unfold execMrun
  dsimp only
  refine ⟨_, rfl, .scalar hs (fun _ _ h1 => Th.inTurn_inv h1 (fun _ _ _ h2 => ?_))⟩
  split
  · exact Th.fault_inv' h2
  · refine .ite (Th.fault_inv' h2) (.ite (Th.fault_inv' h2) (Th.readSeat_inv h2 (fun _ => .ite (Th.fault_inv' h2) (.ite (Th.queueUp_inv h2)
      ?_))))
    split
    · exact Th.readSeat_inv h2 (fun _ => h2)
    · exact .updSeat (Th.skip_inv h2)

theorem execMatrixRunDone_keeps {seat : Nat} {chained : Bool} {drainStall queueStall : Nat} (hs : s.Inv) : Res.Keeps (execMatrixRunDone
  seat chained drainStall queueStall s) := by
  refine ⟨_, rfl, ?_⟩
  dsimp only
  split
  · exact hs
  · exact .ite hs (.ite hs (.settleSeat' (.bump64' (.bumpBy' (.bumpBy' (.bump64' (.bump64' (.updSeat hs))))))))

theorem State.Inv.writeRows {g : Nat} {d : Drain} {rows : List (List Byte)} (hs : s.Inv) : (s.writeRows g d rows).Inv := by
  unfold State.writeRows
  exact .foldl' (fun _ _ h1 => .writeSeat h1) hs

theorem State.Inv.disarm {g : Nat} (hs : s.Inv) : (s.disarm g).Inv := .ite hs hs

theorem State.Inv.mismatch {g : Nat} {t : Tile} {row col : Option Nat} (hs : s.Inv) : (s.mismatch g t row col).Inv := .audEvent (.bump' hs)

theorem State.Inv.judge {g : Nat} {t : Tile} {u : Upset} (hs : s.Inv) : (s.judge g t u).2.2.Inv :=
  .ite (.draw (.bumpBy' (.disarm hs))) (.draw (.mismatch (.bumpBy' (.disarm hs))))

theorem State.Inv.judgeAgain {home g : Nat} {t : Tile} {u : Upset} (hs : s.Inv) : (s.judgeAgain home g t u).2.2.Inv := by
  unfold State.judgeAgain
  split
  · exact .judge hs
  · exact .ite (.draw (.disarm hs)) (.draw (.mismatch (.disarm hs)))

theorem State.Inv.strike {g : Nat} {due : Bool} (hs : s.Inv) : (s.strike g due).Inv :=
  .when (.bump' (.updSeat hs)) (fun h1 => .fenceHolder (.updSeat h1))

theorem State.Inv.resolveTile {g : Nat} {d : Drain} {t : Tile} (hs : s.Inv) : (s.resolveTile g d t).Inv :=
  .settleSeat' (.when (.bump64' (.bump64' (.updSeat hs))) .bump64')

theorem State.Inv.recoveredSeat {g : Nat} (hs : s.Inv) : (s.recoveredSeat g).Inv := by
  unfold State.recoveredSeat
  split
  · split
    · exact .recovered hs
    · exact hs
  · exact hs

theorem execMdrain_keeps {i : Iss} {a b : BitVec 5} {upset : Upset} (hs : s.Inv) : Res.Keeps (execMdrain i a b upset s) := by
  unfold execMdrain
  dsimp only
  refine ⟨_, rfl, .scalar hs (fun _ _ h1 => Th.inTurn_inv h1 (fun _ _ _ h2 => ?_))⟩
  split
  · exact Th.fault_inv' h2
  · split
    · exact Th.queueUp_inv h2
    · exact .ite (Th.queueUp_inv h2) (.ite (Th.fault_inv' h2) (.ite (Th.fault_inv' h2) (.ite (Th.fault_inv' h2) (.ite (.resolveTile
        (.writeRows (.updSeat (.judge h2)))) (.updCtx (.updSeat (.writeRows (.draw (.updSeat (.judge h2))))))))))

theorem State.Inv.repairRead {g : Nat} {t : Tile} {f : State → State} (hs : s.Inv) (hf : ∀ (s : State), s.Inv → (f s).Inv) : (s.repairRead
  g t f).Inv := by
  unfold State.repairRead
  split
  · exact .engineParity hs
  · exact hf _ hs

theorem execTileRerun_keeps {seat : Nat} {upset : Upset} (hs : s.Inv) : Res.Keeps (execTileRerun seat upset s) := by
  refine ⟨_, rfl, ?_⟩
  split
  · exact hs
  · exact .ite hs (.repairRead hs (fun _ h1 => .ite (.resolveTile (.writeRows (.recoveredSeat (.bump' (.judgeAgain h1))))) (.updSeat
      (.judgeAgain h1))))

theorem execTileRepairOther_keeps {seat other : Nat} {upset : Upset} (hs : s.Inv) :
    Res.Keeps (execTileRepairOther seat other upset s) := by
  refine ⟨_, rfl, ?_⟩
  split
  · exact hs
  · refine .ite hs (.repairRead hs (fun u hu => ?_))
    extract_lets alone due1 due2
    split
    next accs pass s1 e =>
      extract_lets s2 s3 s4 s5 s6 s7 s8
      have h2 : s2.Inv := .unless (.of_snd_eq e (.judgeAgain hu)) .bump'
      have h5 : s5.Inv := by
        refine .ite (.writeRows (.recoveredSeat (.unless h2 .bump'))) ?_
        split
        · exact .abortInv (.bump' h2)
        · exact .bump' h2
      exact .unless (.unless (.unless (.resolveTile h5) .updSeat) .strike) .strike

theorem execRelayout_keeps {i : Iss} {a : BitVec 5} (hs : s.Inv) : Res.Keeps (execRelayout i a s) :=
  ⟨_, rfl, .scalar hs (fun _ _ h1 => .ite (Th.fault_inv' h1) (.ite (Th.fault_inv' h1) (Th.readSeat_inv h1 (fun _ => .ite (Th.fault_inv' h1)
    (Th.readSeat_inv h1 (fun _ => Th.skip_inv (.foldl' (fun _ _ h2 => .writeSeat h2) h1)))))))⟩


/-! ### Select -/

theorem State.Inv.countExcluded {invalid duplicates : Nat} (hs : s.Inv) : (s.countExcluded invalid duplicates).Inv := .bump64' (.bump64' hs)

theorem State.Inv.onCheck {k : IssueKey} {c : UCheck} {f : State → State} (hs : s.Inv) (hf : ∀ (s : State), s.Inv → (f s).Inv) : (s.onCheck
  k c f).Inv := by
  unfold State.onCheck
  split
  · exact hf _ hs
  · exact .finishIssue' hs
  · exact hs
  · exact .finishIssue' hs
  · exact .finishIssue' hs
  · exact .finishIssue' (.bump' hs)

theorem State.Inv.beginIssue {k : IssueKey} (hs : s.Inv) : (s.beginIssue k).Inv := hs


/-! ### Media -/

theorem State.Inv.announceFls {old : State} (hs : s.Inv) : (s.announceFls old).Inv := .ite hs (.msix' hs)

theorem State.Inv.bufferPlace {begun : Bool} {off lpns : List Nat} (hs : s.Inv) : (s.bufferPlace begun off lpns).1.Inv := by
  unfold State.bufferPlace
  dsimp only
  split <;> exact hs

theorem State.Inv.mediaPut {off : List Nat} {o : Owner} {t : Nat} {x : Stored} (hs : s.Inv) : (s.mediaPut off o t x).1.Inv := by
  unfold State.mediaPut
  extract_lets f seq head at' k new lpns units
  split
  next z ok waited e =>
    have hz : z.Inv := .of_eq e (.foldl_fst (fun _ _ h => .ite_fst h (.bufferPlace h)) hs)
    have hc {y : State} (hy : y.Inv) : (if waited = true then y.bump 0x000E0054 else y).Inv := .when hy .bump'
    exact .ite_fst (.announceFls (hc hs)) (.chargeT2 (.announceFls (hc (.when (.set hz) .bump'))))

theorem State.Inv.mediaPuts {t : Nat} {l : List (Owner × Stored)} (hs : s.Inv) : (s.mediaPuts t l).1.Inv := by
  unfold State.mediaPuts
  refine .foldl_fst (fun _ _ h1 => ?_) hs
  split
  · exact h1
  · exact .mediaPut h1

theorem State.Inv.mediaFreeExt {p : Extent → Bool} (hs : s.Inv) : (s.mediaFreeExt p).Inv := by
  unfold State.mediaFreeExt
  exact .foldl' (fun _ _ h1 => .releaseT2 h1) (.announceFls hs)

theorem State.Inv.mediaFree {p : Owner → Bool} (hs : s.Inv) : (s.mediaFree p).Inv := .mediaFreeExt hs

theorem State.Inv.mediaReplace {off : List Nat} {o : Owner} {t : Nat} {x : Stored} (hs : s.Inv) : (s.mediaReplace off o t x).1.Inv := by
  unfold State.mediaReplace
  dsimp only
  split
  · exact .mediaFreeExt (.mediaPut hs)
  · exact .mediaPut hs

theorem State.Inv.countLost {p : Owner → Bool} (hs : s.Inv) : (s.countLost p).Inv := .bumpBy' hs

theorem State.Inv.defer {n : Nat} (hs : s.Inv) : (s.defer n).Inv := .bump' hs

theorem State.Inv.relocate {n : Nat} {byReads : Bool} (hs : s.Inv) : (s.relocate n byReads).Inv := by
  unfold State.relocate
  refine .ite (.defer hs) ?_
  split
  · exact .defer hs
  · exact .when (.bump' hs) .bump'

theorem State.Inv.copyRetired {n : Nat} {use : BlkUse} (hs : s.Inv) : (s.copyRetired n use).Inv := by
  unfold State.copyRetired
  dsimp only
  split <;> exact hs

theorem State.Inv.background (hs : s.Inv) : s.background.Inv := by
  unfold State.background
  refine .ite hs (.ite hs ?_)
  split
  · exact .copyRetired hs
  · exact .relocate hs
  · exact hs
  · exact hs

theorem State.Inv.failDie {d : Nat} (hs : s.Inv) : (s.failDie d).Inv := .ite hs (.bumpBy' hs)

theorem State.Inv.retire {n : Nat} (hs : s.Inv) : (s.retire n).Inv := .when (.unless (.bump' hs) .copyRetired) .failDie

theorem State.Inv.failPrograms {k : Nat} (hs : s.Inv) : (State.failPrograms k s).Inv := by
  induction k generalizing s with
  | zero => exact hs
  | succ k ih =>
    unfold State.failPrograms
    split
    · exact ih hs.retire
    · exact hs

theorem State.Inv.reject {h : Nat} (hs : s.Inv) : (s.reject h).Inv := .fail' (.bump' hs)

theorem State.Inv.mediaWrite {h : Nat} {c : Cmd} {res : WriteResult} (hs : s.Inv) : (s.mediaWrite h c res).Inv := by
  unfold State.mediaWrite
  dsimp only
  refine .ite (.fail' hs) ?_
  split
  · exact .fail' hs
  · refine .ite hs (.ite (.fail' (.draw hs)) (.ite (.fail' (.bump' (.draw hs))) (.ite (.fail' (.draw hs)) (.ite (.fail' (.announceFls
      (.failPrograms (.draw hs)))) (.ite (.complete' (.bump' (.foldl_fst (fun _ _ h1 => ?_) (.draw hs)))) (.complete' (.foldl_fst (fun _ _
      h2 => ?_) (.draw hs))))))))
    · split
      · exact h1
      · exact .mediaReplace h1
    · split
      · exact h2
      · exact .mediaReplace h2

theorem State.Inv.mediaRead {h : Nat} {c : Cmd} (hs : s.Inv) : (s.mediaRead h c).Inv := by
  unfold State.mediaRead
  refine .ite (.fail' hs) ?_
  split
  · exact .fail' hs
  · exact .complete' (.wr' (.wr' (.foldl' (fun _ _ h1 => .countLost h1) hs)))

theorem State.Inv.mediaTrim {h : Nat} {c : Cmd} (hs : s.Inv) : (s.mediaTrim h c).Inv := .ite (.fail' hs) (.complete' (.mediaFree hs))

theorem execMediaWrite_keeps {cmd : Nat} {res : WriteResult} (hs : s.Inv) : Res.Keeps (execMediaWrite cmd res s) := by
  refine ⟨_, rfl, ?_⟩
  split
  · exact .ite hs (.mediaWrite hs)
  · exact hs

theorem execMediaRead_keeps {cmd : Nat} (hs : s.Inv) : Res.Keeps (execMediaRead cmd s) := by
  refine ⟨_, rfl, ?_⟩
  split
  · exact .ite hs (.mediaRead hs)
  · exact hs

theorem execMediaTrim_keeps {cmd : Nat} (hs : s.Inv) : Res.Keeps (execMediaTrim cmd s) := by
  refine ⟨_, rfl, ?_⟩
  split
  · exact .ite hs (.mediaTrim hs)
  · exact hs

theorem execMediaUnseal_keeps {cmd : Nat} (hs : s.Inv) : Res.Keeps (execMediaUnseal cmd s) := by
  refine ⟨_, rfl, ?_⟩
  split
  · exact hs
  · exact .ite (.complete' hs) (.ite (.complete' (.announceFls hs)) (.complete' hs))

theorem execJournalProgram_keeps {res : WriteResult} (hs : s.Inv) : Res.Keeps (execJournalProgram res s) := by
  refine ⟨_, rfl, .ite hs ?_⟩
  split
  · split
    · exact .announceFls (.retire hs)
    · exact hs
  · exact hs

theorem State.Inv.checkpoint (hs : s.Inv) : s.checkpoint.Inv := hs

theorem execNandReadDone_keeps {lpn : Nat} {res : ReadResult} {codewords : Nat} (hs : s.Inv) : Res.Keeps (execNandReadDone lpn res
  codewords s) := by
  refine ⟨_, rfl, ?_⟩
  dsimp only
  split
  · exact hs
  · exact .bump' hs
  · split
    · exact hs
    · exact .bumpBy' hs
    · exact .bump' (.bumpBy' hs)
    · exact .bump' (.bumpBy' (.set hs))

theorem execNandProgramDone_keeps {block : Nat} {res : WriteResult} (hs : s.Inv) : Res.Keeps (execNandProgramDone block res s) := by
  unfold execNandProgramDone
  dsimp only
  refine ⟨_, rfl, .ite hs ?_⟩
  split
  · exact .announceFls (.background hs)
  · exact .announceFls (.retire hs)

theorem execDieRebuildDone_keeps {die : Nat} (hs : s.Inv) : Res.Keeps (execDieRebuildDone die s) := by
  unfold execDieRebuildDone
  dsimp only
  refine ⟨_, rfl, .ite hs ?_⟩
  split <;> exact .announceFls hs

theorem State.Inv.holdup (hs : s.Inv) : s.holdup.Inv := hs


/-! ### Embed -/

theorem State.Inv.updTable {n : Nat} {f : EmbTable → EmbTable} (hs : s.Inv) : (s.updTable n f).Inv := .updEmbed hs

theorem State.Inv.updExchange {b : Nat} {f : Exchange → Exchange} (hs : s.Inv) : (s.updExchange b f).Inv := .updEmbed hs

theorem State.Inv.putTable {t : EmbTable} (hs : s.Inv) : (s.putTable t).Inv := .updTable (.releaseT1 (.chargeT1 hs))

theorem State.Inv.sketchAdd {t r : Nat} (hs : s.Inv) : (s.sketchAdd t r).Inv := .updEmbed hs

theorem State.Inv.discardBad {t r : Nat} (hs : s.Inv) : (s.discardBad t r).1.Inv := by
  unfold State.discardBad
  split
  · exact .updEmbed (.bump' hs)
  · exact hs

theorem State.Inv.cachePut {t r : Nat} (hs : s.Inv) : (s.cachePut t r).Inv := .updEmbed hs

theorem State.Inv.cacheAdmit {t r : Nat} (hs : s.Inv) : (s.cacheAdmit t r).Inv := by
  unfold State.cacheAdmit
  refine .ite (.cachePut hs) ?_
  split
  · exact .ite (.cachePut hs) (.ite (.bump' hs) (.cachePut (.updEmbed hs)))
  · exact .cachePut hs

theorem State.Inv.cacheRow {t r : Nat} (hs : s.Inv) : (s.cacheRow t r).Inv := .ite (.bump64' (.cachePut hs)) (.cacheAdmit hs)

theorem State.Inv.refuse {kind : Nat} {m : List Byte} (hs : s.Inv) : (s.refuse kind m).Inv := .ite (.fltBump' hs) hs

theorem State.Inv.restoreRow {n r : Nat} (hs : s.Inv) : (s.restoreRow n r).Inv := by
  unfold State.restoreRow
  split
  · exact hs
  · exact .ite (.putTable (.countLost hs)) (.putTable (.bump' hs))

theorem State.Inv.rebuildRows {n : Nat} {ids : List Nat} (hs : s.Inv) : (s.rebuildRows n ids).1.Inv := by
  unfold State.rebuildRows
  exact .foldl' (fun _ _ h1 => .restoreRow h1) hs

theorem State.Inv.revertRow {n r : Nat} (hs : s.Inv) : (s.revertRow n r).Inv := by
  unfold State.revertRow
  exact .foldl' (fun _ _ h1 => .recoveredWaiter h1) (.restoreRow hs)

theorem State.Inv.endLookup {x : Exchange} (hs : s.Inv) : (s.endLookup x).Inv := by
  unfold State.endLookup
  dsimp only
  split
  · exact .finishIssue' (.wrTva (.bumpBy' (.bumpBy' (.updEmbed hs))))
  · split
    · exact .complete' (.wr' (.bumpBy' (.bumpBy' (.updEmbed hs))))
    · exact .reject (.bumpBy' (.bumpBy' (.updEmbed hs)))

theorem State.Inv.beginPass {x : Exchange} (hs : s.Inv) : (s.beginPass x).Inv := by
  unfold State.beginPass
  dsimp only
  split
  · exact .updExchange (.rebuildRows (.updEmbed (.bump64' hs)))
  · exact .foldl' (fun _ _ h1 => .send h1) (.foldl' (fun _ _ h2 => .cacheRow h2) (.updExchange (.ite (.recoveredWaiter (.foldl_fst (fun _ _
      h3 => .discardBad h3) (.foldl' (fun _ _ h4 => .sketchAdd h4) (.rebuildRows (.updEmbed (.bump64' hs)))))) (.foldl_fst (fun _ _ h5 =>
      .discardBad h5) (.foldl' (fun _ _ h4 => .sketchAdd h4) (.rebuildRows (.updEmbed (.bump64' hs))))))))

theorem State.Inv.runPasses {k batch : Nat} (hs : s.Inv) : (State.runPasses k s batch).Inv := by
  induction k generalizing s batch with
  | zero => exact hs
  | succ k ih =>
    unfold State.runPasses
    split
    · exact hs
    · exact .ite hs (.ite (.endLookup hs) (ih (.beginPass (.updExchange hs))))

theorem State.Inv.settleExchange {batch : Nat} (hs : s.Inv) : (s.settleExchange batch).Inv := by
  unfold State.settleExchange
  split
  · exact hs
  · exact .ite hs (.ite (.completeWaiter' (.updEmbed hs)) (.runPasses hs))

theorem State.Inv.startLookup {who : Waiter} {tenant : Nat} {stock : Bool} {t : EmbTable} {indices : List Nat} {data : Nat} (hs : s.Inv) :
  (s.startLookup who tenant stock t indices data).Inv :=
  .settleExchange (.updEmbed (.bump64' hs))

theorem State.Inv.embLookup {h : Nat} {c : Cmd} (hs : s.Inv) : (s.embLookup h c).Inv := by
  unfold State.embLookup
  dsimp only
  split
  · exact .fail' hs
  · split
    · exact .ite (.fail' hs) (.ite (.fail' hs) (.startLookup (.updCmd hs)))
    · exact .fail' hs

theorem execEmbLookup_keeps {cmd : Nat} (hs : s.Inv) : Res.Keeps (execEmbLookup cmd s) := by
  refine ⟨_, rfl, ?_⟩
  split
  · exact .ite hs (.embLookup hs)
  · exact hs

theorem execGatherLookup_keeps {k : IssueKey} (hs : s.Inv) : Res.Keeps (execGatherLookup k s) := by
  refine ⟨_, rfl, ?_⟩
  dsimp only
  split
  · exact hs
  · split
    · exact .finishIssue' hs
    · exact .ite (.finishIssue' hs) (.onCheck hs (fun _ h1 => .startLookup (.beginIssue h1)))

theorem State.Inv.recvLookupReq {m : List Byte} (hs : s.Inv) : (s.recvLookupReq m).Inv :=
  .ite (.refuse hs) (.send (.when (.ite (.rebuildRows hs) hs) .bump'))

theorem State.Inv.recvLookupRsp {m : List Byte} (hs : s.Inv) : (s.recvLookupRsp m).Inv := by
  unfold State.recvLookupRsp
  refine .ite (.refuse hs) (.ite (.bump' hs) ?_)
  split
  · exact .bump' hs
  · split
    · exact .bump' hs
    · refine .settleExchange ?_
      split
      · exact .updExchange hs
      · exact .foldl' (fun _ _ h1 => .cacheAdmit h1) (.updTable (.updExchange hs))

theorem State.Inv.dropCkpt {n : Nat} (hs : s.Inv) : (s.dropCkpt n).Inv := by
  unfold State.dropCkpt
  split
  · exact hs
  · exact .updTable (.mediaFree (.bumpBy' hs))

theorem State.Inv.applySteps {n k : Nat} (hs : s.Inv) : (s.applySteps n k).Inv := by
  induction k generalizing s with
  | zero => exact hs
  | succ k ih =>
    unfold State.applySteps
    split
    · exact hs
    · split
      · exact hs
      · exact ih (.unless (.putTable (.bumpBy' (.draw (.rebuildRows hs)))) .dropCkpt)

theorem State.Inv.shedSender {src : Nat} (hs : s.Inv) : (s.shedSender src).Inv :=
  .updEmbed (.foldl' (fun _ _ h1 => .putTable (.bumpBy' (.bumpBy' h1))) hs)

theorem State.Inv.embTake {b : EmbBatch} (hs : s.Inv) : (s.embTake b).1.Inv := by
  unfold State.embTake
  extract_lets n own
  split
  · exact .bump' hs
  · extract_lets key o first
    refine .ite_fst (.bump' hs) (.ite_fst (.updTable (.bumpBy' hs)) ?_)
    have hput {u : State} {x : EmbTable} {i k : Nat} (hu : u.Inv) : ((u.putTable x).applySteps i k).Inv := .applySteps (.putTable hu)
    exact .ite_fst (hput (.bumpBy' (.draw hs))) (.ite_fst (hput (.bumpBy' (.bump' (.draw hs)))) (hput (.bumpBy' (.draw hs))))

theorem State.Inv.embAnswer {m : List Byte} {k : EmbTaken} (hs : s.Inv) : (s.embAnswer m k).Inv :=
  .ite (.send (.updEmbed hs)) (.updEmbed hs)

theorem State.Inv.recvUpdate {kind : Nat} {m : List Byte} (hs : s.Inv) : (s.recvUpdate kind m).Inv := by
  unfold State.recvUpdate
  refine .ite (.refuse hs) ?_
  split
  · exact .embAnswer (.bump' hs)
  · exact .embAnswer (.embTake hs)

theorem State.Inv.recvUpdateAck {m : List Byte} (hs : s.Inv) : (s.recvUpdateAck m).Inv := by
  unfold State.recvUpdateAck
  refine .ite (.refuse hs) (.ite (.bump' hs) ?_)
  split
  · exact .bump' hs
  · exact .settleExchange (.updExchange hs)

theorem State.Inv.startUpdate {who : Waiter} {tenant : Nat} {stock : Bool} {t : EmbTable} {u : EmbUpdate} (hs : s.Inv) : (s.startUpdate who
  tenant stock t u).Inv :=
  .settleExchange (.when (.foldl' (fun _ _ h1 => .foldl' (fun _ _ h2 => .send h2) h1) (.updTable (.updEmbed (.bumpBy' (.draw hs))))) (fun
    h3 => .updExchange (.embTake h3)))

theorem execEmbUpdate_keeps {cmd : Nat} (hs : s.Inv) : Res.Keeps (execEmbUpdate cmd s) := by
  refine ⟨_, rfl, ?_⟩
  dsimp only
  split
  · exact hs
  · split
    · split
      · exact .ite (.fail' hs) (.ite (.fail' hs) (.ite (.fail' hs) (.startUpdate (.updCmd hs))))
      · exact .fail' hs
    · exact .fail' hs

theorem execGatherUpdate_keeps {k : IssueKey} (hs : s.Inv) : Res.Keeps (execGatherUpdate k s) := by
  refine ⟨_, rfl, ?_⟩
  dsimp only
  split
  · exact hs
  · split
    · exact .finishIssue' hs
    · exact .ite (.finishIssue' hs) (.onCheck hs (fun _ h1 => .onCheck h1 (fun _ h2 => .ite (.finishIssue' h2) (.startUpdate (.beginIssue
        h2)))))

theorem execEmbCheckpoint_keeps {table : Nat} (hs : s.Inv) : Res.Keeps (execEmbCheckpoint table s) := by
  refine ⟨_, rfl, ?_⟩
  split
  · exact hs
  · split
    · exact .ite (.updTable (.bump' (.draw hs))) (.ite (.updTable (.bump' (.bump' (.draw hs)))) (.ite (.updTable (.bump' (.bump'
        (.mediaFree (.mediaPuts (.draw hs)))))) (.updTable (.mediaPuts (.draw hs)))))
    · exact hs

theorem execEmbCheckpointDone_keeps {table : Nat} (hs : s.Inv) : Res.Keeps (execEmbCheckpointDone table s) := by
  refine ⟨_, rfl, ?_⟩
  split
  · exact hs
  · split
    · exact hs
    · exact .updTable (.mediaFree hs)

theorem State.Inv.passSlots {m : Nat} {survives : Nat → Bool} (hs : s.Inv) : (s.passSlots m survives).Inv := by
  unfold State.passSlots
  exact .foldl' (fun _ _ h1 => .updEmbed (.putTable h1)) hs

theorem State.Inv.passInTurn {set gone : List Nat} (hs : s.Inv) : (s.passInTurn set gone).Inv := by
  unfold State.passInTurn
  exact .foldl_fst (fun _ _ h1 => .passSlots h1) hs

theorem State.Inv.embAbandon {gone : Nat → Bool} (hs : s.Inv) : (s.embAbandon gone).Inv := by
  unfold State.embAbandon
  exact .foldl' (fun _ _ h1 => .applySteps h1) (.foldl' (fun _ _ h2 => .settleExchange h2) (.updEmbed hs))

theorem State.Inv.embLost {m : Nat} (hs : s.Inv) : (s.embLost m).Inv := .embAbandon (.shedSender (.passSlots hs))

theorem State.Inv.embAlone {goesOn : Nat → Bool} (hs : s.Inv) : (s.embAlone goesOn).Inv := .ite hs (.embAbandon (.passInTurn (.updCell hs)))

theorem State.Inv.embJoined (hs : s.Inv) : s.embJoined.Inv := .updCell (.passInTurn hs)

theorem State.Inv.embDeliver {m : List Byte} (hs : s.Inv) : (s.embDeliver m).Inv := by
  unfold State.embDeliver
  split
  · exact .recvLookupReq hs
  · exact .recvLookupRsp hs
  · exact .recvUpdate hs
  · exact .recvUpdateAck hs
  · exact .recvUpdate hs
  · exact hs


/-! ### Meld -/

theorem State.Inv.updSelection {k : IssueKey} {f : Selection → Selection} (hs : s.Inv) : (s.updSelection k f).Inv := hs

theorem State.Inv.beginRow {u : UnitIssue} {op : Nat} {topp : Bool} (hs : s.Inv) : (s.beginRow u op topp).Inv :=
  .ite (.finishIssue' hs) (.ite (.finishIssue' hs) (.onCheck hs (fun _ h1 => .set (.beginIssue h1))))

theorem execMeldTopk_keeps {k : IssueKey} (hs : s.Inv) : Res.Keeps (execMeldTopk k s) := by
  refine ⟨_, rfl, ?_⟩
  split
  · exact .beginRow hs
  · exact hs

theorem execMeldTopp_keeps {k : IssueKey} (hs : s.Inv) : Res.Keeps (execMeldTopp k s) := by
  refine ⟨_, rfl, ?_⟩
  split
  · exact .beginRow hs
  · exact hs

theorem execMeldMerge_keeps {k : IssueKey} (hs : s.Inv) : Res.Keeps (execMeldMerge k s) := by
  refine ⟨_, rfl, ?_⟩
  split
  · exact hs
  · exact .ite (.finishIssue' hs) (.ite (.finishIssue' hs) (.onCheck hs (fun _ h1 => .set (.beginIssue h1))))

theorem State.Inv.finishSelection {x : Selection} {last : MPart} (hs : s.Inv) : (s.finishSelection x last).Inv := by
  unfold State.finishSelection
  dsimp only
  split
  · exact .when (.when hs .bump') .bump'
  · exact .finishIssue' (.wrTva (.when (.when hs .bump') .bump'))

theorem State.Inv.settleSelection {k : IssueKey} (hs : s.Inv) : (s.settleSelection k).Inv := by
  unfold State.settleSelection
  split
  · exact hs
  · split
    · exact hs
    · exact .finishSelection hs

theorem State.Inv.meldShadow {k : IssueKey} {sh : Shadow} {f : State → State} (hs : s.Inv) (hf : ∀ (s : State), s.Inv → (f s).Inv) :
  (s.meldShadow k sh f).Inv := by
  unfold State.meldShadow
  split
  · exact hf _ hs
  · exact hf _ (.recoveredIssue (.bump' hs))
  · exact hs
  · exact .finishIssue' (.set (.bump' (.recoveredIssue (.bump' hs))))

theorem execMeldPiece_keeps {k : IssueKey} {shadow : Shadow} (hs : s.Inv) : Res.Keeps (execMeldPiece k shadow s) := by
  refine ⟨_, rfl, ?_⟩
  split
  · exact hs
  · exact .ite hs (.meldShadow hs (fun _ h1 => .settleSelection (.countExcluded (.bump64' h1))))

theorem execMeldMergeGroup_keeps {k : IssueKey} {shadow : Shadow} (hs : s.Inv) : Res.Keeps (execMeldMergeGroup k shadow s) := by
  refine ⟨_, rfl, ?_⟩
  split
  · exact hs
  · split
    · exact hs
    · exact .ite hs (.meldShadow hs (fun _ h1 => .settleSelection (.countExcluded (.updSelection h1))))


/-! ### ModelImage -/

theorem State.Inv.fillPot {ks : List Nat} {n : Nat} (hs : s.Inv) : (s.fillPot ks n).Inv := by
  induction ks generalizing s n with
  | nil => exact hs
  | cons k ks ih => exact .ite hs (ih (.set (.wr' (.draw hs))))

theorem State.Inv.loadSlices {h : Nat} (hs : s.Inv) : (s.loadSlices h).Inv := .updHand (.foldl' (fun _ _ h1 => .fillPot h1) hs)

theorem State.Inv.useHand {h m p : Nat} (hs : s.Inv) : (s.useHand h m p).Inv := .ite (.loadSlices (.updHand hs)) hs

theorem State.Inv.noteReady {h m p : Nat} (hs : s.Inv) : (s.noteReady h m p).Inv := .updHand hs


/-! ### T1 -/

theorem State.Inv.takeFrame {order : List Nat} (hs : s.Inv) : (s.takeFrame order).1.Inv := .updTier hs

theorem State.Inv.wrPage {key : Nat} {l : List (Nat × List Byte)} (hs : s.Inv) : (s.wrPage key l).Inv := ⟨State.wrPage_wf s key l hs.1, hs.2⟩

theorem State.Inv.addPage {t va : Nat} {wr : Bool} {order : List Nat} {bytes : Option (List Byte)} (hs : s.Inv) : (s.addPage t va wr order
  bytes).Inv := by
  unfold State.addPage
  dsimp only
  split
  · exact .wrPage (.mapPage (.takeFrame hs))
  · exact .mapPage (.takeFrame hs)

theorem State.Inv.placePages {t va : Nat} {bytes : List Byte} {present : Bool} {order : List Nat} {n : Nat} (hs : s.Inv) : (s.placePages t
  va bytes present order n).Inv := by
  unfold State.placePages
  exact .foldl' (fun _ _ h1 => .addPage h1) hs

theorem State.Inv.freePages {t va n : Nat} (hs : s.Inv) : (s.freePages t va n).Inv := .updTier (.unmapPages (.unmapPages hs))

theorem State.Inv.setPresent {t b : Nat} {on : Bool} (hs : s.Inv) : (s.setPresent t b on).Inv := hs

theorem State.Inv.poisonPage {key : Nat} (hs : s.Inv) : (s.poisonPage key).Inv := .updFlt (.updTier (.bumpBy' hs))

theorem State.Inv.updBlock {t b : Nat} {f : TBlock → TBlock} (hs : s.Inv) : (s.updBlock t b f).Inv := .updTier hs

theorem State.Inv.chargeT3 {t n : Nat} (hs : s.Inv) : (s.chargeT3 t n).Inv := .updTenant' hs

theorem State.Inv.releaseT3 {t n : Nat} (hs : s.Inv) : (s.releaseT3 t n).Inv := .updTenant' hs

theorem State.Inv.hostPut {o : Owner} {t : Nat} {x : Stored} (hs : s.Inv) : (s.hostPut o t x).1.Inv := by
  unfold State.hostPut
  split
  · exact hs
  · exact .chargeT3 (.when (.updTier (.wr' hs)) .bump')

theorem State.Inv.hostFree {p : Owner → Bool} (hs : s.Inv) : (s.hostFree p).Inv := by
  unfold State.hostFree
  exact .foldl' (fun _ _ h1 => .releaseT3 h1) (.updTier hs)


/-! ### Token -/

theorem State.Inv.readDeckLine {d : Deck} {line : Nat} (hs : s.Inv) : (s.readDeckLine d line).Inv := .ite hs (.ite hs (.set (.bump64' hs)))

theorem State.Inv.pinDeck (hs : s.Inv) : s.pinDeck.Inv := hs

theorem State.Inv.readDeck {d : Deck} {lines : List Nat} (hs : s.Inv) : (s.readDeck d lines).Inv := by
  unfold State.readDeck
  exact .foldl' (fun _ _ h1 => .readDeckLine h1) hs

theorem State.Inv.countTokenized {d : Deck} {t : Tokenized} (hs : s.Inv) : (s.countTokenized d t).Inv :=
  .readDeck (.bumpBy' (.bump64' (.bump64' hs)))

theorem State.Inv.putTokens {u : UnitIssue} {d : Deck} {final : Bool} {carry : List Byte} {t : Tokenized} (hs : s.Inv) : (s.putTokens u d
  final carry t).Inv :=
  .finishIssue' (.unless (.wrTva (.when (.countTokenized (.draw hs)) .bump')) .wrTva)

theorem execTokenize_keeps {k : IssueKey} (hs : s.Inv) : Res.Keeps (execTokenize k s) := by
  refine ⟨_, rfl, ?_⟩
  dsimp only
  split
  · exact hs
  · split
    · exact .finishIssue' hs
    · exact .ite (.finishIssue' hs) (.onCheck hs (fun _ h1 => .ite (.finishIssue' h1) (.ite (.finishIssue' h1) (.onCheck h1 (fun _ h2 =>
        .onCheck h2 (fun _ h3 => .putTokens h3))))))

theorem State.Inv.countDetok {d : Deck} {ids : List Nat} {ill bad : Nat} (hs : s.Inv) : (s.countDetok d ids ill bad).Inv :=
  .readDeck (.bumpBy' (.bumpBy' (.bump64' hs)))

theorem execDetokenize_keeps {k : IssueKey} (hs : s.Inv) : Res.Keeps (execDetokenize k s) := by
  refine ⟨_, rfl, ?_⟩
  dsimp only
  split
  · exact hs
  · split
    · exact .finishIssue' hs
    · exact .ite (.finishIssue' hs) (.onCheck hs (fun _ h1 => .ite (.finishIssue' h1) (.ite (.finishIssue' h1) (.onCheck h1 (fun _ h2 =>
        .onCheck h2 (fun _ h3 => .finishIssue' (.unless (.wrTva (.countDetok (.draw h3))) .wrTva)))))))

theorem execDeckCacheFill_keeps {deck line : Nat} {parityBad : Bool} (hs : s.Inv) : Res.Keeps (execDeckCacheFill deck line parityBad s) :=
  by
  refine ⟨_, rfl, ?_⟩
  dsimp only
  split
  · exact hs
  · refine .ite ?_ (.ite hs (.readDeckLine hs))
    split
    · exact .recoveredWaiter (.draw (.bump' hs))
    · exact .draw (.bump' hs)


/-! ### Lists -/

theorem State.Inv.updColl {n : Nat} {f : Collection → Collection} (hs : s.Inv) : (s.updColl n f).Inv := hs

theorem State.Inv.dirPlace {n : Nat} (hs : s.Inv) : (s.dirPlace n).1.Inv := by
  unfold State.dirPlace
  split <;> exact hs

theorem State.Inv.pageList {x : Collection} {y : LList} (hs : s.Inv) : (s.pageList x y).Inv := by
  unfold State.pageList
  extract_lets t order
  split
  next z pages e =>
    have hz : z.Inv := by
      refine .of_eq e (.foldl_fst (fun p g h => ?_) hs)
      exact .ite_fst (.ite_fst (.addPage h) h) (.unless h .freePages)
    extract_lets n
    split
    next u tombs e' =>
      have hu : u.Inv := .of_eq e' (.ite_fst hz (.foldl' (fun _ _ h => .addPage h) (.foldl' (fun _ _ h => .freePages h) hz)))
      exact .ite hu (.updColl hu)

theorem State.Inv.layList {old : State} {x : Collection} {y : LList} (hs : s.Inv) : (s.layList old x y).Inv :=
  .unless (.foldl' (fun _ _ h1 => .ite h1 (.ite h1 (.wrPage h1))) hs) (fun h2 => .foldl' (fun _ _ h3 => .ite h3 (.wrPage h3)) h2)

theorem State.Inv.layLists {old : State} {c : Nat} (hs : s.Inv) : (s.layLists old c).Inv := by
  unfold State.layLists
  dsimp only
  split
  · refine .foldl' (fun _ _ h1 => .layList h1) ?_
    split
    · exact .foldl' (fun _ _ h2 => .pageList h2) hs
    · exact hs
  · split
    · exact .foldl' (fun _ _ h2 => .pageList h2) hs
    · exact hs

theorem State.Inv.storeSegs {c l : Nat} {segs : List Nat} (hs : s.Inv) : (s.storeSegs c l segs).1.Inv := by
  unfold State.storeSegs
  split
  · exact hs
  · extract_lets y owned old
    split
    next z _ e =>
      have hz : z.Inv := .of_eq e (.foldl_fst (fun _ _ h => .ite_fst h (.mediaPut (.draw h))) hs)
      exact .ite_fst (.mediaFreeExt hz) (.mediaFreeExt hz)

theorem State.Inv.retireCopy {t c l t1 : Nat} {pages : List Nat} (hs : s.Inv) : (s.retireCopy t c l t1 pages).Inv :=
  .ite (.mediaFree (.releaseT1 (.foldl' (fun _ _ h1 => .freePages h1) hs))) (.updSearch (.updFlash hs))

theorem State.Inv.freeCopies {p : OldCopy → Bool} (hs : s.Inv) : (s.freeCopies p).Inv := by
  unfold State.freeCopies
  exact .foldl' (fun _ _ h1 => .mediaFree (.releaseT1 (.foldl' (fun _ _ h2 => .freePages h2) h1))) (.updSearch hs)

theorem State.Inv.settleCopies (hs : s.Inv) : s.settleCopies.Inv := .freeCopies hs

theorem State.Inv.setCached {picked : List (Nat × Nat)} (hs : s.Inv) : (s.setCached picked).Inv := hs

theorem State.Inv.trimCached (hs : s.Inv) : s.trimCached.Inv := .setCached hs

theorem State.Inv.takeEpoch {c h : Nat} (hs : s.Inv) : (s.takeEpoch c h).Inv := .updColl hs

theorem State.Inv.updEpoch {c h : Nat} {f : Epoch → Epoch} (hs : s.Inv) : (s.updEpoch c h f).Inv := .updColl hs

theorem State.Inv.endEpoch {c h count status : Nat} (hs : s.Inv) : (s.endEpoch c h count status).Inv := .updEpoch hs

theorem State.Inv.settleEpochs {c : Nat} (hs : s.Inv) : (s.settleEpochs c).Inv := .updColl hs

theorem State.Inv.dropEpochs {c : Nat} {gone : List Nat} (hs : s.Inv) : (s.dropEpochs c gone).Inv := by
  unfold State.dropEpochs
  split
  · exact hs
  · exact .layLists (.mediaFree (.chargeT1 (.releaseT1 (.updColl hs))))

theorem State.Inv.rollback {c h st : Nat} (hs : s.Inv) : (s.rollback c h st).Inv := by
  unfold State.rollback
  split
  · exact .endEpoch (.dropEpochs hs)
  · exact hs

theorem State.Inv.startCompact {c l : Nat} (hs : s.Inv) : (s.startCompact c l).Inv := by
  unfold State.startCompact
  split
  · exact hs
  · exact .ite hs (.ite (.bump' (.drawN hs)) (.updColl (.chargeT2 (.chargeT1 (.drawN hs)))))

theorem State.Inv.freeItems {c : Nat} (hs : s.Inv) : (s.freeItems c).Inv := by
  unfold State.freeItems
  split
  · exact hs
  · exact .mediaFree (.releaseT1 (.updColl hs))

theorem State.Inv.finishCompact {c l : Nat} (hs : s.Inv) : (s.finishCompact c l).1.Inv := by
  unfold State.finishCompact
  dsimp only
  split
  · exact hs
  · split
    · exact .bump' (.updColl (.releaseT2 (.releaseT1 hs)))
    · split
      · exact .freeItems (.storeSegs (.layLists (.updColl (.retireCopy (.chargeT1 (.updColl (.releaseT2 (.releaseT1 hs))))))))
      · exact .bump' (.set (.updColl (.releaseT2 (.releaseT1 hs))))

theorem State.Inv.endCompact {c l : Nat} (hs : s.Inv) : (s.endCompact c l).Inv := by
  unfold State.endCompact
  dsimp only
  split
  · exact .finishCompact hs
  · exact .ite (.finishCompact hs) (.ite (.updColl (.finishCompact hs)) (.foldl' (fun _ _ h1 => .fail' h1) (.updColl (.finishCompact hs))))

theorem State.Inv.backgroundCompact {c : Nat} (hs : s.Inv) : (s.backgroundCompact c).Inv := by
  unfold State.backgroundCompact
  split
  · exact hs
  · exact .foldl' (fun _ _ h1 => .startCompact h1) hs

theorem State.Inv.snapshotsGone {old : State} (hs : s.Inv) : (old.snapshotsGone s).Inv := by
  unfold State.snapshotsGone
  exact .foldl' (fun _ _ h => .backgroundCompact h) hs


/-! ### Search -/

theorem State.Inv.updQuery {k : QueryKey} {f : Query → Query} (hs : s.Inv) : (s.updQuery k f).Inv := .updSearch hs

theorem State.Inv.updQueries {ks : List QueryKey} {f : Query → Query} (hs : s.Inv) : (s.updQueries ks f).Inv := .updSearch hs

theorem State.Inv.sendPartials {q : Query} {p : Nat → Bool} (hs : s.Inv) : (s.sendPartials q p).Inv := .unless (.updQuery hs) .countExcluded

theorem State.Inv.engineDone {n : Nat} (hs : s.Inv) : (s.engineDone n).Inv := by
  unfold State.engineDone
  exact .foldl' (fun _ _ h1 => .sendPartials h1) hs

theorem State.Inv.scoreFor {c list base slot : Nat} {tombs : List Tomb} {segs : List Segment} {ks : List QueryKey} (hs : s.Inv) :
  (s.scoreFor c list base slot tombs segs ks).Inv := by
  unfold State.scoreFor
  split
  · exact hs
  · exact .foldl' (fun _ _ h1 => .unless (.unless (.updQuery (.draw h1)) .countExcluded) (fun h2 => .unless (.bump64' h2) .bump64')) hs

theorem State.Inv.failPipe {h status : Nat} (hs : s.Inv) : (s.failPipe h status).Inv :=
  .snapshotsGone (.fail' (.dropPipe (.updSearch (.when hs .recovered))))

theorem State.Inv.finishSearch {h : Nat} (hs : s.Inv) : (s.finishSearch h).Inv := by
  unfold State.finishSearch
  dsimp only
  split
  · exact hs
  · refine .ite ?_ (.ite hs ?_)
    · split
      · exact .failPipe hs
      · exact .updTier hs
    · split
      · exact .reject (.when (.updSearch hs) .recovered)
      · exact .snapshotsGone (.complete' (.foldl' (fun _ _ h => .wr' h) (.when (.updSearch hs) .recovered)))

theorem State.Inv.finishQuery {k : QueryKey} {status : Nat} (hs : s.Inv) : (s.finishQuery k status).Inv := by
  unfold State.finishQuery
  split
  · exact hs
  · extract_lets s1 slots s2 s3
    have h2 : s2.Inv := .when (.updQuery (.sendPartials hs)) .bump'
    clear_value s2
    split
    · exact .finishSearch h2
    · extract_lets s4
      have h3 : s3.Inv := .snapshotsGone (.updSearch h2)
      have h4 : s4.Inv := .when h3 .recoveredIssue
      clear_value s4
      split
      · exact .ite (.finishIssue' h4) (.finishIssue' (.wrTva h4))
      · exact h3

theorem State.Inv.dropQueries {p : Query → Bool} (hs : s.Inv) : (s.dropQueries p).Inv := .settleCopies (.updSearch hs)

theorem State.Inv.endQueries {ks : List QueryKey} {status : Nat} (hs : s.Inv) : (s.endQueries ks status).Inv := by
  unfold State.endQueries
  exact .foldl' (fun _ _ h1 => .finishQuery h1) (.updSearch hs)

theorem execCoarseSearch_keeps {q : QueryKey} (hs : s.Inv) : Res.Keeps (execCoarseSearch q s) := by
  refine ⟨_, rfl, ?_⟩
  dsimp only
  split
  · exact hs
  · refine .ite hs ?_
    split
    · exact hs
    · split
      · exact .finishQuery hs
      · exact .finishQuery hs
      · exact hs
      · exact hs
      · exact hs
      · refine .ite hs ?_
        split
        · exact .finishQuery (.draw hs)
        · exact .updQuery (.draw hs)

theorem State.Inv.closeBatch (hs : s.Inv) : s.closeBatch.Inv := by
  unfold State.closeBatch
  split
  · exact hs
  · exact .bump64' (.updSearch hs)

theorem State.Inv.joinBatch {k : QueryKey} (hs : s.Inv) : (s.joinBatch k).Inv := .when (.set (.updQuery hs)) .closeBatch

theorem State.Inv.seatScan {k : QueryKey} {lists : List Nat} (hs : s.Inv) : (s.seatScan k lists).Inv := by
  unfold State.seatScan
  split
  · exact hs
  · split
    · exact hs
    · exact .foldl' (fun _ _ h1 => .scoreFor (.updSearch h1)) (.updSearch (.updQuery hs))

theorem execProbeSetArrive_keeps {q : QueryKey} (hs : s.Inv) : Res.Keeps (execProbeSetArrive q s) := by
  refine ⟨_, rfl, ?_⟩
  split
  · exact hs
  · refine .ite hs (.ite ?_ (.ite (.bump' (.updSearch hs)) (.joinBatch hs)))
    split
    · exact hs
    · split
      · exact .finishQuery hs
      · exact .ite (.seatScan hs) hs

theorem execBatchClose_keeps {cause : CloseCause} (hs : s.Inv) : Res.Keeps (execBatchClose cause s) := by
  refine ⟨_, rfl, ?_⟩
  split
  · exact hs
  · split
    · exact .closeBatch hs
    · exact .ite (.closeBatch hs) hs
    · exact .ite (.closeBatch hs) hs

theorem State.Inv.startBatch {ks : List QueryKey} {exact : Bool} (hs : s.Inv) : (s.startBatch ks exact).Inv :=
  .updSearch (.bumpBy' (.foldl' (fun _ _ h1 => .updColl h1) hs))

theorem execBatchStartScoring_keeps (hs : s.Inv) : Res.Keeps (execBatchStartScoring s) := by
  refine ⟨_, rfl, ?_⟩
  split
  · exact hs
  · exact .ite hs (.foldl' (fun _ _ h1 => .ite (.updSearch h1) (.joinBatch h1)) (.updSearch (.startBatch (.updSearch hs))))

theorem State.Inv.countPass {n : Nat} {p : Pass} {again : Bool} (hs : s.Inv) : (s.countPass n p again).Inv := by
  unfold State.countPass
  split
  · exact hs
  · exact .bump64' (.bumpBy' (.bumpBy' (.bump64' (.updSearch hs))))

theorem State.Inv.probeMismatch {n : Nat} (hs : s.Inv) : (s.probeMismatch n).Inv := .draw (.audEvent (.bump' hs))

theorem State.Inv.strikeEngine {n : Nat} {due : Bool} (hs : s.Inv) : (s.strikeEngine n due).Inv := by
  unfold State.strikeEngine
  dsimp only
  split
  · exact hs
  · refine .ite (.updSearch hs) ?_
    split
    · exact .updSearch (.askDomain (.fenceHolder hs))
    · exact .updSearch (.fenceHolder hs)

theorem State.Inv.hotParity {p : Pass} {n : Nat} (hs : s.Inv) : (s.hotParity p n).Inv := .ite hs (.updQueries (.bumpBy' hs))

theorem State.Inv.runPass {engine : Nat} {p : Pass} {shadow : Shadow} (hs : s.Inv) : (s.runPass engine p shadow).Inv := by
  unfold State.runPass
  dsimp only
  split
  · exact .scoreFor (.countPass hs)
  · exact .scoreFor (.updQueries (.countPass (.probeMismatch (.countPass hs))))
  · exact .scoreFor (.updQueries (.countPass (.strikeEngine (.probeMismatch (.countPass (.probeMismatch (.countPass hs)))))))
  · exact .endQueries (.probeMismatch (.updQueries (.countPass (.strikeEngine (.probeMismatch (.countPass (.probeMismatch (.countPass
      hs))))))))

theorem execProbePass_keeps {engine : Nat} {shadow : Shadow} {hotParity : Nat} (hs : s.Inv) : Res.Keeps (execProbePass engine shadow
  hotParity s) := by
  refine ⟨_, rfl, ?_⟩
  split
  · exact hs
  · split
    · exact hs
    · split
      · exact hs
      · exact .ite (.foldl' (fun _ _ h1 => .endQueries h1) hs) (.ite hs (.settleCopies (.engineDone (.runPass (.hotParity (.updSearch
          hs))))))

theorem State.Inv.scanMismatch {ch p : Nat} (hs : s.Inv) : (s.scanMismatch ch p).Inv := .draw (.audEvent (.bump' hs))

theorem State.Inv.scanPass {j : FarJob} {ks : List QueryKey} {shadow : Shadow} (hs : s.Inv) : (s.scanPass j ks shadow).Inv := by
  unfold State.scanPass
  extract_lets p s1 mark go failed staged
  have h1 : s1.Inv := .updSearch hs
  have hmark {u : State} (hu : u.Inv) : (mark u).Inv := .updQueries hu
  have hgo {u : State} (hu : u.Inv) : (go u).Inv := .foldl' (fun _ _ h => .sendPartials h) (.scoreFor hu)
  have hstaged {sh : Shadow} : (staged sh).Inv := by
    have hfailed : failed.Inv := hmark (.scanMismatch (.scanMismatch h1))
    dsimp only [staged]
    split
    · exact .runPass hfailed
    · exact .endQueries hfailed
  cases shadow with
  | agree => exact hgo h1
  | repeated => exact hgo (hmark (.scanMismatch h1))
  | moved => exact hstaged
  | failed => exact hstaged

theorem execFarSegmentScore_keeps {coll list seg : Nat} {read : ReadResult} {shadows : List Shadow} (hs : s.Inv) : Res.Keeps
  (execFarSegmentScore coll list seg read shadows s) := by
  refine ⟨_, rfl, ?_⟩
  split
  · exact hs
  · exact .ite hs (.settleCopies (.ite (.endQueries (.unless (.updSearch hs) .bump64')) (.ite (.endQueries (.bumpBy' (.unless (.updSearch
      hs) .bump64'))) (.foldl' (fun _ _ h1 => .scanPass h1) (.when (.unless (.updSearch hs) .bump64') .updQueries)))))

theorem execFarLimitExpire_keeps {q : QueryKey} (hs : s.Inv) : Res.Keeps (execFarLimitExpire q s) := by
  refine ⟨_, rfl, ?_⟩
  split
  · exact hs
  · exact .ite hs (.updQuery (.unless (.unless (.updSearch hs) .bumpBy') .bump'))

theorem execSearchMerge_keeps {q : QueryKey} {shadows : List Shadow} (hs : s.Inv) : Res.Keeps (execSearchMerge q shadows s) := by
  refine ⟨_, rfl, ?_⟩
  split
  · exact hs
  · split
    · exact hs
    · refine .ite hs ?_
      extract_lets groups again keep parts failed ran s1 s2 s3 s4 more
      have h4 : s4.Inv := .ite (.unless (.bumpBy' (.countExcluded (.bump64' (.sendPartials hs)))) .updQuery) hs
      clear_value s4
      split
      extract_lets s5 s6 s7 s8
      have h6 : s6.Inv := .when h4 (fun h => .when (.when h .bump') .bump')
      have h7 : s7.Inv := .updQuery h6
      exact .ite (.finishQuery (.bump' h4)) (.ite (.updQuery (.when h7 .bump')) (.ite (.updQuery h7) (.finishQuery h7)))

theorem execRefine_keeps {q : QueryKey} (hs : s.Inv) : Res.Keeps (execRefine q s) := by
  refine ⟨_, rfl, ?_⟩
  split
  · exact hs
  · split
    · exact hs
    · exact .ite hs (.ite (.finishQuery hs) (.ite (.finishQuery (.countLost hs)) (.finishQuery (.updQuery (.draw hs)))))

theorem execExactBatchStart_keeps (hs : s.Inv) : Res.Keeps (execExactBatchStart s) := by
  refine ⟨_, rfl, .ite hs ?_⟩
  extract_lets ready ks s1 isFull full codes s2
  have h2 : s2.Inv := by
    refine .foldl' (fun u k h => ?_) (.updSearch hs)
    split
    · exact h
    · split
      · exact h
      · exact .ite (.finishQuery h) (.ite (.finishQuery (.countLost h)) (.finishQuery (.updQuery (.draw (.unless h .bump64')))))
  clear_value s2
  refine .ite (.foldl' (fun u k h => ?_) h2) (.unless h2 (fun h => .startBatch (.updQueries h)))
  split
  · exact .seatScan h
  · exact h

theorem State.Inv.moveList {x : Collection} {y : LList} {place : Place} (hs : s.Inv) : (s.moveList x y place).Inv :=
  .ite hs (.ite hs (.ite (.storeSegs (.layLists (.updColl (.retireCopy (.chargeT1 hs))))) hs))

theorem State.Inv.markHot (hs : s.Inv) : s.markHot.Inv := .updFlash hs

theorem execRebalance_keeps (hs : s.Inv) : Res.Keeps (execRebalance s) :=
  ⟨_, rfl, .ite hs (.markHot (.setCached (.foldl' (fun _ _ h1 => .foldl' (fun _ _ h2 => .moveList h2) h1) (.updSearch hs))))⟩


/-! ### SearchCmd -/

theorem State.Inv.addQuery {q : Query} (hs : s.Inv) : (s.addQuery q).Inv := .bump64' (.updSearch hs)

theorem State.Inv.srchQuery {h : Nat} {c : Cmd} (hs : s.Inv) : (s.srchQuery h c).Inv := by
  unfold State.srchQuery
  dsimp only
  split
  · exact .fail' hs
  · refine .ite (.fail' hs) ?_
    split
    · split
      · exact .fail' hs
      · split
        · exact .fail' hs
        · refine .ite (.fail' hs) (.ite (.fail' hs) (.ite (.fail' hs) (.when (.foldl' (fun _ _ h1 => .ite (.addQuery h1) ?_) (.drawN
            (.updCmd hs))) (fun h2 => .foldl' (fun _ _ h3 => .finishQuery h3) h2))))
          split
          · exact .addQuery (.bump' h1)
          · exact .updSearch (.addQuery (.bump' h1))
    · exact .fail' hs

theorem execSrchQuery_keeps {cmd : Nat} (hs : s.Inv) : Res.Keeps (execSrchQuery cmd s) := by
  refine ⟨_, rfl, ?_⟩
  split
  · exact .ite hs (.srchQuery hs)
  · exact hs

theorem execSearchProbe_keeps {k : IssueKey} (hs : s.Inv) : Res.Keeps (execSearchProbe k s) := by
  refine ⟨_, rfl, ?_⟩
  split
  · exact hs
  · refine .ite (.finishIssue' hs) ?_
    split
    · exact .finishIssue' hs
    · refine .ite (.finishIssue' hs) (.onCheck hs (fun _ h1 => .onCheck h1 (fun _ h2 => .ite (.finishIssue' h2) (.onCheck h2 (fun _ h3 =>
        ?_)))))
      split
      · exact .finishIssue' (.draw h3)
      · exact .addQuery (.beginIssue (.draw h3))

theorem State.Inv.refusedBack {z : State} (hs : s.Inv) : (s.refusedBack z).Inv := .bump' hs

theorem State.Inv.srchInsert {h : Nat} {c : Cmd} (hs : s.Inv) : (s.srchInsert h c).Inv := by
  unfold State.srchInsert
  extract_lets t n dk bytes deck draw
  clear_value deck
  split
  · exact .fail' hs
  · refine .ite (.fail' hs) ?_
    split
    · exact .fail' hs
    · extract_lets b e s1 x oldest s2 q
      have h1 : s1.Inv := .updCmd (.takeEpoch hs)
      have h2 : s2.Inv := .drawN h1
      clear_value s2
      split
      · exact .fail' hs
      · extract_lets check recs
        clear_value check
        refine .ite (.fail' hs) (.ite (.endEpoch h1) ?_)
        split
        · exact .endEpoch h1
        · refine .ite hs ?_
          split
          extract_lets segs blocks extra old new s3 z stream stored
          have h3 : s3.Inv := by
            refine .when h2 (fun h => .foldl' (fun u x hu => ?_) h)
            split
            · exact .countTokenized hu
            · exact hu
          refine .ite (.endEpoch (.draw h2)) (.ite (.endEpoch (.bump' (.draw h2))) ?_)
          clear_value s3
          split
          next z1 put e1 =>
            have hz1 : z1.Inv := .of_eq e1 (.mediaPuts (.draw (.layLists (.chargeT1 (.updColl h3)))))
            split
            next z2 ok e2 =>
              have hz2 : z2.Inv := .of_eq e2 (.foldl_fst (fun _ _ h => .ite_fst (.storeSegs h) h) hz1)
              exact .ite (.endEpoch (.refusedBack h3)) (.trimCached (.when (.updEpoch (.bumpBy' (.bumpBy' hz2))) .updEpoch))

theorem execSrchInsert_keeps {cmd : Nat} (hs : s.Inv) : Res.Keeps (execSrchInsert cmd s) := by
  refine ⟨_, rfl, ?_⟩
  split
  · exact .ite hs (.srchInsert hs)
  · exact hs

theorem State.Inv.releaseAppends {c l k : Nat} (hs : s.Inv) : (State.releaseAppends c l k s).Inv := by
  induction k generalizing s with
  | zero => exact hs
  | succ k ih =>
    unfold State.releaseAppends
    split
    · exact hs
    · split
      · exact hs
      · split
        · exact hs
        · refine ih (.ite (.rollback hs) (.ite (.rollback (.bump' hs)) ?_))
          extract_lets
          split
          next z _ e =>
            have hz : z.Inv := .of_eq e (.storeSegs (.layLists (.chargeT1 (.updColl hs))))
            exact .ite hz (.rollback (.refusedBack hs))

theorem execMarkWaitRelease_keeps {coll list : Nat} (hs : s.Inv) : Res.Keeps (execMarkWaitRelease coll list s) := by
  refine ⟨_, rfl, ?_⟩
  split
  · exact hs
  · exact .ite hs (.trimCached (.settleEpochs (.releaseAppends hs)))

theorem execEpochPublish_keeps {coll : Nat} (hs : s.Inv) : Res.Keeps (execEpochPublish coll s) := by
  refine ⟨_, rfl, ?_⟩
  split
  · exact hs
  · split
    · exact hs
    · exact .backgroundCompact (.complete' (.updFlash (.updColl hs)))

theorem execCompactionDone_keeps {coll list : Nat} (hs : s.Inv) : Res.Keeps (execCompactionDone coll list s) := by
  refine ⟨_, rfl, ?_⟩
  split
  · exact hs
  · exact .ite hs (.endCompact hs)

theorem execSrchCompact_keeps {cmd : Nat} (hs : s.Inv) : Res.Keeps (execSrchCompact cmd s) := by
  refine ⟨_, rfl, ?_⟩
  dsimp only
  split
  · exact hs
  · split
    · exact .fail' hs
    · refine .unless (.updColl (.updCmd hs)) (fun h1 => ?_)
      split
      · exact .foldl' (fun _ _ h2 => .startCompact h2) h1
      · exact .ite (.fail' (.updColl (.foldl' (fun _ _ h2 => .startCompact h2) h1))) (.updColl (.foldl' (fun _ _ h2 => .startCompact h2)
          h1))

theorem State.Inv.tombRoom {c l : Nat} (hs : s.Inv) : (s.tombRoom c l).Inv := by
  unfold State.tombRoom
  dsimp only
  split
  · exact hs
  · refine .ite (.updColl (.chargeT1 hs)) (.ite hs ?_)
    split
    · refine (.ite ?_ hs)
      split
      · exact .when (.startCompact hs) .endCompact
      · exact .startCompact hs
    · refine .unless (.ite ?_ hs) (fun h1 => .updColl (.chargeT1 (.releaseT1 h1)))
      split
      · exact .when (.startCompact hs) .endCompact
      · exact .startCompact hs

theorem State.Inv.deleteIn {c l e : Nat} {id : Addr} {k : Nat} (hs : s.Inv) : (State.deleteIn c l e id k s).Inv := by
  induction k generalizing s with
  | zero => exact hs
  | succ k ih =>
    unfold State.deleteIn
    dsimp only
    split
    · exact .tombRoom hs
    · split
      · exact .tombRoom hs
      · exact ih (.updColl (.tombRoom hs))

theorem State.Inv.deleteId {c e : Nat} {id : Addr} (hs : s.Inv) : (s.deleteId c e id).Inv := by
  unfold State.deleteId
  split
  · exact hs
  · exact .ite (.bump' hs) (.foldl' (fun _ _ h1 => .deleteIn h1) hs)

theorem State.Inv.srchDelete {h : Nat} {c : Cmd} (hs : s.Inv) : (s.srchDelete h c).Inv := by
  unfold State.srchDelete
  dsimp only
  split
  · exact .fail' hs
  · split
    · exact .ite (.fail' hs) (.endEpoch (.bump' hs))
    · exact .ite (.endEpoch (.ite (.updCmd (.takeEpoch hs)) hs)) (.unless (.ite (.updCmd (.takeEpoch hs)) hs) (fun h1 => .backgroundCompact
        (.endEpoch (.updCmd (.layLists (.foldl' (fun _ _ h2 => .deleteId h2) h1))))))

theorem execSrchDelete_keeps {cmd : Nat} (hs : s.Inv) : Res.Keeps (execSrchDelete cmd s) := by
  refine ⟨_, rfl, ?_⟩
  split
  · exact .ite hs (.srchDelete hs)
  · exact hs


/-! ### Blocks -/

theorem State.Inv.wakeWaits {t : Nat → Bool} {p : Wait → Bool} (hs : s.Inv) : (s.wakeWaits t p).Inv := hs

theorem State.Inv.wakePage {t b : Nat} (hs : s.Inv) : (s.wakePage t b).Inv := .wakeWaits hs

theorem State.Inv.queueFetch {t b : Nat} (hs : s.Inv) : (s.queueFetch t b).Inv := .ite hs (.bump64' (.updTier hs))

theorem State.Inv.queueObject {t va len : Nat} (hs : s.Inv) : (s.queueObject t va len).Inv := by
  unfold State.queueObject
  exact .foldl' (fun _ _ h1 => .queueFetch h1) hs

theorem State.Inv.failFetch {t b st : Nat} (hs : s.Inv) : (s.failFetch t b st).Inv := by
  unfold State.failFetch
  exact .foldl' (fun _ _ h1 => .stopInvocation h1) (.updTier hs)

theorem State.Inv.writeHome {x : TBlock} (hs : s.Inv) : (s.writeHome x).1.Inv := by
  unfold State.writeHome
  dsimp only
  split
  · exact hs
  · split
    · exact hs
    · refine .foldl_fst (fun _ _ h1 => ?_) hs
      split
      · exact h1
      · split
        · split
          · exact .hostPut (.hostFree (.draw h1))
          · exact h1
        · exact .mediaReplace (.draw h1)

theorem State.Inv.dropBlock {x : TBlock} (hs : s.Inv) : (s.dropBlock x).Inv := .releaseT1 (.updBlock (.setPresent hs))

theorem State.Inv.evictBlock {x : TBlock} (hs : s.Inv) : (s.evictBlock x).Inv :=
  .ite (.dropBlock hs) (.ite (.dropBlock (.bump64' (.writeHome hs))) (.writeHome hs))

theorem State.Inv.makeRoom {t n : Nat} {keep : List Nat} {k : Nat} (hs : s.Inv) : (State.makeRoom t n keep k s).1.Inv := by
  induction k generalizing s with
  | zero => exact hs
  | succ k ih =>
    unfold State.makeRoom
    refine .ite_fst hs ?_
    split
    · exact hs
    · exact ih (.evictBlock hs)

theorem State.Inv.noRoom {t : Nat} (hs : s.Inv) : (s.noRoom t).1.Inv := by
  unfold State.noRoom
  dsimp only
  split
  · exact .bump' (.bump' hs)
  · exact .bump' hs

theorem State.Inv.evictDown {t k : Nat} (hs : s.Inv) : (State.evictDown t k s).Inv := by
  induction k generalizing s with
  | zero => exact hs
  | succ k ih =>
    unfold State.evictDown
    refine .ite hs ?_
    split
    · exact hs
    · exact ih (.evictBlock hs)

theorem State.Inv.settleEvictions (hs : s.Inv) : s.settleEvictions.Inv := .ite hs (.foldl' (fun _ _ h1 => .evictDown h1) (.updTier hs))

theorem State.Inv.fillPage {t b : Nat} (hs : s.Inv) : (s.fillPage t b).Inv := .bump64' (.wakePage (.setPresent (.wrPage hs)))

theorem State.Inv.bringIn {x : TBlock} {bad : Bool} (hs : s.Inv) : (s.bringIn x bad).1.Inv := by
  unfold State.bringIn
  dsimp only
  split
  · exact .poisonPage (.bump' (.updBlock (.fillPage (.chargeT1 hs))))
  · exact .updBlock (.fillPage (.chargeT1 hs))

theorem State.Inv.countPageLost {t b : Nat} (hs : s.Inv) : (s.countPageLost t b).Inv := .countLost hs


/-! ### Grammar -/

theorem State.Inv.readImageLine {a : Automaton} {line : Nat} (hs : s.Inv) : (s.readImageLine a line).Inv := .set (.ite (.bump' hs) hs)

theorem State.Inv.readImage {a : Automaton} {lines : List Nat} (hs : s.Inv) : (s.readImage a lines).Inv := by
  unfold State.readImage
  exact .foldl' (fun _ _ h1 => .readImageLine h1) hs

theorem State.Inv.walkAfresh {a : Automaton} {d : Deck} {g : GState} (hs : s.Inv) : (s.walkAfresh a d g).1.Inv := by
  unfold State.walkAfresh
  dsimp only
  split
  · exact .set (.readDeck (.readImage (.bump64' hs)))
  · exact .bump' (.readDeck (.readImage (.bump64' hs)))

theorem State.Inv.mask {a : Automaton} {d : Deck} {g : GState} (hs : s.Inv) : (s.mask a d g).1.Inv := by
  unfold State.mask
  refine .when (.bump64' ?_) .bump'
  split
  · exact .bump64' hs
  · exact .walkAfresh (.ite (.bump' hs) hs)

theorem State.Inv.grammarIssue {k : IssueKey} {u : UnitIssue} {fieldsOk : Deck → Bool} {ranges : List UCheck} {f : State → Automaton → Deck
  → List Byte → State} (hs : s.Inv) (hf : ∀ (s : State) x y z, s.Inv → (f s x y z).Inv) : (s.grammarIssue k u fieldsOk ranges f).Inv := by
  unfold State.grammarIssue
  dsimp only
  split
  · exact .finishIssue' hs
  · split
    · exact .finishIssue' hs
    · exact .ite (.finishIssue' hs) (.onCheck hs (fun _ h1 => .ite (.finishIssue' h1) (hf _ _ _ _ h1)))

theorem execGrammarMask_keeps {k : IssueKey} (hs : s.Inv) : Res.Keeps (execGrammarMask k s) := by
  refine ⟨_, rfl, ?_⟩
  split
  · exact hs
  · exact .grammarIssue hs (fun _ _ _ _ h1 => .ite (.finishIssue' h1) (.onCheck h1 (fun _ h2 => .onCheck h2 (fun _ h3 => .finishIssue'
      (.ite (.bump' (.wrTva (.ite (.recoveredIssue (.mask h3)) (.mask h3)))) (.wrTva (.wrTva (.ite (.recoveredIssue (.mask h3)) (.mask
      h3)))))))))

theorem execGrammarAdvance_keeps {k : IssueKey} (hs : s.Inv) : Res.Keeps (execGrammarAdvance k s) := by
  refine ⟨_, rfl, ?_⟩
  dsimp only
  split
  · exact hs
  · refine .grammarIssue hs (fun _ _ _ _ h1 => .onCheck h1 (fun _ h2 => ?_))
    split
    · exact .finishIssue' (.bump' (.readDeck (.readImage (.ite (.recoveredIssue h2) h2))))
    · exact .finishIssue' (.wrTva (.bump64' (.readDeck (.readImage (.ite (.recoveredIssue h2) h2)))))

theorem execGrammarFork_keeps {k : IssueKey} (hs : s.Inv) : Res.Keeps (execGrammarFork k s) := by
  refine ⟨_, rfl, ?_⟩
  split
  · exact hs
  · exact .grammarIssue hs (fun _ _ _ _ h1 => .onCheck h1 (fun _ h2 => .finishIssue' (.wrTva (.wrTva h2))))


/-! ### Kv -/

theorem State.Inv.updFrame {f : Nat} {g : KvFrame → KvFrame} (hs : s.Inv) : (s.updFrame f g).Inv := .updServing hs

theorem State.Inv.putKv {image : List Byte} {f slot : Nat} {e : List Byte} (hs : s.Inv) : (s.putKv image f slot e).Inv := by
  unfold State.putKv
  split
  · exact hs
  · exact .foldl' (fun _ _ h1 => .wr' h1) (.updFrame hs)

theorem State.Inv.newFrame {t m die : Nat} {tokens : List Nat} {entries : List (Nat × List Byte)} (hs : s.Inv) : (s.newFrame t m die tokens
  entries).Inv := by
  unfold State.newFrame
  exact .foldl' (fun _ _ h1 => .putKv h1) (.updServing (.foldl' (fun _ _ h2 => .addPage h2) hs))

theorem State.Inv.dropFrame {f : Nat} (hs : s.Inv) : (s.dropFrame f).Inv := by
  unfold State.dropFrame
  refine .updServing ?_
  split
  · exact .ite (.freePages hs) hs
  · exact hs

theorem State.Inv.computeKv {image : List Byte} {run ps : List Nat} (hs : s.Inv) : (s.computeKv image run ps).Inv := by
  induction ps generalizing s with
  | nil => exact hs
  | cons p ps ih =>
    refine ih ?_
    split
    · exact .putKv (.draw hs)
    · exact hs

theorem State.Inv.copyKv {image : List Byte} {run : List Nat} {src dst : Nat} (hs : s.Inv) : (s.copyKv image run src dst).Inv := by
  unfold State.copyKv
  split
  · exact .putKv hs
  · exact hs

theorem State.Inv.recomputeKv {image : List Byte} {f : Nat} (hs : s.Inv) : (s.recomputeKv image f).Inv := by
  unfold State.recomputeKv
  split
  · exact hs
  · exact .computeKv hs


/-! ### Serving -/

theorem State.Inv.updReq {id : Nat} {f : Request → Request} (hs : s.Inv) : (s.updReq id f).Inv := .updServing hs

theorem State.Inv.updAccount {t a : Nat} {f : Account → Account} (hs : s.Inv) : (s.updAccount t a f).Inv :=
  .when (.updTenant' hs) .updServing

theorem State.Inv.chargeAccount {t a units : Nat} (hs : s.Inv) : (s.chargeAccount t a units).Inv := .updAccount hs

theorem State.Inv.ownTail {r : Request} (hs : s.Inv) : (s.ownTail r).Inv := by
  unfold State.ownTail
  dsimp only
  split
  · exact hs
  · split
    · exact hs
    · exact .ite (.bump' (.updReq (.newFrame (.dropFrame hs)))) hs

theorem State.Inv.closeTail {r : Request} (hs : s.Inv) : (s.closeTail r).Inv := by
  unfold State.closeTail
  refine .ite hs ?_
  split
  · exact .updFrame hs
  · exact hs

theorem State.Inv.unbatch {id : Nat} (hs : s.Inv) : (s.unbatch id).Inv := .updServing hs

theorem State.Inv.stampRows {h : Nat} (hs : s.Inv) : (s.stampRows h).Inv := by
  unfold State.stampRows
  exact .foldl' (fun _ _ h1 => .ite (.ite h1 (.noteReady (.updServing (.updReq h1)))) (.updReq h1)) hs

theorem State.Inv.placeRow {r : Request} (hs : s.Inv) : (s.placeRow r).Inv := by
  unfold State.placeRow
  dsimp only
  split
  · exact hs
  · split
    · exact hs
    · exact .ite hs (.updHand (.ite (.updServing hs) (.ite (.updServing hs) (.updServing hs))))

theorem State.Inv.placeRows {k : Nat} {l : List Request} {last : Option Nat} (hs : s.Inv) : (s.placeRows k l last).Inv := by
  induction k generalizing s l last with
  | zero => exact hs
  | succ k ih =>
    unfold State.placeRows
    split
    · exact hs
    · exact ih (.placeRow hs)

theorem State.Inv.launch {h : Nat} {due : GBatch → Bool} (hs : s.Inv) : (s.launch h due).Inv := by
  unfold State.launch
  exact .foldl' (fun _ _ h1 => .useHand h1) (.updServing hs)

theorem State.Inv.formBatches {h : Nat} (hs : s.Inv) : (s.formBatches h).Inv := .launch (.placeRows (.updServing (.stampRows hs)))

theorem State.Inv.dissolve {h : Nat} (hs : s.Inv) : (s.dissolve h).Inv := .updServing hs

theorem State.Inv.countWaits {h : Nat} (hs : s.Inv) : (s.countWaits h).Inv := .updServing hs

theorem State.Inv.boundaryBatches {h : Nat} (hs : s.Inv) : (s.boundaryBatches h).Inv :=
  .countWaits (.launch (.formBatches (.bumpBy' (.updServing hs))))

theorem State.Inv.flushHeld {d : Option Deck} {held : List Byte} (hs : s.Inv) : (s.flushHeld d held).1.Inv := by
  unfold State.flushHeld
  split
  · exact hs
  · exact .countDetok hs

theorem State.Inv.finishRequest {id status : Nat} (hs : s.Inv) : (s.finishRequest id status).Inv := by
  unfold State.finishRequest
  split
  · exact hs
  · exact .formBatches (.complete' (.when (.updServing (.unbatch (.dropPipe (.releaseT1 (.unless (.foldl' (fun _ _ h1 => .dropFrame h1)
      (.flushHeld hs)) (fun h2 => .foldl' (fun _ _ h3 => .spoilOut h3) h2)))))) .recovered))

theorem State.Inv.dropRequest {id : Nat} (hs : s.Inv) : (s.dropRequest id).Inv := .finishRequest (.updReq hs)

theorem State.Inv.abortRing {id : Nat} (hs : s.Inv) : (s.abortRing id).Inv := .finishRequest (.updReq (.bump' hs))

theorem State.Inv.readHead {id : Nat} {t : State} (hs : s.Inv) (e : s.readHead id = some t) : t.Inv := by
  unfold State.readHead at e
  dsimp only at e
  split at e
  · obtain rfl := Option.some.inj e
    exact hs
  · split at e
    · cases e
    · split at e
      · obtain rfl := Option.some.inj e
        exact .updReq hs
      · obtain rfl := Option.some.inj e
        exact .bump' hs

theorem State.Inv.writeRecords {id k : Nat} {t : State} (hs : s.Inv) (e : s.writeRecords id k = some t) : t.Inv := by
  induction k generalizing s with
  | zero =>
    obtain rfl := Option.some.inj e
    exact hs
  | succ k ih =>
    unfold State.writeRecords at e
    split at e
    · obtain rfl := Option.some.inj e
      exact hs
    · split at e
      · obtain rfl := Option.some.inj e
        exact hs
      · split at e
        · obtain rfl := Option.some.inj e
          exact hs
        · split at e
          · cases e
          · exact ih (.updReq (.wr' hs)) e

theorem State.Inv.writeRing {id : Nat} (hs : s.Inv) : (s.writeRing id).Inv := by
  unfold State.writeRing
  split
  · next s1 _ e1 =>
    have h1 : s1.Inv := hs.readHead e1
    split
    · exact .abortRing h1
    · next s2 e2 =>
      have h2 : s2.Inv := h1.writeRecords e2
      split
      · have h3 {c : Prop} [Decidable c] {k n v : Nat} : State.Inv (if c then s2 else s2.wrNat k n v) := .unless h2 .wrNat
        exact .ite (.unless h3 (fun h => .bump' (.updReq h))) (.when (.updReq h3) .finishRequest)
      · exact .abortRing h2
  · exact .abortRing hs
  · exact hs

theorem State.Inv.endRequest {id reason status : Nat} (hs : s.Inv) : (s.endRequest id reason status).Inv := by
  unfold State.endRequest
  split
  · refine .ite hs ?_
    split
    next z _ e =>
      have hz : z.Inv := .of_eq e (.flushHeld hs)
      exact .writeRing (.unbatch (.updReq hz))
  · exact hs

theorem State.Inv.leaveStep {id : Nat} (hs : s.Inv) : (s.leaveStep id).Inv := .updReq (.unbatch hs)

theorem State.Inv.stopRequestAs {reason status id : Nat} (hs : s.Inv) : (s.stopRequestAs reason status id).Inv :=
  .endRequest (.leaveStep hs)

theorem State.Inv.onServe {id : Nat} {c : UCheck} {f : State → State} (hs : s.Inv) (hf : ∀ (s : State), s.Inv → (f s).Inv) : (s.onServe id
  c f).Inv := by
  unfold State.onServe
  split
  · exact hf _ hs
  · exact hs
  · exact .stopRequestAs hs
  · exact .stopRequestAs hs

theorem State.Inv.genAdmit {h t : Nat} {block : List Byte} {prompt : List Nat} {prior : Nat} {fault : Bool} (hs : s.Inv) :
    (s.genAdmit h t block prompt prior fault).Inv := by
  unfold State.genAdmit
  extract_lets p n shared first fresh taken page
  split
  · exact .fail' hs
  · split
    · exact .fail' hs
    · refine .ite (.fail' hs) (.ite (.fail' hs) (.ite (.fail' hs) (.ite (.fail' hs) ?_)))
      split
      · exact .fail' (.bump' hs)
      · extract_lets die s1 s2 s3 id r s4 s5 aut s6 s7
        have h3 : s3.Inv := .foldl' (fun _ _ h => .newFrame h) (.updServing (.wrNat (.chargeT1 hs)))
        have h5 : s5.Inv := .updCmd (.bump64' (.bump64' (.updServing h3)))
        clear_value aut
        have h7 : s7.Inv := by
          dsimp only [s7]
          split
          · exact .queueObject (.queueObject h5)
          · exact .queueObject h5
        exact .ite (.endRequest h5) (.formBatches (.unless h7 .noteReady))

theorem execGenStart_keeps {cmd : Nat} (hs : s.Inv) : Res.Keeps (execGenStart cmd s) := by
  refine ⟨_, rfl, ?_⟩
  dsimp only
  split
  · exact hs
  · split
    · exact .fail' hs
    · refine .ite (.fail' hs) ?_
      split
      · exact .fail' hs
      · exact .ite (.genAdmit hs) (.genAdmit hs)

theorem execPrefillChunk_keeps {req : Nat} (hs : s.Inv) : Res.Keeps (execPrefillChunk req s) := by
  refine ⟨_, rfl, ?_⟩
  split
  · split
    · exact hs
    · exact .ite hs (.onServe hs (fun _ h1 => .formBatches (.bump64' (.updHand (.updReq (.computeKv (.chargeAccount (.useHand h1))))))))
  · exact hs

theorem State.Inv.specAdvance {a : Automaton} {d : Deck} {shared : Nat} {g : GState} {t : Nat} (hs : s.Inv) : (s.specAdvance a d shared g
  t).1.Inv :=
  .when (.bumpBy' (.readDeck (.readImage hs))) .bump64'

theorem State.Inv.pruneTree {a : Automaton} {d : Deck} {done l : List TreeNode} (hs : s.Inv) : (s.pruneTree a d done l).1.Inv := by
  induction l generalizing s done with
  | nil => exact hs
  | cons n ns ih =>
    unfold State.pruneTree
    split
    · split
      next z _ e =>
        have hz : z.Inv := .of_eq e (.specAdvance hs)
        split
        · exact ih hz
        · exact ih (.bump' hz)
    · exact ih (.bump' hs)

theorem execDraftTree_keeps {req : Nat} {nodes : List DraftNode} (hs : s.Inv) : Res.Keeps (execDraftTree req nodes s) := by
  refine ⟨_, rfl, ?_⟩
  split
  · refine .ite hs ?_
    extract_lets ok s1 drafts aut
    have h1 : s1.Inv := .unless hs .bump'
    clear_value s1 aut
    split
    next s2 tree e =>
      have h2 : s2.Inv := by
        cases aut with
        | none => exact .of_eq e h1
        | some a => exact .of_eq e (.pruneTree h1)
      exact .onServe hs (fun _ _ => .updReq (.bump64' h2))
  · exact hs

theorem State.Inv.treeMasks {a : Automaton} {d : Deck} {l : List TreeNode} {memo : List (GState × List Nat)} {bad : Bool} (hs : s.Inv) :
    (s.treeMasks a d l memo bad).1.Inv := by
  induction l generalizing s memo bad with
  | nil => exact hs
  | cons n ns ih =>
    unfold State.treeMasks
    split
    · exact ih hs
    · refine .ite_fst (ih hs) ?_
      split
      next z _ _ e =>
        exact ih (.of_eq e (.mask hs))

theorem State.Inv.emitToken {id : Nat} {m : Model} {d : Deck} {ends : List Nat} {mended : Bool} {pos : Nat} {e : Nat × Word} (hs : s.Inv) :
  (s.emitToken id m d ends mended pos e).Inv := by
  unfold State.emitToken
  dsimp only
  split
  · exact hs
  · refine .ite (.bump' hs) ?_
    split
    · exact .updReq (.countDetok (.bump64' (.chargeAccount hs)))
    · split
      · exact .updReq (.bumpBy' (.flushHeld (.countDetok (.bump64' (.chargeAccount hs)))))
      · exact .updReq (.countDetok (.bump64' (.chargeAccount hs)))

theorem State.Inv.commitKv {r : Request} {m : Model} {tree : List TreeNode} {path : List Nat} (hs : s.Inv) : (s.commitKv r m tree path).Inv
  :=
  .closeTail (.foldl' (fun _ _ h1 => .dropFrame h1) (.updReq (.foldl' (fun _ _ h2 => .copyKv h2) (.bumpBy' (.computeKv (.foldl' (fun _ _ h3
    => .newFrame h3) (.ownTail hs)))))))

theorem State.Inv.acceptWalk {r : Request} {m : Model} {d : Deck} {aut : Option Automaton} {tree : List TreeNode} {w : Walked}
    {mended : Bool} (hs : s.Inv) : (s.acceptWalk r m d aut tree w mended).Inv := by
  unfold State.acceptWalk
  extract_lets id s1 live acc s2 last ends
  split
  extract_lets s3 s4 s5 s6 s7
  have h5 : s5.Inv := .updReq (.when (.when (.bump64' (.commitKv (.leaveStep hs))) .bump') .bump')
  have h6 : s6.Inv := by
    clear_value s5 last
    dsimp only [s6]
    split
    · refine .ite (.updReq h5) ?_
      split
      · exact .ite (.updReq (.specAdvance h5)) (.specAdvance h5)
      · exact h5
    · exact h5
  have h7 : s7.Inv := .foldl' (fun _ _ h => .emitToken h) h6
  clear_value s7
  split
  · exact h7
  · exact .ite (.endRequest h7) (.ite (.endRequest h7) (.formBatches (.writeRing h7)))

theorem State.Inv.secondBatch {id : Nat} {logits : List (List Word)} {repaired : Bool} (hs : s.Inv) : (s.secondBatch id logits
  repaired).Inv :=
  .updReq (.updServing hs)

theorem execAcceptStep_keeps {req : Nat} {logits : List (List Word)} {repaired : Bool} (hs : s.Inv) : Res.Keeps (execAcceptStep req logits
  repaired s) := by
  refine ⟨_, rfl, ?_⟩
  split
  · refine .ite hs (.ite (.stopRequestAs hs) (.onServe hs (fun _ h1 => .ite (.secondBatch h1) (.onServe h1 (fun _ h2 => .ite (.endRequest
      (.updReq (.bump' (.leaveStep ?_)))) (.acceptWalk ?_))))))
    · split
      · exact .treeMasks (.draw h1)
      · exact .draw h1
    · split
      · exact .treeMasks (.draw h1)
      · exact .draw h1
  · exact hs

theorem State.Inv.pollParked {h : Nat} (hs : s.Inv) : (s.pollParked h).Inv := by
  unfold State.pollParked
  exact .foldl' (fun _ _ h1 => .updReq (.writeRing h1)) hs

theorem execRingStall_keeps {req : Nat} (hs : s.Inv) : Res.Keeps (execRingStall req s) := by
  refine ⟨_, rfl, ?_⟩
  dsimp only
  split
  · exact hs
  · refine .ite hs ?_
    split
    · exact .writeRing hs
    · exact .ite (.formBatches (.writeRing hs)) (.finishRequest (.updReq (.bumpBy' (.bump' (.writeRing hs)))))

theorem execKvRebuild_keeps {req page : Nat} (hs : s.Inv) : Res.Keeps (execKvRebuild req page s) := by
  refine ⟨_, rfl, ?_⟩
  split
  · exact .ite hs (.updReq (.recomputeKv (.bump' hs)))
  · exact hs

theorem State.Inv.cancelRequest {id : Nat} (hs : s.Inv) : (s.cancelRequest id).Inv := .ite (.updReq hs) (.endRequest hs)

theorem execGenCancel_keeps {cmd : Nat} (hs : s.Inv) : Res.Keeps (execGenCancel cmd s) := by
  refine ⟨_, rfl, ?_⟩
  split
  · exact hs
  · split
    · exact .fail' hs
    · exact .cancelRequest (.fail' hs)

theorem execBudgetDeposit_keeps {cmd : Nat} (hs : s.Inv) : Res.Keeps (execBudgetDeposit cmd s) := by
  refine ⟨_, rfl, ?_⟩
  split
  · exact hs
  · exact .ite (.fail' hs) (.complete' (.updAccount (.ite (.bump' hs) hs)))


/-! ### Tiers -/

theorem State.Inv.fetchBlocks {l : List TBlock} {n : Nat} (hs : s.Inv) : (s.fetchBlocks l n).1.Inv := by
  induction l generalizing s n with
  | nil => exact hs
  | cons x xs ih =>
    unfold State.fetchBlocks
    refine .ite_fst (.countPageLost hs) ?_
    split
    next z _ e =>
      have hz : z.Inv := .of_eq e (.bringIn hs)
      exact .ite_fst (ih hz) hz

theorem execTierFetch_keeps {k : IssueKey} (hs : s.Inv) : Res.Keeps (execTierFetch k s) := by
  refine ⟨_, rfl, ?_⟩
  split
  · exact hs
  · refine .ite hs ?_
    split
    · exact .settleEvictions (.finishIssue' hs)
    · refine .ite hs ?_
      split
      next z _ e =>
        have hz : z.Inv := .of_eq e (.makeRoom hs)
        exact .ite (.settleEvictions (.finishIssue' (.noRoom hz))) (.settleEvictions (.finishIssue' (.fetchBlocks hz)))

theorem State.Inv.writeBlocks {l : List TBlock} {n : Nat} (hs : s.Inv) : (s.writeBlocks l n).1.Inv := by
  induction l generalizing s n with
  | nil => exact hs
  | cons x xs ih =>
    unfold State.writeBlocks
    split
    next z _ e =>
      have hz : z.Inv := .of_eq e (.ite_fst hs (.writeHome hs))
      exact .ite_fst (.when hz .bump') (ih (.updBlock (.bump64' hz)))

theorem execTierWriteback_keeps {k : IssueKey} (hs : s.Inv) : Res.Keeps (execTierWriteback k s) := by
  refine ⟨_, rfl, ?_⟩
  split
  · exact hs
  · refine .ite hs ?_
    split
    · exact .settleEvictions (.finishIssue' hs)
    · exact .ite hs (.settleEvictions (.finishIssue' (.writeBlocks hs)))

theorem execQuotaSet_keeps {cmd : Nat} (hs : s.Inv) : Res.Keeps (execQuotaSet cmd s) := by
  refine ⟨_, rfl, ?_⟩
  split
  · exact hs
  · refine .ite (.fail' hs) (.ite (.fail' hs) (.ite (.fail' hs) (.ite (.fail' hs) (.ite (.ite (.settleEvictions (.updTier (.fail'
      (.updTenant' hs)))) (.fail' (.updTenant' hs))) (.ite (.fail' (.updTenant' hs)) ?_)))))
    split
    · exact .fail' hs
    · exact .ite (.fail' hs) (.ite (.fail' hs) (.fail' (.updTenant' hs)))


/-! ### Pipe -/

theorem State.Inv.updPipe {h : Nat} {f : Pipe → Pipe} (hs : s.Inv) : (s.updPipe h f).Inv := hs

theorem execPipeQuery_keeps {cmd : Nat} (hs : s.Inv) : Res.Keeps (execPipeQuery cmd s) := by
  refine ⟨_, rfl, ?_⟩
  dsimp only
  split
  · exact hs
  · split
    · exact .fail' hs
    · exact .fail' hs
    · exact .fail' hs
    · exact .fail' hs
    · exact .fail' hs
    · split
      · exact .fail' hs
      · exact .ite (.fail' hs) (.ite (.fail' hs) (.ite (.fail' hs) (.spoilOut (.updCmd hs))))

theorem State.Inv.onPipe {h : Nat} {c : UCheck} {f : State → State} (hs : s.Inv) (hf : ∀ (s : State), s.Inv → (f s).Inv) : (s.onPipe h c
  f).Inv := by
  unfold State.onPipe
  split
  · exact hf _ hs
  · exact hs
  · exact .failPipe hs
  · exact .failPipe hs
  · exact .failPipe hs
  · exact .failPipe hs

theorem execQueryTokenize_keeps {cmd : Nat} (hs : s.Inv) : Res.Keeps (execQueryTokenize cmd s) := by
  refine ⟨_, rfl, ?_⟩
  dsimp only
  split
  · exact hs
  · refine .ite hs (.onPipe hs (fun _ h1 => .ite (.failPipe (.bump' (.foldl' (fun _ _ h2 => .countTokenized h2) h1))) ?_))
    split
    · exact .noteReady (.updPipe (.foldl' (fun _ _ h2 => .countTokenized h2) h1))
    · exact .updPipe (.foldl' (fun _ _ h2 => .countTokenized h2) h1)

theorem execEmbed_keeps {cmd : Nat} {vec : List Word} (hs : s.Inv) : Res.Keeps (execEmbed cmd vec s) := by
  refine ⟨_, rfl, ?_⟩
  dsimp only
  split
  · refine .ite hs ?_
    split
    · refine .ite (.failPipe hs) (.onPipe hs (fun _ h1 => .ite h1 ?_))
      split
      · exact .failPipe (.useHand h1)
      · exact .addQuery (.updPipe (.useHand h1))
    · exact .failPipe hs
    · exact hs
  · exact hs

theorem execPassageFetch_keeps {cmd : Nat} {reads : List (Addr × ReadResult)} (hs : s.Inv) :
    Res.Keeps (execPassageFetch cmd reads s) := by
  refine ⟨_, rfl, ?_⟩
  split
  · split
    · exact hs
    · refine .ite hs (.onPipe hs (fun u hu => ?_))
      extract_lets s1 s2 s3 s4 cands scratch s5 s6
      have h4 : s4.Inv := .when (.foldl' (fun _ _ h => .countTokenized h)
        (.bumpBy' (.bumpBy' (.bumpBy' (.foldl' (fun _ _ h => .countLost h) hu))))) .recovered
      have h6 : s6.Inv := by
        clear_value s4
        dsimp only [s6]
        split
        · exact .noteReady (.updSearch h4)
        · exact .updSearch h4
      exact .ite (.settleEvictions (.failPipe h4)) (.settleEvictions (.updPipe (.chargeT1 h6)))
  · exact hs

theorem State.Inv.stageFault {t hand : Nat} (hs : s.Inv) : (s.stageFault t hand).Inv := .fltBump' (.updFlt (.draw hs))

theorem execRerank_keeps {cmd : Nat} {scores : RerankRun} (hs : s.Inv) : Res.Keeps (execRerank cmd scores s) := by
  refine ⟨_, rfl, ?_⟩
  split
  · exact hs
  · refine .ite hs ?_
    split
    · exact .failPipe hs
    · refine .ite (.failPipe hs) (.onPipe hs (fun u hu => .ite hu (.ite (.failPipe (.bump' hu)) (.ite (.failPipe hu) ?_))))
      extract_lets s1 s2 p question cut cuts seqs s3
      have h3 : s3.Inv := .bumpBy' (.when (.updPipe (.chargeT1 (.useHand (.foldl' (fun _ _ h => .countTokenized h) hu)))) .bump')
      clear_value s3
      split
      · exact .failPipe (.stageFault h3)
      · extract_lets scored good lost s4 unit s5 s6
        have h6 : s6.Inv := .when (.when (.bumpBy' h3) (fun h => .bump64' (.bump64' h))) (fun h => .recovered (.bump' h))
        exact .ite (.failPipe (.bump' h6)) (.updPipe h6)

theorem execPack_keeps {cmd : PackRun} (hs : s.Inv) : Res.Keeps (execPack cmd s) := by
  refine ⟨_, rfl, ?_⟩
  split
  · exact hs
  · refine .ite hs (.ite (.failPipe hs) (.ite (.failPipe hs) (.ite hs (.ite (.failPipe (.stageFault hs)) ?_))))
    split
    · exact hs
    · exact .updPipe (.bumpBy' (.bumpBy' (.bumpBy' hs)))

theorem execPipeReturn_keeps {cmd : Nat} (hs : s.Inv) : Res.Keeps (execPipeReturn cmd s) := by
  refine ⟨_, rfl, ?_⟩
  split
  · exact hs
  · refine .ite hs ?_
    extract_lets b status
    split
    · exact .reject (.dropPipe hs)
    · extract_lets s1 s2 s3 s4
      have h3 : s3.Inv := .when (.when (.wr' (.wr' hs)) .wr') .spoilOut
      exact .ite (.complete' (.dropPipe h3)) (.ite (.fail' (.dropPipe (.spoilOut h3)))
        (.when (.genAdmit (.updPipe h3)) (fun h => .dropPipe (.foldl' (fun _ _ h => .spoilOut h) h))))


/-! ### Objects -/

theorem State.Inv.mapCode {t va : Nat} {codes : List (Nat × Nat)} (hs : s.Inv) : (s.mapCode t va codes).Inv := by
  unfold State.mapCode
  exact .foldl' (fun _ _ h1 => .mapPage h1) hs

theorem State.Inv.loadBytes {c : Cmd} {t : State} {st : Nat} (hs : s.Inv) (e : s.loadBytes c = .inr (t, st)) : t.Inv := by
  unfold State.loadBytes at e
  dsimp only at e
  split at e
  · split at e
    · cases e
      exact hs
    · split at e
      · cases e
        exact .countLost hs
      · cases e
  · split at e
    · cases e
      exact hs
    · split at e
      · cases e
        exact hs
      · cases e

/-- A fold that none stops stays none. -/
theorem foldl_none {α β : Type} {f : Option β → α → Option β} (hf : ∀ a, f none a = none) {l : List α} : l.foldl f none = none := by
  induction l with
  | nil => rfl
  | cons a l ih => rw [List.foldl_cons, hf, ih]

theorem State.Inv.hostPuts {t : Nat} {l : List (Owner × Stored)} {u : State} (hs : s.Inv) (e : s.hostPuts t l = some u) : u.Inv := by
  induction l generalizing s with
  | nil =>
    obtain rfl := Option.some.inj e
    exact hs
  | cons x l ih =>
    rcases hx : s.hostPut x.1 t x.2 with ⟨z, _ | _⟩
    · simp only [State.hostPuts, List.foldl_cons, Option.bind_some, hx, Bool.false_eq_true, if_false] at e
      rw [foldl_none (fun _ => rfl)] at e
      cases e
    · exact ih (.of_eq hx (.hostPut hs)) (by simpa [State.hostPuts, hx] using e)

/-- The state that an installation ends in, whether it succeeds or not. -/
theorem State.Inv.install {t : Nat} {l : Loading} (hs : s.Inv) : ((s.install t l).elim id Prod.fst).Inv := by
  unfold State.install
  extract_lets charge x far stored b pages bs
  have hfar {z : State} (h : far = some z) : z.Inv := by
    dsimp only [far] at h
    split at h
    · exact hs.hostPuts h
    · cases h
  have hstored : (stored.elim id Prod.fst).Inv := by
    clear_value far
    cases far with
    | some z => exact hfar rfl
    | none =>
      refine .ite_sum hs (.ite_sum (.bump' hs) ?_)
      split
      next z _ e =>
        have hz : z.Inv := .of_eq e (.mediaPuts hs)
        exact .ite_sum hz (.bump' (.mediaFree hz))
  clear_value stored
  refine .ite_sum hs ?_
  cases stored with
  | inr r => exact hstored
  | inl z => exact .ite_sum (.placePages (.chargeT1 hstored)) (.inl (.updTier (.placePages (.chargeT1 hstored))))

theorem State.Inv.loaded {h number : Nat} {r : State ⊕ State × Nat} {add : State → State} (hr : (r.elim id Prod.fst).Inv)
    (hf : ∀ (s : State), s.Inv → (add s).Inv) : (s.loaded h number r add).Inv := by
  cases r with
  | inl t => exact .complete' (hf t hr)
  | inr p => exact .fail' hr

theorem State.Inv.loadModel {h t kind : Nat} {tiered codec : Bool} {b : List Byte} (hs : s.Inv) :
    (s.loadModel h t kind tiered codec b).Inv := by
  unfold State.loadModel
  refine .ite (.fail' hs) (.ite (.fail' (.bump' hs)) ?_)
  split
  · exact .fail' hs
  · exact .loaded (.install (.drawN hs)) (fun _ h => .mapCode h)

theorem State.Inv.loadDeck {h t : Nat} {tiered : Bool} {b : List Byte} (hs : s.Inv) : (s.loadDeck h t tiered b).Inv := by
  unfold State.loadDeck
  refine .ite (.fail' hs) ?_
  split
  · exact .fail' hs
  · exact .loaded (.install (.draw hs)) (fun _ h => .pinDeck h)

theorem State.Inv.loadAutomaton {h t : Nat} {tiered : Bool} {b : List Byte} (hs : s.Inv) : (s.loadAutomaton h t tiered b).Inv := by
  unfold State.loadAutomaton
  refine .ite (.fail' hs) ?_
  split
  · exact .fail' hs
  · exact .loaded (.install (.draw hs)) (fun _ h => h)

theorem State.Inv.loadCollection {h t : Nat} {tiered : Bool} {b : List Byte} (hs : s.Inv) : (s.loadCollection h t tiered b).Inv := by
  unfold State.loadCollection
  refine .ite (.fail' hs) (.ite (.fail' hs) ?_)
  split
  · exact .fail' hs
  · refine .ite (.fail' hs) (.loaded (.install (.draw hs)) (fun u hu => ?_))
    split
    next z base e =>
      have hz : z.Inv := .of_eq e (.dirPlace hu)
      exact ⟨hz.1, sparseWf_filter _ _ _ hz.2⟩

theorem State.Inv.loadTable {h t number : Nat} {b : List Byte} (hs : s.Inv) : (s.loadTable h t number b).Inv :=
  .ite (.fail' hs) (.ite (.fail' (.draw hs)) (.ite (.fail' (.bump' (.draw hs))) (.ite (.fail' (.bump' (.mediaFree (.mediaPuts (.draw
    hs))))) (.complete' (.updEmbed (.mediaPuts (.draw hs)))))))

theorem execModelLoad_keeps {cmd : Nat} (hs : s.Inv) : Res.Keeps (execModelLoad cmd s) := by
  refine ⟨_, rfl, ?_⟩
  split
  · exact hs
  · refine .ite hs (.ite (.fail' hs) ?_)
    split
    · next e => exact .fail' (hs.loadBytes e)
    · dsimp only
      split
      · exact .loadCollection hs
      · exact .loadDeck hs
      · exact .loadAutomaton hs
      · exact .loadTable hs
      · exact .loadModel hs

theorem State.Inv.unplace {t kind number va len t1 : Nat} (hs : s.Inv) : (s.unplace t kind number va len t1).Inv := by
  unfold State.unplace
  exact .mediaFree (.hostFree (.updTier (.releaseT1 (.freePages hs))))

theorem State.Inv.freeModel {n : Nat} (hs : s.Inv) : (s.freeModel n).Inv := by
  unfold State.freeModel
  split
  · exact hs
  · exact .set (.unplace hs)

theorem State.Inv.freeDeck {n : Nat} (hs : s.Inv) : (s.freeDeck n).Inv := by
  unfold State.freeDeck
  split
  · exact hs
  · exact .set (.unplace hs)

theorem State.Inv.freeAutomaton {n : Nat} (hs : s.Inv) : (s.freeAutomaton n).Inv := by
  unfold State.freeAutomaton
  split
  · exact hs
  · exact .set (.unplace hs)

theorem State.Inv.freeCollection {n : Nat} (hs : s.Inv) : (s.freeCollection n).Inv := by
  unfold State.freeCollection
  split
  · exact hs
  · exact .set (.mediaFree (.freeCopies (.releaseT2 (.foldl' (fun _ _ h1 => .freePages h1) (.releaseT1 (.unplace hs))))))

theorem State.Inv.freeTable {n : Nat} (hs : s.Inv) : (s.freeTable n).Inv := by
  unfold State.freeTable
  split
  · exact hs
  · exact .updEmbed (.mediaFree (.releaseT1 (.bumpBy' hs)))

theorem execModelEvict_keeps {cmd : Nat} (hs : s.Inv) : Res.Keeps (execModelEvict cmd s) := by
  refine ⟨_, rfl, ?_⟩
  dsimp only
  split
  · exact hs
  · split
    · exact .ite (.updCmd (.updColl hs)) (.fail' hs)
    · exact .ite (.fail' hs) (.updCmd hs)
    · exact .ite (.fail' hs) (.updCmd hs)
    · split
      · exact .fail' hs
      · exact .fail' (.freeTable hs)
    · exact .ite (.fail' hs) (.ite (.fail' hs) (.updCmd hs))

theorem State.Inv.freeObject {kind number : Nat} (hs : s.Inv) : (s.freeObject kind number).Inv := by
  unfold State.freeObject
  split
  · exact .freeCollection hs
  · exact .freeDeck hs
  · exact .freeAutomaton hs
  · exact .freeTable hs
  · exact .freeModel hs

theorem execEvictionComplete_keeps {kind number : Nat} (hs : s.Inv) : Res.Keeps (execEvictionComplete kind number s) := by
  refine ⟨_, rfl, ?_⟩
  split
  · exact hs
  · exact .ite hs (.fail' (.freeObject hs))


/-! ### Residency -/

theorem State.Inv.recoverReqs {p : Request → Bool} (hs : s.Inv) : (s.recoverReqs p).Inv := .updServing hs

theorem State.Inv.recoverPipes {p : Pipe → Bool} (hs : s.Inv) : (s.recoverPipes p).Inv := by
  unfold State.recoverPipes
  exact .foldl' (fun _ _ h1 => .recovered h1) hs

theorem State.Inv.recoverIssues {p : UnitIssue → Bool} (hs : s.Inv) : (s.recoverIssues p).Inv := hs

theorem State.Inv.recoverQueries {p : Query → Bool} (hs : s.Inv) : (s.recoverQueries p).Inv := .updSearch hs

theorem State.Inv.recoverObject {t kind n : Nat} (hs : s.Inv) : (s.recoverObject t kind n).Inv := by
  unfold State.recoverObject
  split
  · exact .recoverQueries hs
  · exact .recoverIssues (.recoverPipes (.recoverReqs hs))
  · exact .recoverIssues (.recoverReqs hs)
  · exact .recoverPipes (.recoverReqs (.foldl' (fun _ _ h1 => .recovered h1) hs))

theorem State.Inv.recoverPage {t b : Nat} (hs : s.Inv) : (s.recoverPage t b).Inv := by
  unfold State.recoverPage
  dsimp only
  split
  · exact .recoverObject (.foldl' (fun _ _ h1 => .recovered h1) hs)
  · exact .recoverQueries (.foldl' (fun _ _ h1 => .recovered h1) hs)
  · exact .recoverQueries (.foldl' (fun _ _ h1 => .recovered h1) hs)
  · exact .recoverReqs (.foldl' (fun _ _ h1 => .recovered h1) hs)
  · exact .foldl' (fun _ _ h1 => .recovered h1) hs

theorem State.Inv.blockAway {t b : Nat} (hs : s.Inv) : (s.blockAway t b).Inv := by
  unfold State.blockAway
  split
  · exact .ite (.dropBlock hs) hs
  · exact hs

theorem State.Inv.moveFrame {d frame dest : Nat} (hs : s.Inv) : (s.moveFrame d frame dest).Inv := by
  unfold State.moveFrame
  split
  · exact hs
  · exact .when (.updTier (.set (.takeFrame (.ite hs (.blockAway hs))))) .poisonPage

theorem State.Inv.strandFrame {d frame : Nat} (hs : s.Inv) : (s.strandFrame d frame).Inv := by
  unfold State.strandFrame
  split
  · exact hs
  · exact .setPresent (.blockAway hs)

theorem State.Inv.replaceFrame {d frame : Nat} (hs : s.Inv) : (s.replaceFrame d frame).Inv := by
  unfold State.replaceFrame
  split
  · exact .moveFrame hs
  · exact .strandFrame hs

theorem State.Inv.rebuildFrame {f : Nat} (hs : s.Inv) : (s.rebuildFrame f).Inv := by
  unfold State.rebuildFrame
  split
  · exact hs
  · exact .recoverReqs (.bump' (.updFrame (.recomputeKv (.foldl' (fun _ _ h1 => .setPresent (.wrPage h1)) hs))))

theorem State.Inv.replaceT1 {d : Nat} {pick pickRow : Nat → Bool} (hs : s.Inv) : (s.replaceT1 d pick pickRow).Inv := by
  unfold State.replaceT1
  exact .foldl' (fun _ _ h1 => .foldl' (fun _ _ h2 => .revertRow h2) h1) (.foldl' (fun _ _ h3 => .rebuildFrame h3) (.foldl' (fun _ _ h4 =>
    .replaceFrame h4) hs))

theorem State.Inv.demandReplaced {t b : Nat} (hs : s.Inv) : (s.demandReplaced t b).Inv := by
  unfold State.demandReplaced
  dsimp only
  refine .ite hs ?_
  split
  · refine .moveFrame ?_
    split
    · exact .evictBlock hs
    · exact hs
  · refine .failFetch (.fltBump' ?_)
    split
    · exact .evictBlock hs
    · exact hs

theorem State.Inv.fetchPage {t b : Nat} {checksPass : Bool} (hs : s.Inv) : (s.fetchPage t b checksPass).Inv := by
  unfold State.fetchPage
  dsimp only
  split
  · exact .ite (.failFetch (.noRoom (.makeRoom hs))) (.ite (.updTier (.bringIn (.makeRoom hs))) (.updTier (.bringIn (.ite (.makeRoom hs)
      (.recoverPage (.makeRoom hs))))))
  · exact .updTier (.wakePage (.rebuildFrame hs))
  · exact .updTier (.wakePage (.poisonPage (.setPresent hs)))
  · exact .updTier (.fillPage (.ite hs (.recoverPage hs)))

theorem execFetchComplete_keeps {tenant block : Nat} {checksPass : Bool} (hs : s.Inv) :
    Res.Keeps (execFetchComplete tenant block checksPass s) :=
  ⟨_, rfl, .ite hs (.ite (.settleEvictions (.updTier hs)) (.ite hs (.ite (.settleEvictions (.failFetch (.countPageLost hs)))
    (.settleEvictions (.fetchPage hs)))))⟩

theorem State.Inv.poisonLine {line : Nat} (hs : s.Inv) : (s.poisonLine line).Inv := .updFlt (.updTier (.bump' hs))

theorem State.Inv.repairPage {line t b : Nat} (hs : s.Inv) : (s.repairPage line t b).Inv := by
  unfold State.repairPage
  split
  · exact .rebuildFrame hs
  · exact .poisonLine hs
  · exact .ite (.poisonLine hs) (.ite (.poisonLine (.countPageLost hs)) (.ite (.poisonLine (.bump' hs)) (.recoverPage (.wrPage (.bump'
      hs)))))

theorem execT1LineRepairDone_keeps {line : Nat} (hs : s.Inv) : Res.Keeps (execT1LineRepairDone line s) := by
  unfold execT1LineRepairDone
  dsimp only
  refine ⟨_, rfl, .ite hs ?_⟩
  split
  · exact .repairPage (.bump' hs)
  · exact .revertRow (.bump' hs)
  · exact .recoverReqs (.bump' (.bump' hs))
  · split
    · exact .ite (.recovered (.rerunSeat (.bump' (.bump' hs)))) (.poisonLine (.bump' hs))
    · exact .poisonLine (.bump' hs)
  · exact .ite (.recovered (.bump' (.bump' hs))) (.poisonLine (.bump' hs))
  · exact .bump' hs
  · exact .poisonLine (.bump' hs)


/-! ### Cancel -/

theorem State.Inv.renameSeat {a b : Nat} (hs : s.Inv) : (s.renameSeat a b).Inv := hs

theorem State.Inv.liftInv {n kept : Nat} (hs : s.Inv) : (s.liftInv n kept).Inv := by
  unfold State.liftInv
  split
  · exact hs
  · exact .updInv (.foldl' (fun _ _ h1 => .renameSeat (.updSeat h1)) hs)

theorem State.Inv.dropInv {n : Nat} {seats : List Nat} (hs : s.Inv) : (s.dropInv n seats).Inv := by
  unfold State.dropInv
  split
  · exact hs
  · exact .foldl' (fun _ _ h1 => .settleSeat' h1) (.foldl' (fun _ _ h2 => .markSeat h2) (.updInv (.foldl' (fun _ _ h3 => .renameSeat
      (.setSbuf (.updSeat h3))) hs)))

theorem State.Inv.cancelInv {n st : Nat} (hs : s.Inv) : (s.cancelInv n st).Inv := by
  unfold State.cancelInv
  split
  · exact hs
  · exact .endInvocation' (.stopInvocation (.cancelIssues (.ite (.updTier hs) hs)))

theorem State.Inv.suspend {n : Nat} (hs : s.Inv) : (s.suspend n).Inv := by
  unfold State.suspend
  split
  · exact hs
  · exact .ite (.cancelInv (.bump' hs)) (.updHand (.liftInv (.updTier hs)))

theorem State.Inv.resume {n : Nat} {seats : List Nat} (hs : s.Inv) : (s.resume n seats).Inv := by
  unfold State.resume
  split
  · exact hs
  · exact .dropInv (.updTier hs)

theorem State.Inv.stopRequest {id : Nat} (hs : s.Inv) : (s.stopRequest id).Inv := .stopRequestAs hs

theorem State.Inv.endCmd {reason rstatus st : Nat} {c : Cmd} (hs : s.Inv) : (s.endCmd reason rstatus st c).Inv := by
  unfold State.endCmd
  split
  · exact .stopRequestAs hs
  · split
    · exact .cancelInv hs
    · exact .ite (.rollback hs) (.fail' (.dropPipe (.dropQueries hs)))

theorem State.Inv.cancelCmd {c : Cmd} (hs : s.Inv) : (s.cancelCmd c).Inv := .endCmd hs

theorem State.Inv.abortCmd {c : Cmd} (hs : s.Inv) : (s.abortCmd c).Inv := .endCmd hs

theorem State.Inv.yieldSeat {g : Nat} (hs : s.Inv) : (s.yieldSeat g).Inv := .updSeat hs

theorem State.Inv.freeHand {h : Nat} (hs : s.Inv) : (s.freeHand h).Inv := by
  unfold State.freeHand
  extract_lets x later reset s1 s2 s3 s4 s5 s6 s7 s8 s9 s10
  have h3 : s3.Inv :=
    .foldl' (fun _ _ h => .stopRequest h) (.foldl' (fun _ _ h => .cancelCmd h) (.foldl' (fun _ _ h => .dropRequest h) hs))
  have h5 : s5.Inv := .foldl' (fun _ _ h => .cancelInv h) (.updServing h3)
  have h7 : s7.Inv := .foldl' (fun _ _ h => .yieldSeat h) (.foldl' (fun _ _ h => .yieldSeat h) h5)
  have h9 : s9.Inv := .updHand (.updServing h7)
  have h10 : s10.Inv := by
    dsimp only [s10]
    split
    · exact .foldl' (fun _ _ h => .fail' h) h9
    · exact h9
  clear_value s10
  split
  · exact .complete' h10
  · exact h10

theorem State.Inv.stopIssue {u : UnitIssue} (hs : s.Inv) : (s.stopIssue u).Inv :=
  .ite hs (.foldl' (fun _ _ h1 => .ite (.wrTva (.draw h1)) h1) hs)

theorem State.Inv.finishReset {t : Nat} (hs : s.Inv) : (s.finishReset t).Inv := by
  unfold State.finishReset
  split
  · exact hs
  · extract_lets s1 s2 s3 s4 s5 s6 s7 s8 s9 s10 s11 s12 admin s13 s14 s15 s16
    have h2 : s2.Inv := .set (.foldl' (fun _ _ h => .stopIssue h) hs)
    have h4 : s4.Inv := .foldl' (fun _ _ h => .dropRequest h) (.foldl' (fun _ _ h => .freeHand h) h2)
    have h6 : s6.Inv := .updEmbed (.dropQueries h4)
    have h8 : s8.Inv := .foldl' (fun _ _ h => .freeAutomaton h) (.foldl' (fun _ _ h => .freeModel h) h6)
    have h10 : s10.Inv := .foldl' (fun _ _ h => .freeCollection h) (.foldl' (fun _ _ h => .freeDeck h) h8)
    have h13 : s13.Inv := .when (.updTenant' (.foldl' (fun _ _ h => .freeTable h) h10)) .set
    exact .foldl' (fun _ _ h => .complete' h) (.bump' (.ite (.set (.mediaFree h13)) (.msix' h13)))

theorem State.Inv.startReset {t : Nat} {destroy leaveAbsent : Bool} {cmds : List Nat} (hs : s.Inv) : (s.startReset t destroy leaveAbsent
  cmds).Inv := by
  unfold State.startReset
  split
  · exact .updTenant' hs
  · exact .unless (.updEmbed (.foldl' (fun _ _ h1 => .dropCmd (.dropPipe h1)) (.dropQueries (.fenceHolder (.updTenant' hs))))) .finishReset


/-! ### Dealer -/

theorem execDealHand_keeps {cmd : Nat} (hs : s.Inv) : Res.Keeps (execDealHand cmd s) := by
  refine ⟨_, rfl, ?_⟩
  split
  · exact hs
  · refine .ite (.fail' hs) (.ite (.fail' hs) (.ite (.fail' hs) (.ite hs (.ite (.fail' hs) ?_))))
    split
    · exact .fail' hs
    · split
      · exact .fail' hs
      · exact .updCmd (.foldl' (fun _ _ h1 => .updSeat h1) (.bump' (.dealPot' (.updHand hs))))

theorem execResizeHand_keeps {cmd : Nat} (hs : s.Inv) : Res.Keeps (execResizeHand cmd s) := by
  refine ⟨_, rfl, ?_⟩
  dsimp only
  split
  · exact hs
  · split
    · exact .fail' hs
    · refine .ite (.fail' hs) (.ite (.fail' hs) (.ite hs (.ite hs (.ite (.fail' hs) ?_))))
      split
      · exact .fail' hs
      · exact .updCmd (.foldl' (fun _ _ h1 => .updSeat h1) (.updHand hs))

theorem execFreeHand_keeps {cmd : Nat} (hs : s.Inv) : Res.Keeps (execFreeHand cmd s) := by
  refine ⟨_, rfl, ?_⟩
  dsimp only
  split
  · exact hs
  · split
    · exact .fail' hs
    · exact .when (.updCmd (.updHand hs)) .freeHand

theorem State.Inv.settleResize {h : Nat} (hs : s.Inv) : (s.settleResize h).Inv := by
  unfold State.settleResize
  split
  · exact hs
  · exact .ite hs (.foldl' (fun _ _ h1 => .complete' h1) (.updHand hs))

theorem State.Inv.restartInv {v : Invocation} (hs : s.Inv) : (s.restartInv v).Inv :=
  .bump' (.updCmd (.foldl' (fun _ _ h1 => .updSeat h1) (.set (.cancelIssues (.ite (.updTier hs) hs)))))

theorem State.Inv.displace {n : Nat} {stay : List Nat} (hs : s.Inv) : (s.displace n stay).1.Inv := by
  unfold State.displace
  dsimp only
  split
  · exact hs
  · split
    · exact .dropInv (.liftInv hs)
    · split
      · exact .restartInv hs
      · exact .suspend hs

theorem State.Inv.restartRuns {runs : List (List Nat)} {stay : List Nat} (hs : s.Inv) : (s.restartRuns runs stay).Inv := by
  unfold State.restartRuns
  dsimp only
  refine .foldl_fst (fun _ _ h1 => ?_) hs
  split
  · exact h1
  · exact .bump' h1

theorem State.Inv.shrink {h : Nat} {leaving : List Nat} (hs : s.Inv) : (s.shrink h leaving).Inv := by
  unfold State.shrink
  exact .foldl' (fun _ _ h1 => .ite (.updSeat h1) (.yieldSeat h1)) (.foldl_fst (fun _ _ h2 => .displace h2) (.foldl' (fun _ _ h3 =>
    .restartInv h3) (.restartRuns (.dissolve (.loadSlices (.dealPot' (.updHand hs)))))))

theorem State.Inv.stepShrink {h : Nat} (hs : s.Inv) : (s.stepShrink h).Inv := by
  unfold State.stepShrink
  split
  · exact hs
  · exact .ite hs (.updHand (.shrink hs))

theorem State.Inv.replaceSeat {h g : Nat} (hs : s.Inv) : (s.replaceSeat h g).Inv := by
  unfold State.replaceSeat
  split
  · exact .bump' (.shrink hs)
  · refine .ite (.askDomain hs) (.updSeat (.dissolve (.loadSlices (.dealPot' (.updHand ?_)))))
    split
    · exact .dropInv (.liftInv (.setSbuf (.updSeat (.ite (.bump' hs) hs))))
    · exact .setSbuf (.updSeat (.ite (.bump' hs) hs))

theorem State.Inv.stepReplace {h : Nat} (hs : s.Inv) : (s.stepReplace h).Inv := by
  unfold State.stepReplace
  exact .foldl' (fun _ _ h1 => .replaceSeat h1) hs

theorem State.Inv.stepGrow {h : Nat} (hs : s.Inv) : (s.stepGrow h).Inv := by
  unfold State.stepGrow
  split
  · exact hs
  · exact .ite hs (.loadSlices (.dealPot' (.updHand (.dissolve (.foldl' (fun _ _ h1 => .updSeat h1) hs)))))

theorem State.Inv.stepResume {h : Nat} (hs : s.Inv) : (s.stepResume h).Inv := by
  unfold State.stepResume
  exact .foldl' (fun _ _ h1 => .ite (.resume h1) h1) hs

theorem State.Inv.stepSwitch {h : Nat} {changed : Bool} (hs : s.Inv) : (s.stepSwitch h changed).Inv := by
  unfold State.stepSwitch
  dsimp only
  split
  · exact .updHand hs
  · exact .unless (.updHand hs) (fun h1 => .loadSlices (.updHand (.ite (.updHand h1) (.unless h1 (fun h2 => .foldl' (fun _ _ h3 => .suspend
      h3) (.updHand h2))))))

theorem State.Inv.stepStops {h : Nat} (hs : s.Inv) : (s.stepStops h).Inv := by
  unfold State.stepStops
  refine .foldl' (fun _ _ h1 => ?_) hs
  split
  · exact .ite (.cancelInv h1) (.endInvocation' h1)
  · exact h1

theorem State.Inv.countBoundary {h : Nat} (hs : s.Inv) : (s.countBoundary h).Inv := by
  unfold State.countBoundary
  exact .foldl' (fun _ _ h1 => .markSeat (.updSeat h1)) (.set (.updHand hs))

theorem execTrickBoundary_keeps {hand : Nat} (hs : s.Inv) : Res.Keeps (execTrickBoundary hand s) :=
  ⟨_, rfl, .ite hs (.ite (.unless (.freeHand (.stepStops (.countBoundary hs))) .finishReset) (.ite (.freeHand (.stepStops (.countBoundary
    hs))) (.ite (.freeHand (.stepReplace (.stepShrink (.stepStops (.countBoundary hs))))) (.boundaryBatches (.pollParked (.stepResume
    (.stepSwitch (.settleResize (.stepGrow (.stepReplace (.stepShrink (.stepStops (.countBoundary hs)))))))))))))⟩

theorem State.Inv.growEmpty {h : Nat} (hs : s.Inv) : (s.growEmpty h).Inv := .ite (.stepResume (.settleResize (.stepGrow hs))) hs

theorem execSeatClearDone_keeps {seat : Nat} (hs : s.Inv) : Res.Keeps (execSeatClearDone seat s) := by
  refine ⟨_, rfl, .ite hs (.ite ?_ ?_)⟩
  · split
    · exact .updSeat (.setSbuf hs)
    · exact .unless (.updSeat (.setSbuf hs)) (fun h1 => .complete' (.updHand h1))
  · split
    · exact .growEmpty (.updSeat (.setSbuf hs))
    · exact .updSeat (.setSbuf hs)

theorem State.Inv.startInv {c : Cmd} {m : Model} {k : Kernel} {seats : List Nat} (hs : s.Inv) : (s.startInv c m k seats).Inv := by
  unfold State.startInv
  exact .foldl' (fun _ _ h1 => .markSeat h1) (.foldl' (fun _ _ h2 => .updSeat h2) hs)

theorem execKernelRun_keeps {cmd : Nat} (hs : s.Inv) : Res.Keeps (execKernelRun cmd s) := by
  refine ⟨_, rfl, ?_⟩
  dsimp only
  split
  · exact hs
  · refine .ite hs ?_
    split
    · exact .ite (.fail' hs) (.ite (.fail' hs) (.ite (.fail' hs) (.ite (.noteReady (.updCmd hs)) (.startInv (.updCmd (.useHand hs))))))
    · exact .fail' hs


/-! ### Registers -/

theorem State.Inv.announceFlt {old : State} (hs : s.Inv) : (s.announceFlt old).Inv := .ite hs (.msix' hs)

theorem State.Inv.announceLnk {old : State} (hs : s.Inv) : (s.announceLnk old).Inv := .ite hs (.msix' hs)


/-! ### Reset -/

theorem State.Inv.applySettings (hs : s.Inv) : s.applySettings.Inv := hs

theorem State.Inv.loseTenants (hs : s.Inv) : s.loseTenants.Inv :=
  .set (.foldl' (fun _ _ h1 => .foldl' (fun _ _ h2 => .rollback h2) h1) (.foldl' (fun _ _ h3 => .cancelInv h3) (.dropQueries (.foldl' (fun
    _ _ h4 => .dropPipe h4) (.foldl' (fun _ _ h5 => .dropRequest h5) hs)))))

theorem State.Inv.hostReset {kind : Nat} (hs : s.Inv) : (s.hostReset kind).Inv := .updCxl (.updPower (.applySettings (.loseTenants hs)))

theorem State.Inv.revertTable {t : EmbTable} (hs : s.Inv) : (s.revertTable t).Inv := .putTable (.mediaFree hs)

theorem State.Inv.dropRewrites (hs : s.Inv) : s.dropRewrites.Inv := by
  unfold State.dropRewrites
  exact .foldl' (fun _ _ h1 => .updColl (.releaseT2 (.releaseT1 h1))) hs

theorem State.Inv.emptyT1 (hs : s.Inv) : s.emptyT1.Inv := .set (.foldl' (fun _ _ h1 => .releaseT1 h1) hs)

theorem State.Inv.wipe {keep : Bool} (hs : s.Inv) : (s.wipe keep).Inv := by
  have h : ((s.loseTenants.emptyT1.freeCopies (fun _ => true)).dropRewrites.embAlone (fun _ => true)).Inv :=
    .embAlone (.dropRewrites (.freeCopies (.emptyT1 (.loseTenants hs))))
  have hr {l : List EmbTable} : State.Inv (l.foldl State.revertTable _) := .foldl' (fun _ _ h => .revertTable h) h
  exact .applySettings ⟨Memory.wf_filter _ _ hr.1, rfl⟩

theorem State.Inv.hardReset {kind : Nat} {trip foldBrown : Bool} (hs : s.Inv) : (s.hardReset kind trip foldBrown).Inv :=
  .updPower (.when (.wipe hs) .set)

theorem State.Inv.darken {ph : Phase} {keep : Bool} (hs : s.Inv) : (s.darken ph keep).Inv := .updPower (.wipe hs)

theorem State.Inv.countInvalid {r : Bool × Bool} (hs : s.Inv) : (s.countInvalid r).Inv := .ite hs (.ite (.bump' hs) (.bump' hs))

theorem State.Inv.secureBoot (hs : s.Inv) : s.secureBoot.1.Inv := by
  unfold State.secureBoot
  exact .ite_fst (.updSec hs) (.ite_fst (.updSec (.countInvalid hs)) (.countInvalid (.countInvalid hs)))

theorem State.Inv.placeWindow (hs : s.Inv) : s.placeWindow.Inv := .updTier (.updCxl hs)

theorem State.Inv.readSlots (hs : s.Inv) : s.readSlots.Inv := .ite hs (.updFlash hs)

theorem State.Inv.undo {k : Ckpt} {kept : List JRec} (hs : s.Inv) : (s.undo k kept).Inv := by
  unfold State.undo
  exact .foldl' (fun _ _ h1 => .ite h1 (.updColl (.dropEpochs h1))) (.foldl' (fun _ _ h2 => .chargeT2 h2) (.foldl' (fun _ _ h3 =>
    .releaseT2 h3) (.updFlash hs)))

theorem State.Inv.checkTrailers (hs : s.Inv) : s.checkTrailers.Inv := .updFlash hs

theorem State.Inv.replay {tornAt : Option Nat} (hs : s.Inv) : (s.replay tornAt).Inv :=
  .updFlash (.when (.checkTrailers (.when (.updFlash (.readSlots hs)) (fun h1 => .bump' (.undo h1)))) .checkpoint)

theorem State.Inv.bringUp {o : BringUp} (hs : s.Inv) : (s.bringUp o).Inv :=
  .ite hs (.ite (.updPower (.secureBoot (.updPower (.updCxl (.updMgmt hs))))) (.updPower (.updCxl (.updPower (.replay (.placeWindow
    (.updFlt (.secureBoot (.updPower (.updCxl (.updMgmt hs)))))))))))


/-! ### Dump -/

theorem State.Inv.fatal {cause : Nat} (hs : s.Inv) : (s.fatal cause).Inv := .ite hs (.updMgmt (.darken (.updFlash (.updDump (.draw hs)))))

theorem execDumpRead_keeps {cmd : Nat} (hs : s.Inv) : Res.Keeps (execDumpRead cmd s) := by
  refine ⟨_, rfl, ?_⟩
  split
  · exact hs
  · refine .ite (.fail' hs) ?_
    split
    · exact .fail' hs
    · exact .ite (.fail' hs) (.ite (.fail' hs) (.complete' (.wr' hs)))


/-! ### Failure -/

theorem State.Inv.pldmEvent {kind : Nat} (hs : s.Inv) : (s.pldmEvent kind).Inv := .emit (.updMgmt hs)

theorem State.Inv.stick {bit : BitVec 8} (hs : s.Inv) : (s.stick bit).Inv := .updFlt hs

theorem State.Inv.revertProbation (hs : s.Inv) : s.revertProbation.Inv := .ite hs (.updSec hs)

theorem State.Inv.rerunSteps (hs : s.Inv) : s.rerunSteps.Inv := .set (.draw hs)

theorem State.Inv.fwReset (hs : s.Inv) : s.fwReset.Inv := .ite (.fatal hs) (.rerunSteps (.revertProbation (.stick (.updFlt hs))))

theorem State.Inv.clusterHang {b : Bool} (hs : s.Inv) : (s.clusterHang b).Inv :=
  .ite (.updFlt (.fenceHolder hs)) (.ite (.rerunSteps (.revertProbation (.stick (.fltBump' (.updFlt (.fenceHolder hs)))))) (.fwReset
    (.fenceHolder hs)))

theorem State.Inv.coreFault {b : Bool} {core : Nat} (hs : s.Inv) : (s.coreFault b core).Inv :=
  .ite (.fltBump' (.updFlt (.fenceHolder hs))) (.when (.updFlt (.fenceHolder hs)) .clusterHang)

theorem State.Inv.endIssues {p : Nat → Bool} {status : Nat} (hs : s.Inv) : (s.endIssues p status).Inv := by
  unfold State.endIssues
  exact .foldl' (fun _ _ h1 => .finishIssue' h1) (.updEmbed (.set (.dropQueries hs)))

theorem State.Inv.searchOnSeats (hs : s.Inv) : s.searchOnSeats.Inv := .settleCopies (.updSearch (.endQueries (.endIssues hs)))

theorem State.Inv.fenceUnit {unit : Nat} (hs : s.Inv) : (s.fenceUnit unit).Inv :=
  .ite (.foldl' (fun _ _ h1 => .fenceHolder h1) hs) (.ite hs (.foldl' (fun _ _ h2 => .fenceHolder h2) hs))

theorem State.Inv.unitRecovered {unit : Nat} (hs : s.Inv) : (s.unitRecovered unit).Inv :=
  .when (.when (.updSearch (.foldl' (fun _ _ h1 => .recovered h1) hs)) .updServing) (fun h3 => .foldl' (fun _ _ h4 => .recoveredWaiter h4)
    h3)

theorem State.Inv.powerCycle {unit : Nat} (hs : s.Inv) : (s.powerCycle unit).Inv := by
  unfold State.powerCycle
  split
  · exact .updSearch hs
  · exact hs
  · exact hs
  · exact .updEmbed hs
  · exact hs

theorem State.Inv.reclaim {holder : Nat} (hs : s.Inv) : (s.reclaim holder).Inv := by
  unfold State.reclaim
  dsimp only
  split
  · exact .ite hs (.cancelIssues hs)
  · exact .updSearch hs
  · exact .ite (.powerCycle hs) hs
  · exact .shedSender hs
  · exact .cancelIssues (.foldl' (fun _ _ h1 => .stopRequestAs h1) (.foldl' (fun _ _ h2 => .cancelInv h2) hs))
  · exact hs
  · exact hs

theorem State.Inv.unitOutOf {unit : Nat} (hs : s.Inv) : (s.unitOutOf unit).Inv :=
  .ite (.searchOnSeats (.updFlt hs)) (.when (.when (.when (.foldl' (fun _ _ h1 => .stopRequestAs h1) (.endIssues (.updFlt hs))) (fun h2 =>
    .foldl' (fun _ _ h3 => .completeWaiter' h3) (.updEmbed h2))) (fun h4 => .foldl' (fun _ _ h5 => .failPipe h5) h4)) .endQueries)

theorem State.Inv.unitHang {unit : Nat} (hs : s.Inv) : (s.unitHang unit).Inv :=
  .ite hs (.ite (.unitOutOf (.unless (.fenceUnit (.draw hs)) .updFlt)) (.unitRecovered (.powerCycle (.stick (.fltBump' (.unless (.fenceUnit
    (.draw hs)) .updFlt))))))

theorem State.Inv.poisonLines {ls : List Nat} (hs : s.Inv) : (s.poisonLines ls).Inv := .ite hs (.stick (.updTier (.bumpBy' hs)))

theorem State.Inv.reduceT1 {channels : Nat} (hs : s.Inv) : (s.reduceT1 channels).Inv := .updFlt (.updTier hs)

theorem State.Inv.loseChannel {channel : Nat} {answers : Bool} (hs : s.Inv) : (s.loseChannel channel answers).Inv :=
  .ite hs (.ite (.updTier (.unless (.stick (.fltBump' (.draw hs))) .poisonLines)) (.replaceT1 (.reduceT1 (.draw (.updTier (.unless (.stick
    (.fltBump' (.draw hs))) .poisonLines))))))

theorem State.Inv.wakeHoming (hs : s.Inv) : s.wakeHoming.Inv := .wakeWaits hs

theorem State.Inv.abortSeatWork (hs : s.Inv) : s.abortSeatWork.Inv := .set (.foldl' (fun _ _ h1 => .abortCmd h1) hs)

theorem State.Inv.breakInv {v : Invocation} (hs : s.Inv) : (s.breakInv v).Inv := .ite (.recovered (.restartInv hs)) (.cancelInv hs)

theorem State.Inv.repeatSteps {d : Nat} (hs : s.Inv) : (s.repeatSteps d).Inv := by
  unfold State.repeatSteps
  exact .foldl' (fun _ _ h1 => .recovered h1) (.when (.foldl' (fun _ _ h2 => .updReq h2) hs) .recoverQueries)

theorem State.Inv.loseDie {d : Nat} (hs : s.Inv) : (s.loseDie d).Inv := by
  unfold State.loseDie
  refine (.foldl' (fun _ _ h1 => ?_) (.when (.replaceT1 (.reduceT1 (.draw (.wakeHoming (.updTier (.foldl' (fun _ _ h2 => .settleResize h2)
    (.updFlt (.foldl' (fun _ _ h3 => .updSeat h3) (.foldl' (fun _ _ h4 => .breakInv h4) (.repeatSteps (.stick (.fltBump' (.reclaim
    (.fenceHolder (.foldl' (fun _ _ h5 => .fenceHolder h5) hs))))))))))))))) .abortSeatWork))
  split
  · exact .ite h1 (.complete' (.updHand h1))
  · exact h1

theorem State.Inv.loseSDie (hs : s.Inv) : s.loseSDie.Inv := by
  unfold State.loseSDie
  extract_lets s1 s2 s3 s4 s5 x s6 draw
  have h4 : s4.Inv := .searchOnSeats (.updFlt (.stick (.fltBump' (.fenceHolder hs))))
  have h6 : s6.Inv := .wakeHoming (.updTier (.set h4))
  exact .replaceT1 (.reduceT1 (.draw h6))

theorem State.Inv.upset (hs : s.Inv) : s.upset.Inv := by
  unfold State.upset
  dsimp only
  refine .ite hs ?_
  split
  · exact .when (.draw hs) .updSeat
  · exact .set (.draw hs)
  · exact .updEmbed (.draw hs)
  · exact .set (.draw hs)
  · exact .set (.draw hs)
  · exact .draw hs

theorem State.Inv.lowerCap {w : Nat} (hs : s.Inv) : (s.lowerCap w).Inv := .updPower hs

theorem State.Inv.inject {kind target : Nat} (hs : s.Inv) : (s.inject kind target).Inv := by
  unfold State.inject
  split
  · exact .ite (.clusterHang hs) hs
  · exact .ite (.unitHang hs) hs
  · exact .ite (.loseChannel (.draw hs)) hs
  · exact .ite (.coreFault hs) hs
  · exact hs


/-! ### Links -/

theorem State.Inv.memberGone {m : Nat} (hs : s.Inv) : (s.memberGone m).Inv := .embLost (.fenceHolder (.updCell hs))

theorem State.Inv.applyMembership {epoch : Nat} {members : BitVec 64} {change subject : Nat} (hs : s.Inv) : (s.applyMembership epoch
  members change subject).Inv :=
  .reroute (.when (.foldl' (fun _ _ h1 => .memberGone h1) (.when (.ite (.bump' (.updCell hs)) (.when (.updCell hs) .bump')) .embAlone))
    .embJoined)

theorem State.Inv.changeSet {change m : Nat} (hs : s.Inv) : (s.changeSet change m).Inv := by
  unfold State.changeSet
  exact .foldl' (fun _ _ h1 => .send h1) (.applyMembership hs)

theorem State.Inv.recvMembership {m : List Byte} (hs : s.Inv) : (s.recvMembership m).Inv :=
  .ite hs (.ite (.bump' hs) (.applyMembership (.ite (.updCell hs) hs)))

theorem State.Inv.isolate (hs : s.Inv) : s.isolate.Inv := .ite hs (.embAlone (.updCell (.bump' hs)))

theorem State.Inv.declareLost (hs : s.Inv) : s.declareLost.Inv := .ite (.foldl' (fun _ _ h1 => .changeSet h1) hs) (.isolate hs)

theorem State.Inv.admitPeer {m : Nat} (hs : s.Inv) : (s.admitPeer m).Inv := .ite (.changeSet hs) hs

theorem State.Inv.leaveCell (hs : s.Inv) : s.leaveCell.Inv :=
  .ite hs (.updCell (.embAlone (.ite hs (.ite (.foldl' (fun _ _ h1 => .send h1) hs) (.draw (.send hs))))))

theorem State.Inv.linkDown {l : Nat} (hs : s.Inv) : (s.linkDown l).Inv := by
  unfold State.linkDown
  refine .reroute ?_
  split
  · exact .updLink (.updCell (.updLink (.bump' hs)))
  · exact .updCell (.updLink (.bump' hs))

theorem State.Inv.sendCtrl {l : Nat} (hs : s.Inv) : (s.sendCtrl l).Inv := .putFrame (.draw hs)

theorem State.Inv.trainLink {l lanes : Nat} {hb : List Byte} (hs : s.Inv) : (s.trainLink l lanes hb).Inv :=
  .when (.when (.sendCtrl (.bumpBy' (.updLink hs))) .bump') (fun h2 => .reroute (.admitPeer h2))

theorem execLaneFail_keeps {link lane : Nat} (hs : s.Inv) : Res.Keeps (execLaneFail link lane s) :=
  ⟨_, rfl, .ite hs (.ite (.announceLnk (.linkDown (.updLink (.bump' (.bumpBy' (.draw hs)))))) (.sendCtrl (.updLink (.updLink (.bump'
    (.bumpBy' (.draw hs)))))))⟩

theorem State.Inv.resend {l : Nat} (hs : s.Inv) : (s.resend l).Inv :=
  .when (.foldl' (fun _ _ h1 => .emit h1) (.updLink (.bumpBy' hs))) .linkDown

theorem State.Inv.heartbeatIn {l : Nat} {p : List Byte} (hs : s.Inv) : (s.heartbeatIn l p).Inv :=
  .unless (.updLink hs) (fun h1 => .reroute (.unless (.ite (.isolate (.updCell h1)) (.when (.updCell h1) .updCell)) .admitPeer))

theorem State.Inv.deliver {cls : Nat} {m : List Byte} (hs : s.Inv) : (s.deliver cls m).Inv :=
  .ite (.ite (.recvMembership hs) hs) (.embDeliver hs)

theorem State.Inv.freeEntry {l : Nat} {f : List Byte} (hs : s.Inv) : (s.freeEntry l f).Inv := .updLink hs

theorem State.Inv.dataIn {l : Nat} {f : List Byte} (hs : s.Inv) : (s.dataIn l f).Inv := by
  unfold State.dataIn
  refine .ite (.freeEntry hs) (.ite ?_ (.when (.updLink (.freeEntry hs)) .deliver))
  split
  · exact .pumpLink (.updLink hs)
  · exact .freeEntry hs

theorem State.Inv.frameIn {l : Nat} {f : List Byte} (hs : s.Inv) : (s.frameIn l f).Inv := by
  unfold State.frameIn
  refine .ite (.unless (.bump' hs) (fun h1 => .putFrame (.updLink h1))) (.pumpLink (.ite (.bump' (.unless (.updLink hs) .freeEntry)) ?_))
  split
  · exact .dataIn (.updLink hs)
  · exact .updLink (.updLink hs)
  · exact .heartbeatIn (.updLink (.updLink hs))
  · exact .resend (.updLink hs)

theorem State.Inv.frameOf {ty l : Nat} {f : List Byte} (hs : s.Inv) : (s.frameOf ty l f).Inv := .ite hs (.announceLnk (.frameIn hs))

theorem State.Inv.beat {l : Nat} (hs : s.Inv) : (s.beat l).Inv :=
  .ite hs (.unless (.ite (.updLink hs) (.updLink (.bump' hs))) (fun h1 => .putFrame (.updLink h1)))

theorem execLnkCellWrite_keeps {v : Word} (hs : s.Inv) : Res.Keeps (execLnkCellWrite v s) :=
  ⟨_, rfl, .ite hs (.ite (.updCell hs) (.ite (.unless (.updCell hs) (fun h1 => .announceLnk (.leaveCell h1))) (.when (.updCell hs) (fun h2
    => .announceLnk (.updCell h2)))))⟩


/-! ### Cxl -/

theorem State.Inv.foldWake {cause link : Nat} (hs : s.Inv) : (s.foldWake cause link).Inv := .ite hs (.updMgmt (.updPower (.hardReset hs)))

theorem State.Inv.moduleReset {kind : Nat} (hs : s.Inv) : (s.moduleReset kind).Inv := by
  unfold State.moduleReset
  split
  · exact hs
  · exact hs
  · exact .ite (.hardReset hs) (.updPower hs)
  · exact .hardReset hs

theorem State.Inv.portDown (hs : s.Inv) : s.portDown.Inv := .updSec (.updCxl hs)

theorem State.Inv.linkLost (hs : s.Inv) : s.linkLost.Inv := .bump' (.portDown (.hostReset hs))

theorem State.Inv.finishFlip (hs : s.Inv) : s.finishFlip.Inv := by
  unfold State.finishFlip
  split
  · exact hs
  · exact .updCxl hs

theorem State.Inv.hostAccess {pages : List Nat} (hs : s.Inv) : (s.hostAccess pages).Inv := by
  unfold State.hostAccess
  refine .updCxl (.bumpBy' ?_)
  split
  · exact .ite (.finishFlip hs) hs
  · exact hs

theorem execHdmRead_keeps {off len : Nat} (hs : s.Inv) : Res.Keeps (execHdmRead off len s) :=
  ⟨_, rfl, .ite hs (.ite (.emit (.bump' hs)) (.ite hs (.emit (.when (.hostAccess hs) .bump'))))⟩

theorem State.Inv.unmask {vec : Nat} (hs : s.Inv) : (s.unmask vec).Inv := .ite hs (.when (.updCxl hs) .emit)

theorem execHostReject_keeps {what : RejectOf} (hs : s.Inv) : Res.Keeps (execHostReject what s) := by
  refine ⟨_, rfl, .ite hs ?_⟩
  split
  · exact .ite (.tenantFault' (.bump' hs)) hs
  · exact .ite (.tenantFault' (.bump' hs)) hs
  · split
    · exact .abortCmd (.bump' hs)
    · exact hs

theorem State.Inv.spdm {code : Nat} {b : List Byte} (hs : s.Inv) : (s.spdm code b).Inv := .emit hs

theorem State.Inv.spdmError (hs : s.Inv) : s.spdmError.Inv := .spdm hs

theorem spdmAt_keeps {n : Nat} {f : State → State} (hs : s.Inv) (hf : ∀ s : State, s.Inv → (f s).Inv) : Res.Keeps (s.spdmAt n f) :=
  ⟨_, rfl, .ite hs (.ite (.spdmError hs) (hf s hs))⟩


/-! ### Queues -/

theorem State.Inv.doorbell {t q width v : Nat} {entries : QPair → Nat} {f : QPair → QPair} (hs : s.Inv) : (s.doorbell t q width v entries
  f).Inv :=
  .ite hs (.ite (.updQueue' hs) (.bump' hs))

theorem State.Inv.takeEntry {t q : Nat} {p : QPair} {e : List Byte} (hs : s.Inv) : (s.takeEntry t q p e).Inv := by
  unfold State.takeEntry
  dsimp only
  split
  · exact .bump64' (.set (.updQueue' hs))
  · exact .fail' (.bump64' (.set (.updQueue' hs)))

theorem State.Inv.takeEntries {t q k : Nat} (hs : s.Inv) : (State.takeEntries t q k s).Inv := by
  induction k generalizing s with
  | zero => exact hs
  | succ k ih =>
    unfold State.takeEntries
    split
    · exact hs
    · refine .ite hs ?_
      extract_lets a
      split
      · exact .tenantFault' (.bump' hs)
      · exact .ite (.tenantFault' hs) (.ite hs (ih (.takeEntry hs)))

theorem execIntake_keeps (hs : s.Inv) : Res.Keeps (execIntake s) := by
  unfold execIntake
  dsimp only
  refine ⟨_, rfl, .ite hs ?_⟩
  split
  · exact hs
  · split
    · exact .updTenant' hs
    · exact .ite (.bump' (.updTenant' hs)) (.takeEntries (.updTenant' hs))

theorem State.Inv.createTenant {t pasid : Nat} {q : QPair} {l : Limits} (hs : s.Inv) : (s.createTenant t pasid q l).Inv := .updTenant' hs

theorem execCmdAdminCtrlWrite_keeps {v : Word} (hs : s.Inv) : Res.Keeps (execCmdAdminCtrlWrite v s) :=
  ⟨_, rfl, .ite hs (.ite (.ite hs (.when hs .startReset)) (.ite hs (.ite (.createTenant hs) hs)))⟩

theorem State.Inv.adminBase {off : Nat} {v : Word} (hs : s.Inv) : (s.adminBase off v).Inv := .ite hs hs

theorem execTenantCreate_keeps {cmd : Nat} (hs : s.Inv) : Res.Keeps (execTenantCreate cmd s) := by
  refine ⟨_, rfl, ?_⟩
  split
  · exact hs
  · exact .ite (.fail' hs) (.ite (.fail' hs) (.complete' (.createTenant hs)))

theorem execTenantReset_keeps {cmd : Nat} (hs : s.Inv) : Res.Keeps (execTenantReset cmd s) := by
  refine ⟨_, rfl, ?_⟩
  split
  · exact hs
  · exact .ite (.fail' hs) (.startReset (.updCmd hs))

theorem execQueueCreate_keeps {cmd : Nat} (hs : s.Inv) : Res.Keeps (execQueueCreate cmd s) := by
  refine ⟨_, rfl, ?_⟩
  split
  · exact hs
  · refine .ite (.fail' hs) (.ite ?_ (.ite (.fail' hs) (.complete' (.updTenant' hs))))
    split
    · exact .fail' hs
    · exact .ite (.fail' hs) (.settleDeletes' (.updQueue' (.updCmd hs)))

theorem State.Inv.identify {h : Nat} {c : Cmd} (hs : s.Inv) : (s.identify h c).Inv := by
  unfold State.identify
  split
  · exact .fail' hs
  · exact .complete' (.wr' hs)

theorem execIdentify_keeps {cmd : Nat} (hs : s.Inv) : Res.Keeps (execIdentify cmd s) := by
  refine ⟨_, rfl, ?_⟩
  split
  · exact hs
  · exact .ite hs (.identify hs)

theorem execCfgCommit_keeps {cmd : Nat} {res : WriteResult} (hs : s.Inv) : Res.Keeps (execCfgCommit cmd res s) := by
  refine ⟨_, rfl, ?_⟩
  split
  · exact hs
  · exact .ite (.fail' hs) (.ite (.fail' hs) (.ite (.fail' hs) (.ite (.fail' hs) (.complete' (.updPower hs)))))

theorem execFold_keeps {cmd : Nat} (hs : s.Inv) : Res.Keeps (execFold cmd s) := by
  refine ⟨_, rfl, ?_⟩
  split
  · exact hs
  · exact .ite (.fail' hs) (.darken (.leaveCell (.foldl' (fun _ _ h1 => .finishReset (.startReset h1)) (.complete' hs))))

theorem execSrchQueryLegacy_keeps {cmd : Nat} (hs : s.Inv) : Res.Keeps (execSrchQueryLegacy cmd s) := by
  refine ⟨_, rfl, ?_⟩
  split
  · exact .ite (.srchQuery hs) hs
  · exact hs

theorem execIdentifyLegacy_keeps {cmd : Nat} (hs : s.Inv) : Res.Keeps (execIdentifyLegacy cmd s) := by
  refine ⟨_, rfl, ?_⟩
  split
  · exact .identify hs
  · exact hs

theorem execSrchInsertLegacy_keeps {cmd : Nat} (hs : s.Inv) : Res.Keeps (execSrchInsertLegacy cmd s) := by
  refine ⟨_, rfl, ?_⟩
  split
  · exact .ite hs (.srchInsert hs)
  · exact hs

theorem execSrchDeleteLegacy_keeps {cmd : Nat} (hs : s.Inv) : Res.Keeps (execSrchDeleteLegacy cmd s) := by
  refine ⟨_, rfl, ?_⟩
  split
  · exact .ite hs (.srchDelete hs)
  · exact hs

theorem execMediaReadLegacy_keeps {cmd : Nat} (hs : s.Inv) : Res.Keeps (execMediaReadLegacy cmd s) := by
  refine ⟨_, rfl, ?_⟩
  split
  · exact .ite (.mediaRead hs) hs
  · exact hs

theorem execMediaWriteLegacy_keeps {cmd : Nat} {res : WriteResult} (hs : s.Inv) : Res.Keeps (execMediaWriteLegacy cmd res s) := by
  refine ⟨_, rfl, ?_⟩
  split
  · exact .ite hs (.mediaWrite hs)
  · exact hs

theorem execEmbLookupLegacy_keeps {cmd : Nat} (hs : s.Inv) : Res.Keeps (execEmbLookupLegacy cmd s) := by
  refine ⟨_, rfl, ?_⟩
  split
  · exact .ite (.embLookup hs) hs
  · exact hs


/-! ### Firmware -/

theorem State.Inv.writeSlot {slot : Nat} {b : List Byte} (hs : s.Inv) : (s.writeSlot slot b).Inv := .updFlash hs

theorem State.Inv.stage {h : Nat} {b : List Byte} {res : WriteResult} (hs : s.Inv) : (s.stage h b res).Inv := by
  unfold State.stage
  refine .ite (.fail' (.updSec (.countInvalid hs))) ?_
  split
  · exact .fail' (.updSec (.draw hs))
  · exact .complete' (.updSec (.writeSlot hs))

theorem execFwStage_keeps {cmd : Nat} {res : WriteResult} (hs : s.Inv) : Res.Keeps (execFwStage cmd res s) := by
  refine ⟨_, rfl, ?_⟩
  dsimp only
  split
  · exact hs
  · split
    · exact .fail' hs
    · exact .ite (.fail' hs) (.ite (.fail' hs) (.ite (.fail' hs) (.ite (.fail' hs) (.ite hs (.stage hs)))))

theorem State.Inv.activate {h : Nat} {loads : Bool} (hs : s.Inv) : (s.activate h loads).Inv := by
  unfold State.activate
  split
  · exact .fail' hs
  · exact .ite (.fail' (.updSec hs)) (.complete' (.announceFlt (.updFlt (.updSec hs))))

theorem execFwActivate_keeps {cmd : Nat} {loads : Bool} (hs : s.Inv) : Res.Keeps (execFwActivate cmd loads s) := by
  refine ⟨_, rfl, ?_⟩
  split
  · exact hs
  · exact .ite hs (.ite (.fail' hs) (.ite (.fail' hs) (.ite (.updCmd hs) (.activate hs))))

theorem execSecDebugSubmit_keeps {v : Word} (hs : s.Inv) : Res.Keeps (execSecDebugSubmit v s) :=
  ⟨_, rfl, .ite hs (.unless (.updSec hs) (fun h1 => .ite (.updSec (.draw h1)) (.updSec (.bump' (.draw h1)))))⟩

theorem State.Inv.eraseTenant {t : Nat} (hs : s.Inv) : (s.eraseTenant t).Inv := by
  have h {f : Tenant → Tenant} : ((s.updTenant t f).finishReset t).Inv := .finishReset (.updTenant' hs)
  exact .ite (.finishReset (.startReset hs)) ⟨h.1, sparsePut_wf _ _ _ _ (Nat.zero_le _) h.2⟩

theorem State.Inv.eraseAll (hs : s.Inv) : s.eraseAll.Inv := by
  unfold State.eraseAll
  extract_lets s1 s2 s3
  have h3 : s3.Inv := .updFlash (.mediaFree (.eraseTenant (.foldl' (fun _ _ h => .eraseTenant h) hs)))
  clear_value s3
  exact ⟨Memory.wf_filter _ _ h3.1, h3.2⟩

theorem execPldmFwUpdate_keeps {image : List Byte} (hs : s.Inv) : Res.Keeps (execPldmFwUpdate image s) := by
  refine ⟨_, rfl, ?_⟩
  split
  · exact .ite hs (.updPower (.updSec (.writeSlot hs)))
  · exact .foldWake hs
  · exact hs


/-! ### Power -/

theorem execPowerOn_keeps (hs : s.Inv) : Res.Keeps (execPowerOn s) := by
  refine ⟨_, rfl, ?_⟩
  split
  · exact .updMgmt (.hardReset hs)
  · exact .ite (.updPower hs) (.hardReset hs)
  · exact hs

theorem execUvWarn_keeps (hs : s.Inv) : Res.Keeps (execUvWarn s) := by
  refine ⟨_, rfl, ?_⟩
  dsimp only
  split
  · exact .updFlash (.updPower hs)
  · exact .updFlash (.updPower hs)
  · exact .updPower hs
  · exact hs

theorem State.Inv.brownOut {inFold : Bool} (hs : s.Inv) : (s.brownOut inFold).Inv := by
  unfold State.brownOut
  split
  · exact hs
  · exact hs
  · exact .updMgmt (.updPower (.darken hs))

theorem execThermalTrip_keeps (hs : s.Inv) : Res.Keeps (execThermalTrip s) := by
  refine ⟨_, rfl, ?_⟩
  split
  · exact .pldmEvent (.updMgmt (.updPower (.darken hs)))
  · exact .pldmEvent (.updMgmt (.updPower (.darken hs)))
  · exact .pldmEvent (.updMgmt (.updPower (.darken hs)))
  · exact hs

theorem execTripRelease_keeps (hs : s.Inv) : Res.Keeps (execTripRelease s) := by
  refine ⟨_, rfl, .ite hs ?_⟩
  split
  · exact .hardReset hs
  · exact .updPower hs

theorem execDomainSwitch_keeps (hs : s.Inv) : Res.Keeps (execDomainSwitch s) := by
  refine ⟨_, rfl, .ite hs ?_⟩
  split
  · exact hs
  · exact .updPower hs

theorem execPldmMonitorRead_keeps {sensor : Nat} (hs : s.Inv) : Res.Keeps (execPldmMonitorRead sensor s) := by
  refine ⟨_, rfl, .ite hs (.ite ?_ (.ite hs (.emit hs)))⟩
  split
  · exact .emit hs
  · exact .emit (.updMgmt hs)

theorem execAliveToggle_keeps (hs : s.Inv) : Res.Keeps (execAliveToggle s) := by
  refine ⟨_, rfl, ?_⟩
  split
  · exact .updMgmt hs
  · exact .updMgmt hs
  · exact .updMgmt hs
  · exact .updMgmt hs
  · exact hs

theorem State.Inv.tap {j : Jtag} (hs : s.Inv) : (s.tap j).Inv := .ite hs (.updMgmt hs)


/-! ### RegisterWrite -/

theorem execCounterLoRead_keeps {off : Nat} (hs : s.Inv) : Res.Keeps (execCounterLoRead off s) := by
  unfold execCounterLoRead
  dsimp only
  refine ⟨_, rfl, .ite hs ?_⟩
  split
  · exact .when (.emit hs) .set
  · exact .emit hs

theorem State.Inv.writeSrchCtrl {w : Nat} (hs : s.Inv) : (s.writeSrchCtrl w).Inv := .ite hs (.ite (.updSearch hs) (.updSearch hs))

theorem State.Inv.writeFlsCtrl {w : Nat} (hs : s.Inv) : (s.writeFlsCtrl w).Inv := .ite (.updFlash hs) (.updFlash hs)

theorem State.Inv.writeFlsPatrol {w : Nat} (hs : s.Inv) : (s.writeFlsPatrol w).Inv := .ite (.updFlash hs) (.updFlash hs)

theorem State.Inv.writeMsix {o : Nat} {v : Word} (hs : s.Inv) : (s.writeMsix o v).Inv := .ite (.ite (.updCxl hs) (.unmask hs)) (.updCxl hs)

theorem State.Inv.writeReg {off : Nat} {v : Word} (hs : s.Inv) : (s.writeReg off v).Inv := by
  unfold State.writeReg
  dsimp only
  split
  · exact .ite (.after (⟨_, rfl, .ite hs (.ite (.updPower hs) (.updPower hs))⟩)) hs
  · exact .ite (.after (execCmdAdminCtrlWrite_keeps hs)) (.adminBase hs)
  · exact .ite (.after (⟨_, rfl, .ite hs (.ite hs hs)⟩)) (.ite (.after (⟨_, rfl, .ite hs (.updTenant' hs)⟩)) hs)
  · exact .ite (.after (⟨_, rfl, .ite hs hs⟩)) hs
  · exact .ite (.after (⟨_, rfl, .ite hs (.ite hs hs)⟩)) (.ite (.ite hs hs) (.ite (.after (⟨_, rfl, .ite hs hs⟩)) hs))
  · exact .ite (.writeSrchCtrl hs) hs
  · exact .ite (.after (⟨_, rfl, .ite hs (.updServing hs)⟩)) (.ite (.after (⟨_, rfl, .ite hs (.updServing hs)⟩)) (.ite (.after (⟨_, rfl,
      .ite hs (.updTenant' hs)⟩)) hs))
  · exact .ite (.after (⟨_, rfl, .ite hs (.updEmbed hs)⟩)) hs
  · exact .ite (.writeFlsCtrl hs) (.ite (.writeFlsPatrol hs) hs)
  · exact .ite (.updFlt hs) (.ite (.after (⟨_, rfl, .ite hs (.when (.updFlt hs) (fun h1 => .announceFlt (.inject h1)))⟩)) (.ite (.ite
      (.updFlt hs) hs) hs))
  · exact .ite (.after (execLnkCellWrite_keeps hs)) (.ite (.after (⟨_, rfl, .ite hs (.unless (.updCell hs) (fun h2 => .ite (.updCell h2)
      (.emit h2)))⟩)) hs)
  · exact .ite (.after (⟨_, rfl, .ite hs (.ite (.updCxl hs) (.updCxl hs))⟩)) (.ite (.after (⟨_, rfl, .ite hs (.ite (.updCxl hs) (.updCxl
      hs))⟩)) (.ite (.ite (.updCxl hs) hs) (.ite (.writeMsix hs) hs)))
  · exact .ite (.after (execSecDebugSubmit_keeps hs)) (.ite (.after (⟨_, rfl, .ite hs (.updSec hs)⟩)) (.ite (.updSec hs) (.ite (.updSec hs)
      hs)))
  · exact hs


/-! ### Vector -/

theorem Th.setLanes_inv {t : Th} {ty : LaneTy} {d : BitVec 5} {f : Nat → Nat} (hs : s.Inv) : (t.setLanes s ty d f).Inv := Th.done_inv hs

theorem execVtos_keeps {i : Iss} {ty : LaneTy} {d a b : BitVec 5} (hs : s.Inv) : Res.Keeps (execVtos i ty d a b s) :=
  ⟨_, rfl, .vector hs (fun _ _ h1 => .ite (Th.skip_inv h1) (.ite (Th.done_inv h1) (Th.done_inv (.draw h1))))⟩

theorem execVpack_keeps {i : Iss} {d a b : BitVec 5} (hs : s.Inv) : Res.Keeps (execVpack i d a b s) := by
  refine ⟨_, rfl, .vector hs (fun _ _ h1 => ?_)⟩
  split
  · exact Th.fault_inv' h1
  · exact Th.setLanes_inv h1

theorem execVmxscale_keeps {i : Iss} {d a b : BitVec 5} (hs : s.Inv) : Res.Keeps (execVmxscale i d a b s) := by
  refine ⟨_, rfl, .vector hs (fun _ _ h1 => ?_)⟩
  split
  · exact Th.fault_inv' h1
  · exact Th.done_inv h1


/-! ### Step -/

end Step

/-! ### Every command -/

/-- Every command ends in a next state, which is in canonical form. -/
theorem exec_keeps {s : State} (hs : s.Inv) : ∀ c, Res.Keeps (exec c s)
  | .addSubAndOrXor .. => ⟨_, rfl, .scalar hs (fun _ _ h1 => Th.done_inv h1)⟩
  | .shlShrSra .. => ⟨_, rfl, .scalar hs (fun _ _ h1 => Th.done_inv h1)⟩
  | .mulMulhu .. => ⟨_, rfl, .scalar hs (fun _ _ h1 => Th.done_inv h1)⟩
  | .divuRemu .. => ⟨_, rfl, .scalar hs (fun _ _ h1 => Th.done_inv h1)⟩
  | .minMaxMinuMaxu .. => ⟨_, rfl, .scalar hs (fun _ _ h1 => Th.done_inv h1)⟩
  | .addiAndiOriXori .. => ⟨_, rfl, .scalar hs (fun _ _ h1 => Th.done_inv h1)⟩
  | .shliShriSrai .. => ⟨_, rfl, .scalar hs (fun _ _ h1 => Th.done_inv h1)⟩
  | .cmp .. => ⟨_, rfl, .scalar hs (fun _ _ h1 => Th.done_inv h1)⟩
  | .br .. => ⟨_, rfl, .scalar hs (fun _ _ h1 => Th.jump_inv h1)⟩
  | .jr .. => ⟨_, rfl, .scalar hs (fun _ _ h1 => Th.jump_inv h1)⟩
  | .jal .. => ⟨_, rfl, .scalar hs (fun _ _ h1 => Th.jump_inv h1)⟩
  | .pandPorPxor .. => ⟨_, rfl, .scalar hs (fun _ _ h1 => Th.done_inv h1)⟩
  | .pnot .. => ⟨_, rfl, .scalar hs (fun _ _ h1 => Th.done_inv h1)⟩
  | .pfromsPtos .. => ⟨_, rfl, .scalar hs (fun _ _ h1 => .ite (Th.done_inv h1) (Th.done_inv h1))⟩
  | .ldsSts .. => execLdsSts_keeps hs
  | .ldSt .. => execLdSt_keeps hs
  | .vldsVsts .. => execVldsVsts_keeps hs
  | .vldVst .. => execVldVst_keeps hs
  | .amo .. => execAmo_keeps hs
  | .fenceAcq .. => ⟨_, rfl, .scalar hs (fun _ _ h1 => Th.skip_inv h1)⟩
  | .fenceRel .. => ⟨_, rfl, .scalar hs (fun _ _ h1 => Th.skip_inv h1)⟩
  | .fenceSys .. => ⟨_, rfl, .scalar hs (fun _ _ h1 => Th.skip_inv h1)⟩
  | .hbarSync .. => ⟨_, rfl, .scalar hs (fun _ _ h1 => .ite (Th.fault_inv' h1) (.barrierWait (.arrive h1)))⟩
  | .hbarArrive .. => ⟨_, rfl, .scalar hs (fun _ _ h1 => .ite (Th.fault_inv' h1) (Th.done_inv (.arrive h1)))⟩
  | .hbarWait .. => ⟨_, rfl, .scalar hs (fun _ _ h1 => .barrierWait h1)⟩
  | .hbarInit .. => execHbarInit_keeps hs
  | .dma .. => execDma_keeps hs
  | .dmaComplete .. => execDmaComplete_keeps hs
  | .dwait .. => ⟨_, rfl, .scalar hs (fun _ _ h1 => Th.doneWait_inv h1)⟩
  | .dtest .. => ⟨_, rfl, .scalar hs (fun _ _ h1 => Th.done_inv h1)⟩
  | .uissue .. => execUissue_keeps hs
  | .uwait .. => ⟨_, rfl, .scalar hs (fun _ _ h1 => Th.doneWait_inv h1)⟩
  | .utest .. => ⟨_, rfl, .scalar hs (fun _ _ h1 => Th.done_inv h1)⟩
  | .mstream .. => ⟨_, rfl, .scalar hs (fun _ _ h1 => Th.done_inv h1)⟩
  | .mrun .. => execMrun_keeps hs
  | .matrixRunDone .. => execMatrixRunDone_keeps hs
  | .mwaitRun .. => ⟨_, rfl, .scalar hs (fun _ _ h1 => Th.doneWait_inv h1)⟩
  | .mwaitAll .. => ⟨_, rfl, .scalar hs (fun _ _ h1 => Th.doneWait_inv h1)⟩
  | .mdrain .. => execMdrain_keeps hs
  | .tileRerun .. => execTileRerun_keeps hs
  | .tileRepairOther .. => execTileRepairOther_keeps hs
  | .relayout .. => execRelayout_keeps hs
  | .csrr .. => ⟨_, rfl, .scalar hs (fun _ _ h1 => Th.done_inv (.ite (.draw h1) h1))⟩
  | .tspawn .. => execTspawn_keeps hs
  | .nop .. => ⟨_, rfl, .scalar hs (fun _ _ h1 => Th.skip_inv h1)⟩
  | .halt .. => ⟨_, rfl, .scalar hs (fun _ _ h1 => Th.doneWait_inv h1)⟩
  | .liLih .. => ⟨_, rfl, .scalar hs (fun _ _ h1 => Th.done_inv h1)⟩
  | .addl .. => ⟨_, rfl, .scalar hs (fun _ _ h1 => Th.done_inv h1)⟩
  | .brl .. => ⟨_, rfl, .scalar hs (fun _ _ h1 => Th.jump_inv h1)⟩
  | .vaddVsubVmul .. => ⟨_, rfl, .vector hs (fun _ _ h1 => Th.setLanes_inv h1)⟩
  | .vfma .. => ⟨_, rfl, .vector hs (fun _ _ h1 => Th.setLanes_inv h1)⟩
  | .vdivVsqrt .. => ⟨_, rfl, .vector hs (fun _ _ h1 => Th.setLanes_inv h1)⟩
  | .vminVmax .. => ⟨_, rfl, .vector hs (fun _ _ h1 => Th.setLanes_inv (.draw h1))⟩
  | .vexp2 .. => ⟨_, rfl, .vector hs (fun _ _ h1 => Th.setLanes_inv (.draw h1))⟩
  | .vandVorVxor .. => ⟨_, rfl, .vector hs (fun _ _ h1 => Th.setLanes_inv h1)⟩
  | .vshlVsra .. => ⟨_, rfl, .vector hs (fun _ _ h1 => Th.setLanes_inv h1)⟩
  | .vcmpeqVcmpltVcmple .. => ⟨_, rfl, .vector hs (fun _ _ h1 => Th.done_inv h1)⟩
  | .vsel .. => ⟨_, rfl, .vector hs (fun _ _ h1 => Th.done_inv h1)⟩
  | .vredsumVredmaxVredmin .. => ⟨_, rfl, .vector hs (fun _ _ h1 => Th.done_inv (.draw h1))⟩
  | .vargmax .. => ⟨_, rfl, .vector hs (fun _ _ h1 => Th.done_inv h1)⟩
  | .vbcast .. => ⟨_, rfl, .vector hs (fun _ _ h1 => Th.setLanes_inv h1)⟩
  | .vtos .. => execVtos_keeps hs
  | .vcvt .. => ⟨_, rfl, .vector hs (fun _ _ h1 => Th.setLanes_inv h1)⟩
  | .vwiden .. => ⟨_, rfl, .vector hs (fun _ _ h1 => Th.setLanes_inv h1)⟩
  | .vnarrow .. => ⟨_, rfl, .vector hs (fun _ _ h1 => Th.setLanes_inv h1)⟩
  | .vpack .. => execVpack_keeps hs
  | .vmxscale .. => execVmxscale_keeps hs
  | .tvaLoadData .. => execTvaLoadData_keeps hs
  | .parityRefetchDone .. => execParityRefetchDone_keeps hs
  | .seatClearDone .. => execSeatClearDone_keeps hs
  | .steadyLoadWindow .. => ⟨_, rfl, .ite hs (.bump64' (.updSeat (.draw hs)))⟩
  | .trickBoundary .. => execTrickBoundary_keeps hs
  | .seatSaveDone .. => ⟨_, rfl, .ite hs (.settleResize (.yieldSeat hs))⟩
  | .seatModeWrite .. => ⟨_, rfl, .ite hs hs⟩
  | .audCtrlWrite .. => ⟨_, rfl, .ite hs (.ite hs hs)⟩
  | .audInjectWrite .. => ⟨_, rfl, .ite hs hs⟩
  | .counterLoRead .. => execCounterLoRead_keeps hs
  | .registerWrite .. => ⟨_, rfl, .ite hs (.ite (.writeReg hs) (.ite (.writeReg (.writeReg hs)) hs))⟩
  | .pipeQuery .. => execPipeQuery_keeps hs
  | .queryTokenize .. => execQueryTokenize_keeps hs
  | .embed .. => execEmbed_keeps hs
  | .coarseSearch .. => execCoarseSearch_keeps hs
  | .probeSetArrive .. => execProbeSetArrive_keeps hs
  | .batchClose .. => execBatchClose_keeps hs
  | .batchStartScoring .. => execBatchStartScoring_keeps hs
  | .probePass .. => execProbePass_keeps hs
  | .farSegmentScore .. => execFarSegmentScore_keeps hs
  | .farLimitExpire .. => execFarLimitExpire_keeps hs
  | .searchMerge .. => execSearchMerge_keeps hs
  | .refine .. => execRefine_keeps hs
  | .rebalance .. => execRebalance_keeps hs
  | .visitsHalve .. => ⟨_, rfl, .ite hs hs⟩
  | .exactBatchStart .. => execExactBatchStart_keeps hs
  | .srchQuery .. => execSrchQuery_keeps hs
  | .srchInsert .. => execSrchInsert_keeps hs
  | .markWaitRelease .. => execMarkWaitRelease_keeps hs
  | .epochPublish .. => execEpochPublish_keeps hs
  | .srchDelete .. => execSrchDelete_keeps hs
  | .srchCompact .. => execSrchCompact_keeps hs
  | .compactionDone .. => execCompactionDone_keeps hs
  | .searchProbe .. => execSearchProbe_keeps hs
  | .meldTopk .. => execMeldTopk_keeps hs
  | .meldMerge .. => execMeldMerge_keeps hs
  | .meldTopp .. => execMeldTopp_keeps hs
  | .meldPiece .. => execMeldPiece_keeps hs
  | .meldMergeGroup .. => execMeldMergeGroup_keeps hs
  | .passageFetch .. => execPassageFetch_keeps hs
  | .rerank .. => execRerank_keeps hs
  | .pack .. => execPack_keeps hs
  | .pipeReturn .. => execPipeReturn_keeps hs
  | .tokenize .. => execTokenize_keeps hs
  | .detokenize .. => execDetokenize_keeps hs
  | .deckCacheFill .. => execDeckCacheFill_keeps hs
  | .grammarMask .. => execGrammarMask_keeps hs
  | .grammarAdvance .. => execGrammarAdvance_keeps hs
  | .grammarFork .. => execGrammarFork_keeps hs
  | .genStart .. => execGenStart_keeps hs
  | .prefillChunk .. => execPrefillChunk_keeps hs
  | .draftTree .. => execDraftTree_keeps hs
  | .acceptStep .. => execAcceptStep_keeps hs
  | .ringStall .. => execRingStall_keeps hs
  | .kvRebuild .. => execKvRebuild_keeps hs
  | .genCancel .. => execGenCancel_keeps hs
  | .budgetDeposit .. => execBudgetDeposit_keeps hs
  | .srvCtrlWrite .. => ⟨_, rfl, .ite hs (.updServing hs)⟩
  | .srvSpecWrite .. => ⟨_, rfl, .ite hs (.updServing hs)⟩
  | .srvTWeightWrite .. => ⟨_, rfl, .ite hs (.updTenant' hs)⟩
  | .embLookup .. => execEmbLookup_keeps hs
  | .gatherLookup .. => execGatherLookup_keeps hs
  | .embUpdate .. => execEmbUpdate_keeps hs
  | .gatherUpdate .. => execGatherUpdate_keeps hs
  | .lookupReq .. => ⟨_, rfl, .recvLookupReq hs⟩
  | .lookupRsp .. => ⟨_, rfl, .recvLookupRsp hs⟩
  | .update .. => ⟨_, rfl, .recvUpdate hs⟩
  | .updateAck .. => ⟨_, rfl, .recvUpdateAck hs⟩
  | .load .. => ⟨_, rfl, .recvUpdate hs⟩
  | .embCheckpoint .. => execEmbCheckpoint_keeps hs
  | .embCheckpointDone .. => execEmbCheckpointDone_keeps hs
  | .sketchHalve .. => ⟨_, rfl, .updEmbed hs⟩
  | .embCtrlWrite .. => ⟨_, rfl, .ite hs (.updEmbed hs)⟩
  | .demandFetch .. => ⟨_, rfl, .ite hs (.unless (.demandReplaced hs) .queueFetch)⟩
  | .fetchComplete .. => execFetchComplete_keeps hs
  | .tierFetch .. => execTierFetch_keeps hs
  | .tierWriteback .. => execTierWriteback_keeps hs
  | .t1LineRepairDone .. => execT1LineRepairDone_keeps hs
  | .quotaSet .. => execQuotaSet_keeps hs
  | .mediaWrite .. => execMediaWrite_keeps hs
  | .mediaRead .. => execMediaRead_keeps hs
  | .mediaTrim .. => execMediaTrim_keeps hs
  | .mediaUnseal .. => execMediaUnseal_keeps hs
  | .journalProgram .. => execJournalProgram_keeps hs
  | .mapCheckpoint .. => ⟨_, rfl, .ite hs (.checkpoint hs)⟩
  | .nandReadDone .. => execNandReadDone_keeps hs
  | .nandProgramDone .. => execNandProgramDone_keeps hs
  | .dieFail .. => ⟨_, rfl, .ite hs (.announceFls (.failDie hs))⟩
  | .dieRebuildDone .. => execDieRebuildDone_keeps hs
  | .patrolStep .. => ⟨_, rfl, .ite hs hs⟩
  | .holdupFlush .. => ⟨_, rfl, .ite (.holdup hs) hs⟩
  | .dealHand .. => execDealHand_keeps hs
  | .resizeHand .. => execResizeHand_keeps hs
  | .freeHand .. => execFreeHand_keeps hs
  | .modelLoad .. => execModelLoad_keeps hs
  | .modelEvict .. => execModelEvict_keeps hs
  | .evictionComplete .. => execEvictionComplete_keeps hs
  | .kernelRun .. => execKernelRun_keeps hs
  | .dlrCtrlWrite .. => ⟨_, rfl, .ite hs (.ite hs hs)⟩
  | .dlrTLimitWrite .. => ⟨_, rfl, .ite hs (.updTenant' hs)⟩
  | .coreWatchdog .. => ⟨_, rfl, .ite hs (.announceFlt (.coreFault hs))⟩
  | .clusterWatchdog .. => ⟨_, rfl, .ite hs (.announceFlt (.clusterHang hs))⟩
  | .fence .. => ⟨_, rfl, .ite hs (.ite (.reclaim (.fenceTo hs)) (.ite (.fltBump' hs) hs))⟩
  | .unitWatchdog .. => ⟨_, rfl, .ite (.announceFlt (.unitHang hs)) hs⟩
  | .channelLoss .. => ⟨_, rfl, .ite (.announceFlt (.loseChannel hs)) hs⟩
  | .channelRehomeDone .. => ⟨_, rfl, .wakeHoming (.updTier hs)⟩
  | .dieLoss .. => ⟨_, rfl, .ite hs (.announceFlt (.loseDie hs))⟩
  | .sDieLoss .. => ⟨_, rfl, .ite hs (.announceFlt (.loseSDie hs))⟩
  | .phaseLoss .. => ⟨_, rfl, .ite hs (.when (.updFlt (.pldmEvent (.stick (.fltBump' hs)))) .lowerCap)⟩
  | .converterLoss .. => ⟨_, rfl, .ite hs (.when (.updFlt (.stick (.fltBump' hs))) .lowerCap)⟩
  | .fltInjectWrite .. => ⟨_, rfl, .ite hs (.when (.updFlt hs) (fun h1 => .announceFlt (.inject h1)))⟩
  | .linkTrained .. => ⟨_, rfl, .ite hs (.announceLnk (.trainLink hs))⟩
  | .heartbeatSend .. => ⟨_, rfl, .ite (.foldl' (fun _ _ h1 => .beat h1) hs) hs⟩
  | .heartbeat .. => ⟨_, rfl, .frameOf hs⟩
  | .data .. => ⟨_, rfl, .frameOf hs⟩
  | .ctrl .. => ⟨_, rfl, .frameOf hs⟩
  | .nak .. => ⟨_, rfl, .frameOf hs⟩
  | .heartbeatTimeout .. => ⟨_, rfl, .ite hs (.announceLnk (.linkDown (.bumpBy' hs)))⟩
  | .laneFail .. => execLaneFail_keeps hs
  | .spareTrained .. => ⟨_, rfl, .ite hs (.updCell (.bump' (.updLink hs)))⟩
  | .linkRetrainRetry .. => ⟨_, rfl, .ite hs (.when (.bump' hs) .updLink)⟩
  | .peerLost .. => ⟨_, rfl, .ite hs (.announceLnk (.when (.updCell hs) .declareLost))⟩
  | .membership .. => ⟨_, rfl, .ite (.announceLnk (.recvMembership hs)) hs⟩
  | .knock .. => ⟨_, rfl, .ite (.foldWake hs) hs⟩
  | .lnkCellWrite .. => execLnkCellWrite_keeps hs
  | .lnkKnockWrite .. => ⟨_, rfl, .ite hs (.unless (.updCell hs) (fun h1 => .ite (.updCell h1) (.emit h1)))⟩
  | .configRequest .. => ⟨_, rfl, .ite hs (.emit hs)⟩
  | .perstAssert .. => ⟨_, rfl, .ite hs (.ite (.foldWake (.updCxl hs)) (.moduleReset (.updCxl hs)))⟩
  | .perstDeassert .. => ⟨_, rfl, .ite hs (.ite (.foldWake (.updCxl hs)) (.when (.updCxl hs) .moduleReset))⟩
  | .cxlHotReset .. => ⟨_, rfl, .ite (.portDown (.hostReset hs)) hs⟩
  | .linkDown .. => ⟨_, rfl, .ite (.linkLost hs) hs⟩
  | .flr .. => ⟨_, rfl, .ite (.hostReset hs) hs⟩
  | .hdmRead .. => execHdmRead_keeps hs
  | .hdmWrite .. => ⟨_, rfl, .ite hs (.ite (.emit (.bump' hs)) (.ite hs (.wr' (.hostAccess hs))))⟩
  | .snoop .. => ⟨_, rfl, .ite (.emit hs) hs⟩
  | .hifHdmWrite .. => ⟨_, rfl, .ite hs (.ite (.updCxl hs) (.updCxl hs))⟩
  | .hifBiasFlipWrite .. => ⟨_, rfl, .ite hs (.ite (.updCxl hs) (.updCxl hs))⟩
  | .biasFlipDone .. => ⟨_, rfl, .finishFlip hs⟩
  | .msixVectorUnmask .. => ⟨_, rfl, .ite (.unmask hs) hs⟩
  | .doeDiscovery .. => ⟨_, rfl, .ite (.emit hs) hs⟩
  | .cdatRead .. => ⟨_, rfl, .ite (.emit hs) hs⟩
  | .getVersion .. => spdmAt_keeps hs (fun _ h => .spdm (.updSec h))
  | .getCapabilities .. => spdmAt_keeps hs (fun _ h => .spdm (.updSec h))
  | .negotiateAlgorithms .. => spdmAt_keeps hs (fun _ h => .spdm (.updSec h))
  | .getDigests .. => spdmAt_keeps hs (fun _ h => .spdm h)
  | .getCertificate .. => spdmAt_keeps hs (fun _ h => .ite (.spdm h) (.spdmError h))
  | .setCertificate .. => spdmAt_keeps hs (fun _ h => .spdmError h)
  | .challenge .. => spdmAt_keeps hs (fun _ h => .spdm h)
  | .getMeasurements .. => spdmAt_keeps hs (fun _ h => .ite (.spdmError h) (.spdm h))
  | .keyExchange .. => spdmAt_keeps hs (fun _ h => .spdm (.updSec h))
  | .finish .. => spdmAt_keeps hs (fun _ h => .ite (.spdmError h) (.ite (.spdm (.updSec h)) (.spdmError (.updSec h))))
  | .endSession .. => spdmAt_keeps hs (fun _ h => .ite (.spdmError h) (.spdm (.updSec h)))
  | .ideKm .. => spdmAt_keeps hs (fun _ h => .ite (.spdmError h) (.spdm (.updCxl h)))
  | .ideFail .. => ⟨_, rfl, .ite (.linkLost (.bump' hs)) hs⟩
  | .sqTail .. => ⟨_, rfl, .doorbell hs⟩
  | .cqHead .. => ⟨_, rfl, .doorbell hs⟩
  | .tenantCtrl .. => ⟨_, rfl, .ite hs (.ite (.bump' hs) (.startReset hs))⟩
  | .intake .. => execIntake_keeps hs
  | .cmdAdminCtrlWrite .. => execCmdAdminCtrlWrite_keeps hs
  | .fold .. => execFold_keeps hs
  | .identify .. => execIdentify_keeps hs
  | .cfgCommit .. => execCfgCommit_keeps hs
  | .tenantCreate .. => execTenantCreate_keeps hs
  | .tenantReset .. => execTenantReset_keeps hs
  | .queueCreate .. => execQueueCreate_keeps hs
  | .srchQueryLegacy .. => execSrchQueryLegacy_keeps hs
  | .identifyLegacy .. => execIdentifyLegacy_keeps hs
  | .srchInsertLegacy .. => execSrchInsertLegacy_keeps hs
  | .srchDeleteLegacy .. => execSrchDeleteLegacy_keeps hs
  | .mediaReadLegacy .. => execMediaReadLegacy_keeps hs
  | .mediaWriteLegacy .. => execMediaWriteLegacy_keeps hs
  | .embLookupLegacy .. => execEmbLookupLegacy_keeps hs
  | .dumpRead .. => execDumpRead_keeps hs
  | .fwStage .. => execFwStage_keeps hs
  | .fwActivate .. => execFwActivate_keeps hs
  | .probationPass .. => ⟨_, rfl, .ite hs (.updSec hs)⟩
  | .powerOn .. => execPowerOn_keeps hs
  | .uvWarn .. => execUvWarn_keeps hs
  | .uvRelease .. => ⟨_, rfl, .ite hs (.when (.bump' (.updPower hs)) .updFlash)⟩
  | .issueLevelStep .. => ⟨_, rfl, .updPower hs⟩
  | .brownOut .. => ⟨_, rfl, .brownOut hs⟩
  | .alwaysOnLoss .. => ⟨_, rfl, .updPower (.brownOut hs)⟩
  | .foldOvercurrent .. => ⟨_, rfl, .ite (.brownOut hs) hs⟩
  | .capWindow .. => ⟨_, rfl, .ite hs (.updPower (.ite (.bump' hs) hs))⟩
  | .pwrCapWrite .. => ⟨_, rfl, .ite hs (.ite (.updPower hs) (.updPower hs))⟩
  | .thermalWindow .. => ⟨_, rfl, .ite hs (.updPower hs)⟩
  | .thermalTrip .. => execThermalTrip_keeps hs
  | .tripRelease .. => execTripRelease_keeps hs
  | .bringUp .. => ⟨_, rfl, .bringUp hs⟩
  | .domainSwitch .. => execDomainSwitch_keeps hs
  | .sidebandReset .. => ⟨_, rfl, .moduleReset hs⟩
  | .receiverDetect .. => ⟨_, rfl, .foldWake hs⟩
  | .smbusWakeTransaction .. => ⟨_, rfl, .foldWake hs⟩
  | .pldmMonitorRead .. => execPldmMonitorRead_keeps hs
  | .pldmFwUpdate .. => execPldmFwUpdate_keeps hs
  | .sensorPoll .. => ⟨_, rfl, .ite hs (.foldl' (fun _ _ h1 => .pldmEvent h1) (.updMgmt hs))⟩
  | .aliveToggle .. => execAliveToggle_keeps hs
  | .secDebugSubmit .. => execSecDebugSubmit_keeps hs
  | .debugUnlock .. => ⟨_, rfl, .ite hs (.updSec (.eraseAll hs))⟩
  | .secOpkeyBurn .. => ⟨_, rfl, .ite hs (.updSec hs)⟩
  | .bypass .. => ⟨_, rfl, .tap hs⟩
  | .idcode .. => ⟨_, rfl, .ite hs (.emit (.tap hs))⟩
  | .samplePreload .. => ⟨_, rfl, .tap hs⟩
  | .extest .. => ⟨_, rfl, .tap hs⟩
  | .highz .. => ⟨_, rfl, .tap hs⟩
  | .romCheck .. => ⟨_, rfl, .ite hs (.fatal hs)⟩
  | .fatalError .. => ⟨_, rfl, .fatal hs⟩
  | .dumpInfo .. => ⟨_, rfl, .ite (.emit hs) hs⟩
  | .dumpChunk .. => ⟨_, rfl, .ite (.emit hs) hs⟩
  | .illegalEncoding .. => execIllegalEncoding_keeps hs
  | .cxlLinkTrained .. => ⟨_, rfl, .ite hs (.updMgmt (.updCxl hs))⟩
  | .hostReject .. => execHostReject_keeps hs
  | .leave .. => ⟨_, rfl, .ite hs (.announceLnk (.changeSet hs))⟩
  | .clusterReady .. => ⟨_, rfl, .ite hs (.announceFlt (.updFlt hs))⟩
  | .bridgeRetrain .. => ⟨_, rfl, hs⟩
  | .retrainFail .. => ⟨_, rfl, .ite (.updLink hs) hs⟩
  | .spareTrainFail .. => ⟨_, rfl, .ite hs (.updCell (.bump' (.updLink hs)))⟩

/-- Settles O4: a step is the command at the front, on the state with the rest of the queue, or an idle step; each operation of the model
keeps the canonical form. -/
theorem everyStepKeepsCanonicalForms : Obligations.EveryStepKeepsCanonicalForms := by
  intro s t hs hstep
  cases hp : s.pending with
  | nil =>
    obtain rfl := Host.Outcome.next.inj ((step_nil s hp).symm.trans hstep)
    exact .upset hs
  | cons c rest =>
    obtain ⟨u, hu, hinv⟩ := exec_keeps (s := { s with pending := rest }) hs c
    obtain rfl := Host.Outcome.next.inj (hu.symm.trans ((step_cons s c rest hp).symm.trans hstep))
    exact hinv

end Sys2Proof.Machine
end

section
/-!
PROOFS. PIPE_QUERY and the poison of its output range (01 R26, 12 R308, 17 R454). At intake the contents of the range become undefined: it
is written with free values, and a line written whole is no longer poisoned. So a PIPE_QUERY whose output range holds a poisoned line changes
the tier engine's poison, which `Obligations.PipelineStartsAndFinishes` says it leaves alone.
-/
namespace Sys2Proof.Machine

/-! ### A pipeline query whose output goes to a poisoned line of the HDM window -/

/-- PIPE_QUERY on collection 9 with k = 1: the question is one byte at 0x1000, the pack block is at 0x2000, the rest is 0. -/
def windowQuery : Cmd :=
  { handle := 7, tenant := 1, queue := 0, cid := 0, opcode := 0x0501, legacyOp := none, recovered := false, snapshot := 2, stage := 0
    params := leBytes 2 9 ++ leBytes 2 0 ++ leBytes 2 1 ++ leBytes 10 0 ++ leBytes 8 0x1000 ++ leBytes 8 0 ++ leBytes 8 0x2000
      ++ leBytes 16 0 ++ leBytes 4 1 ++ leBytes 52 0 }

/-- Its pack block (07 R189): one source, a budget of 4 tokens of deck 3, a template of one segment, the passages; the output is the first
144 bytes of the HDM window, which an address with bit 63 set names. -/
def windowPack : List Byte :=
  leBytes 4 6 ++ leBytes 2 1 ++ leBytes 2 1 ++ leBytes 4 4 ++ leBytes 4 3 ++ leBytes 2 0 ++ leBytes 2 1 ++ leBytes 2 1 ++ leBytes 2 0
    ++ leBytes 8 (2 ^ 63) ++ leBytes 4 144 ++ leBytes 4 0 ++ leBytes 24 0 ++ leBytes 16 1

/-- The collection it searches. -/
def windowColl : Collection :=
  { number := 9, tenant := 1, image := [], lists := [], items := [], published := 2, nextEpoch := 3, epochs := [], appends := [], compacting := []
    compactCmds := [], compactSkipped := false, evicting := none, va := 0, t1Bytes := 0
    desc :=
      { dim := 4, metric := 0, subbits := 8, codeBytes := 4, spill := false, vecT1 := true, projDim := 0, l1Count := 1, l2PerCell := 2
        nprobeMax := 2, nprobeDef := 1, l1Probe := 1, kRefine := 8, farLimit := 5, maxWait := 0, embedModel := 5, t1ListBytes := 65536 } }

/-- The deck of its pack block: a header that gives 256 tokens. -/
def windowDeck : Deck := { number := 3, tenant := 1, image := leBytes 8 0 ++ leBytes 4 256, fffd := [], va := 0, t1Bytes := 0, evicting := none }

/-- A running module with the query at its checks. Tenant 1 holds hand 0, and the host maps its PASID 5. The first line of the 16 GiB HDM window is
poisoned: its T1 tag failed, and the window has no other copy (17 R454). -/
def windowState : State :=
  { State.reset with
    power := { Power.initial .v9720 with phase := .running, ready := true, step := 7, domains := List.range 98 }
    cmds := [windowQuery], colls := [windowColl], decks := [windowDeck]
    tenants := State.reset.tenants.set 1 { Tenant.absent with live := true, pasid := 5 }
    hands := State.reset.hands.set 0 { Hand.none with valid := true, tenant := 1, seats := [0, 1] }
    hostMap := [{ pasid := 5, base := 0, len := 2 ^ 40 }]
    cxl := { State.reset.cxl with width := 16, configReady := true, memActive := true, activeGib := 16 }
    tier := { State.reset.tier with poison := [Space.hdm.key 0 / 128] }
    mem := ((State.reset.wr ((Space.host 5).key 0x1000) [65]).wr ((Space.host 5).key 0x2000) windowPack).mem }

/-- The memory and the counters are in canonical form, and every check of PIPE_QUERY's intake passes (01 R21, 07 R190, 18 R485). -/
theorem windowQuery_checks :
    windowState.Inv ∧ windowState.cmdAt 7 0x0501 0 = some windowQuery ∧ windowState.collFor 1 7 9 = some windowColl
      ∧ windowState.resolve 1 0x1000 1 1 = some ((Space.host 5).key 0x1000) ∧ windowState.filterFor 1 0 = .inl []
      ∧ windowState.packRead 1 0x2000 = .inl windowPack ∧ (windowState.handFor 1 7 0).isSome = true
      ∧ packOk windowPack (windowState.deckFor 1 7 (packDeck windowPack)) 1 = true
      ∧ windowState.resolve 1 (fieldOf windowPack 0x18 8) (64 + packMap windowPack + 4 * packBudget windowPack) 64 = some (Space.hdm.key 0)
      ∧ windowState.searchTrouble windowColl 1 0 0 false = none ∧ windowState.poisoned ((Space.host 5).key 0x1000) 1 = false
      ∧ windowState.noSeats = false := by decide +kernel

/-- The query is taken in; the poisoned line lies whole in its output range, whose contents become undefined, so it is healed
(`State.wr_poison_contains`). -/
theorem windowQuery_heals :
    let u := windowState.after (exec (.pipeQuery 7) windowState)
    u.pipes.length = 1 ∧ u.tier.poison = [] := by decide +kernel

/-- Refutes O29: a PIPE_QUERY whose checks pass, and whose output range holds a poisoned line of the HDM window, heals that line at intake, so
it changes the tier engine's state beside the pipes, the commands, the memory and the free values. -/
theorem not_pipelineStartsAndFinishes : ¬ Obligations.PipelineStartsAndFinishes := by
  intro h
  obtain ⟨-, hcmd, hcoll, hquestion, hfilter, hpackRead, hhand, hpackOk, hout, htrouble, hclean, hseats⟩ := windowQuery_checks
  obtain ⟨u, l, p, hexec, hframe, -⟩ := (h.1 windowState 7 windowColl).1 windowQuery ((Space.host 5).key 0x1000) (Space.hdm.key 0) []
    windowPack [] hcmd hcoll hquestion hfilter hpackRead (fun _ => by decide +kernel) (fun hgen => absurd hgen (by decide +kernel)) hhand hhand
    (by decide +kernel) (by decide +kernel) (by decide +kernel) hpackOk hout htrouble hclean hseats
  have hkept : u.tier = windowState.tier := by rw [hframe]
  have hhealed : u.tier.poison = [] := by
    have hafter := windowQuery_heals.2
    rwa [hexec] at hafter
  rw [hkept] at hhealed
  exact absurd hhealed (by decide +kernel)

end Sys2Proof.Machine
end

section
/-!
PROOFS. The issues of the grammar unit: masks, advances and forks of state records (09 R225 to R230, R234).
-/
namespace Sys2Proof.Machine

/-! ### Checks that find nothing -/

/-- Checks that all found nothing find nothing together. -/
theorem worstCheck_eq_ok {l : List UCheck} (h : ∀ c ∈ l, c = .ok) : worstCheck l = .ok := by
  have hfree : ∀ c : UCheck, c ≠ .ok → c ∉ l := fun c hc hin => hc (h c hin)
  have hfind : l.find? UCheck.isFailed = none :=
    List.find?_eq_none.mpr (fun c hc => by simp [h c hc, UCheck.isFailed])
  simp [worstCheck, hfind, hfree]

@[simp] theorem worstCheck_ok_ok : worstCheck [.ok, .ok] = .ok := rfl

@[simp] theorem State.onCheck_ok (s : State) (k : IssueKey) (f : State → State) : s.onCheck k .ok f = f s := rfl

section Grammar
variable {s : State} {k : IssueKey} {u : UnitIssue} {a : Automaton} {d : Deck}

/-! ### An issue that a walker has taken -/

/-- An issue that waits at its unit and that a lane has taken is the lane's, while its tenant runs (08 R213, R216). -/
theorem State.AtUnit.laneIssue {unit op : Nat} (h : s.AtUnit k unit op u) (hlane : s.inLane u = true)
    (hrun : (s.tenant u.tenant).reset = none) : s.laneIssue k unit op = some u := by
  obtain ⟨hissue, hunit, hop, hbegun⟩ := h
  simp [State.laneIssue, State.issueAt, hissue, hunit, hop, hbegun, hlane, hrun]

/-- The state record that a grammar issue names, as it lies in memory (09 R224). -/
abbrev State.recordOf (s : State) (u : UnitIssue) : List Byte := s.rdTva u.tenant u.stock (fieldOf u.body 8 8) 576

/-- What every grammar issue needs to be carried out: its automaton and deck, the reserved parts 0, a record that may be read and
written, and that is sound (09 R234). -/
structure State.GrammarReady (s : State) (u : UnitIssue) (a : Automaton) (d : Deck) : Prop where
  automaton : s.autAt u (fieldOf u.body 0 8) = some a
  deck : s.decks.find? (fun d => d.number == autDeck a.image && d.tenant == a.tenant) = some d
  tail : bodyTailZero u 0x28 = true
  pad : fieldOf u.body 0x1C 4 = 0
  load : s.unitCheck u .load (fieldOf u.body 8 8) 576 64 = .ok
  store : s.unitCheck u .store (fieldOf u.body 8 8) 576 64 = .ok
  sound : recOk a (s.recordOf u) = true

/-- A grammar issue with its fields and ranges in order goes on with its record. -/
theorem State.GrammarReady.runs (h : s.GrammarReady u a d) {fieldsOk : Deck → Bool} {ranges : List UCheck}
    {f : State → Automaton → Deck → List Byte → State} (hfields : fieldsOk d = true) (hranges : ∀ c ∈ ranges, c = .ok) :
    s.grammarIssue k u fieldsOk ranges f = f s a d (s.recordOf u) := by
  have hworst : worstCheck (.ok :: ranges) = .ok := worstCheck_eq_ok (by simpa using hranges)
  simp [State.grammarIssue, h.automaton, h.deck, h.tail, h.pad, h.load, h.store, h.sound, hfields, hworst]

/-- A grammar issue with a field out of range is BAD_PARAM (09 R234). -/
theorem State.GrammarReady.badFields (h : s.GrammarReady u a d) {fieldsOk : Deck → Bool} {ranges : List UCheck}
    {f : State → Automaton → Deck → List Byte → State} (hfields : fieldsOk d = false) :
    s.grammarIssue k u fieldsOk ranges f = s.finishIssue k St.badParam 0 := by
  simp [State.grammarIssue, h.automaton, h.deck, hfields]

/-! ### The mask of a state (09 R225, R229, R230) -/

/-- A walk made afresh finds what the automaton allows. -/
theorem State.walkAfresh_tokens (s : State) (a : Automaton) (d : Deck) (g : GState) :
    (s.walkAfresh a d g).2 = (allowed a.image d.image g).tokens := by
  unfold State.walkAfresh
  dsimp only
  split <;> rfl

variable {g : GState} {e : MaskEntry}

/-- With no stored mask the unit walks. -/
theorem State.mask_of_none (h : s.storedMask a d g = none) : (s.mask a d g).2.1 = (allowed a.image d.image g).tokens := by
  simp [State.mask, h, State.walkAfresh_tokens]

/-- A stored mask whose parity fails is dropped, and the unit walks again (09 R230). -/
theorem State.mask_of_bad (h : s.storedMask a d g = some e) (hbad : e.parityBad = true) :
    (s.mask a d g).2.1 = (allowed a.image d.image g).tokens ∧ (s.mask a d g).2.2 = true := by
  simp [State.mask, h, hbad, State.walkAfresh_tokens]

/-- A stored mask whose parity is sound is the mask (09 R229). -/
theorem State.mask_of_sound (h : s.storedMask a d g = some e) (hsound : e.parityBad = false) :
    (s.mask a d g).2.1 = e.allowed ∧ (s.mask a d g).2.2 = false := by
  simp [State.mask, h, hsound]

/-! ### MASK -/

theorem exec_grammarMask (k : IssueKey) (s : State) : exec (.grammarMask k) s = execGrammarMask k s := rfl

/-- The state after MASK has computed the mask of a record: the record's header written back, then the mask, then the completion, DEAD_END
where no token is allowed (09 R225, R226, R231). -/
def State.maskDone (s : State) (k : IssueKey) (u : UnitIssue) (a : Automaton) (d : Deck) : State :=
  let r := s.recordOf u
  let m := s.mask a d (recState r)
  let w := if m.2.2 then m.1.recoveredIssue k else m.1
  ((w.wrTva u.tenant u.stock (fieldOf u.body 8 8) (recHeader a (recState r) (fieldOf r 0x10 8) (fieldOf r 0x18 8))).wrTva u.tenant
    u.stock (fieldOf u.body 0x10 8) (maskBytes (deckVocab d.image) m.2.1)).finishIssue k (if m.2.1 = [] then 0x09 else 0x00) 0

/-- The status of a MASK: DEAD_END where no token is allowed (09 R226). -/
theorem maskStatus (ts : List Nat) : (if ts.isEmpty then St.deadEnd else St.ok) = if ts = [] then 0x09 else 0x00 := by
  cases ts <;> rfl

/-- MASK of a record that has ended is BAD_PARAM, and of any other writes the mask when its lines are at hand. -/
theorem execGrammarMask_taken (h : s.GrammarReady u a d) (hu : s.laneIssue k 5 1 = some u) (h18 : fieldOf u.body 0x18 4 = 0)
    (h20 : fieldOf u.body 0x20 8 = 0) (htarget : s.unitCheck u .store (fieldOf u.body 0x10 8) 131072 1 = .ok) :
    ((recState (s.recordOf u)).ended = true → execGrammarMask k s = .next (s.finishIssue k St.badParam 0))
      ∧ ((recState (s.recordOf u)).ended = false → s.maskCheck (.issue k) a d (recState (s.recordOf u)) = .ok →
        execGrammarMask k s = .next (s.maskDone k u a d)) := by
  simp only [execGrammarMask, hu]
  rw [htarget, h.runs (by simp [h18, h20]) (by simp)]
  constructor
  · intro hended
    rw [if_pos hended]
  · intro hended hcheck
    rw [if_neg (by simp [hended]), if_neg (by simp), State.onCheck_ok, hcheck, State.onCheck_ok, State.maskDone, ← maskStatus]
    simp only [reduceCtorEq, if_false]

/-! ### ADVANCE -/

theorem exec_grammarAdvance (k : IssueKey) (s : State) : exec (.grammarAdvance k) s = execGrammarAdvance k s := rfl

/-- The state in which ADVANCE by a token has read its lines of the image and of the deck (09 R230). -/
def State.advanceRead (s : State) (k : IssueKey) (a : Automaton) (d : Deck) (g : GState) (t : Nat) : State :=
  let lines := advanceLines a.image d.image g t
  ((if s.imageParity a lines.1 then s.recoveredIssue k else s).readImage a lines.1).readDeck d lines.2

/-- ADVANCE by a token outside the vocabulary is BAD_PARAM. -/
theorem execGrammarAdvance_outside (h : s.GrammarReady u a d) (hu : s.laneIssue k 5 2 = some u)
    (hout : deckVocab d.image ≤ fieldOf u.body 0x18 4) : execGrammarAdvance k s = .next (s.finishIssue k St.badParam 0) := by
  simp only [execGrammarAdvance, hu]
  rw [h.badFields (by simp [hout])]

/-- The state after a record has moved to `g'` by a token (09 R227). -/
def State.advanceDone (s : State) (k : IssueKey) (u : UnitIssue) (a : Automaton) (d : Deck) (g' : GState) : State :=
  let r := s.recordOf u
  let t := fieldOf u.body 0x18 4
  let n := if g'.ended then 0 else (tokenBytes d.image t).length
  (((s.advanceRead k a d (recState r) t).bump64 0x000A0018 1).wrTva u.tenant u.stock (fieldOf u.body 8 8)
    (recBytes a g' (fieldOf r 0x10 8 + n) (fieldOf r 0x18 8 + if g'.ended then 0 else 1))).finishIssue k St.ok n

/-- ADVANCE by a token of the vocabulary, its lines at hand, is all or nothing (09 R227). -/
theorem execGrammarAdvance_inside (h : s.GrammarReady u a d) (hu : s.laneIssue k 5 2 = some u) (h10 : fieldOf u.body 0x10 8 = 0)
    (h20 : fieldOf u.body 0x20 8 = 0) (hin : fieldOf u.body 0x18 4 < deckVocab d.image)
    (hcheck : let lines := advanceLines a.image d.image (recState (s.recordOf u)) (fieldOf u.body 0x18 4)
      s.walkCheck (.issue k) a d lines.1 lines.2 = .ok) :
    let g := recState (s.recordOf u)
    let t := fieldOf u.body 0x18 4
    ((advance a.image d.image 0 g t).1 = none →
        execGrammarAdvance k s = .next (((s.advanceRead k a d g t).bump 0x000A0024).finishIssue k St.badParam 0))
      ∧ (∀ g', (advance a.image d.image 0 g t).1 = some g' → execGrammarAdvance k s = .next (s.advanceDone k u a d g')) := by
  dsimp only at hcheck ⊢
  simp only [execGrammarAdvance, hu]
  rw [h.runs (by simp [h10, h20, hin]) (by simp)]
  simp only [hcheck, State.onCheck_ok]
  constructor
  · intro hnone
    simp only [hnone]
    rfl
  · intro g' hsome
    simp only [hsome]
    rfl

/-! ### FORK -/

theorem exec_grammarFork (k : IssueKey) (s : State) : exec (.grammarFork k) s = execGrammarFork k s := rfl

/-- FORK to a range apart from the record writes the record back and copies it (09 R228). -/
theorem execGrammarFork_taken (h : s.GrammarReady u a d) (hu : s.laneIssue k 5 3 = some u) (h10 : fieldOf u.body 0x10 8 = 0)
    (h18 : fieldOf u.body 0x18 4 = 0)
    (hapart : fieldOf u.body 8 8 + 576 ≤ fieldOf u.body 0x20 8 ∨ fieldOf u.body 0x20 8 + 576 ≤ fieldOf u.body 8 8)
    (htarget : s.unitCheck u .store (fieldOf u.body 0x20 8) 576 64 = .ok) :
    let r := s.recordOf u
    let bytes := recBytes a (recState r) (fieldOf r 0x10 8) (fieldOf r 0x18 8)
    execGrammarFork k s = .next (((s.wrTva u.tenant u.stock (fieldOf u.body 8 8) bytes).wrTva u.tenant u.stock (fieldOf u.body 0x20 8)
      bytes).finishIssue k St.ok 0) := by
  simp only [execGrammarFork, hu]
  rw [h.runs (by simp [h10, h18, hapart]) (by simpa using htarget), htarget, State.onCheck_ok]

end Grammar

/-- Settles O32: the checks that the three issues share pass, and each goes on with its record. -/
theorem grammarIssues : Obligations.GrammarIssues := by
  intro s k u a d b at8 r g hautomaton hdeck htail hpad hload hstore hsound hlane hrun
  have hready : s.GrammarReady u a d := ⟨hautomaton, hdeck, htail, hpad, hload, hstore, hsound⟩
  refine ⟨fun hat h18 h20 htarget => ?_, fun hat h10 h20 => ?_, fun hat h10 h18 hapart htarget => ?_⟩
  · obtain ⟨hended, hgoing⟩ := execGrammarMask_taken hready (hat.laneIssue hlane hrun) h18 h20 htarget
    exact ⟨State.mask_of_none, fun _ => State.mask_of_bad, fun _ => State.mask_of_sound, hended, hgoing⟩
  · have hu := hat.laneIssue hlane hrun
    exact ⟨execGrammarAdvance_outside hready hu,
      fun hin hcheck => (execGrammarAdvance_inside hready hu h10 h20 hin hcheck).1,
      fun g' hin hcheck => (execGrammarAdvance_inside hready hu h10 h20 hin hcheck).2 g'⟩
  · exact execGrammarFork_taken hready (hat.laneIssue hlane hrun) h10 h18 hapart htarget

end Sys2Proof.Machine
end

section
/-!
PROOFS. The steps of generation: draft trees, accepting steps, emitted tokens, stalls and rebuilt pages (10 R246 to R255, R263, 09 R233).
-/
namespace Sys2Proof.Machine

/-! ### Lists changed in place -/

/-- An element inserted among others that do not pass a test is the one found. -/
theorem find?_insertBy {α : Type} (lt : α → α → Bool) (p : α → Bool) (x : α) (hx : p x = true) :
    ∀ l : List α, (∀ y ∈ l, p y = false) → (insertBy lt x l).find? p = some x
  | [], _ => by simp [insertBy, hx]
  | y :: ys, h => by
    have hy : p y = false := h y (by simp)
    have hrest := find?_insertBy lt p x hx ys (fun z hz => h z (by simp [hz]))
    unfold insertBy
    split
    · simp [hy, hrest]
    · simp [hx]

/-! ### Requests (10 R240) -/

section Requests
variable {s : State} {id : Nat} {r : Request}

/-- A request found by a number has it. -/
theorem State.req?_id (h : s.req? id = some r) : r.id = id := by
  simpa using List.find?_some h

/-- A changed request that keeps its number is found changed. -/
theorem State.req?_updReq (h : s.req? id = some r) {f : Request → Request} (hid : (f r).id = id) :
    (s.updReq id f).req? id = some (f r) := by
  unfold State.req? at h ⊢
  simp only [State.updReq, State.updServing, updWhere]
  generalize s.serving.reqs = l at h ⊢
  induction l with
  | nil => simp at h
  | cons y ys ih =>
    by_cases hy : y.id = id
    · have hyr : y = r := by simpa [hy] using h
      subst hyr
      simp [hy, hid]
    · rw [List.find?_cons_of_neg (by simp [hy])] at h
      rw [List.map_cons, List.find?_cons_of_neg (by simp [hy]), ih h]

end Requests

/-! ### The ledger (10 R254, R255) -/

section Ledger
variable {s : State} {t a : Nat}

/-- An account has the number it is asked for by. -/
theorem State.account_id (s : State) (t a : Nat) : (s.account t a).id = a := by
  unfold State.account
  cases h : (s.tenant t).ledger.find? (fun x => x.id == a) with
  | none => rfl
  | some x => simpa using List.find?_some h

/-- Changing an account touches one tenant's ledger and, of the serving unit, requests and batches; no request gains or loses its number. -/
theorem State.updAccount_shape (s : State) (t a : Nat) (f : Account → Account) :
    ∃ z : Serving, s.updAccount t a f = { s with
        tenants := s.tenants.modify t (fun y => { y with
          ledger := insertBy (fun p q => decide (p.id < q.id)) (f (s.account t a)) (y.ledger.filter (fun z => z.id ≠ a)) })
        serving := z }
      ∧ z.reqs.map (fun x => x.id) = s.serving.reqs.map (fun x => x.id) := by
  unfold State.updAccount
  dsimp only
  split
  · refine ⟨_, rfl, ?_⟩
    simp only [State.updTenant, updWhere, List.map_map]
    refine List.map_congr_left (fun x _ => ?_)
    simp only [Function.comp_apply]
    split <;> rfl
  · exact ⟨s.serving, rfl, rfl⟩

/-- A changed account of a tenant there is, keeping its number, is found changed. -/
theorem State.account_updAccount {f : Account → Account} (ht : t < s.tenants.length) (hid : (f (s.account t a)).id = a) :
    (s.updAccount t a f).account t a = f (s.account t a) := by
  obtain ⟨z, hshape, -⟩ := s.updAccount_shape t a f
  have hfind := find?_insertBy (fun p q => decide (p.id < q.id)) (fun x : Account => x.id == a) (f (s.account t a)) (by simp [hid])
    ((s.tenant t).ledger.filter (fun z => z.id ≠ a)) (by simp)
  have hledger : ((s.updAccount t a f).tenant t).ledger =
      insertBy (fun p q => decide (p.id < q.id)) (f (s.account t a)) ((s.tenant t).ledger.filter (fun z => z.id ≠ a)) := by
    rw [hshape]
    simp [State.tenant, List.getD_eq_getElem?_getD, List.getElem?_eq_getElem ht]
  rw [State.account, hledger, hfind, Option.getD_some]

/-- A request is there after a charge if it was there before. -/
theorem State.req?_chargeAccount {id units : Nat} {r : Request} (h : s.req? id = some r) :
    ∃ x, (s.chargeAccount t a units).req? id = some x := by
  obtain ⟨z, hshape, hids⟩ := s.updAccount_shape t a (fun x => { x with balance := x.balance - units, charged := x.charged + units })
  have hin : id ∈ s.serving.reqs.map (fun x => x.id) :=
    List.mem_map.mpr ⟨r, List.mem_of_find?_eq_some h, State.req?_id h⟩
  rw [← hids] at hin
  obtain ⟨y, hy, hyid⟩ := List.mem_map.mp hin
  rw [State.chargeAccount, hshape]
  exact Option.isSome_iff_exists.mp (List.find?_isSome.mpr ⟨y, hy, by simp [hyid]⟩)

end Ledger

/-! ### What an emitted token leaves alone -/

/-- Tenants, the serving unit and the memory are the same: what reading a deck's lines and counting leave alone (08 R214, R217). -/
structure SameServed (s u : State) : Prop where
  tenants : u.tenants = s.tenants
  serving : u.serving = s.serving
  mem : u.mem = s.mem

section Served
variable {s u v : State}

theorem SameServed.refl (s : State) : SameServed s s := ⟨rfl, rfl, rfl⟩

theorem SameServed.trans (h : SameServed s u) (h' : SameServed u v) : SameServed s v :=
  ⟨h'.tenants.trans h.tenants, h'.serving.trans h.serving, h'.mem.trans h.mem⟩

theorem SameServed.bump64 (h : SameServed s u) (off n : Nat) : SameServed s (u.bump64 off n) := ⟨h.tenants, h.serving, h.mem⟩

theorem SameServed.bumpBy (h : SameServed s u) (off n : Nat) : SameServed s (u.bumpBy off n) := ⟨h.tenants, h.serving, h.mem⟩

theorem SameServed.readDeckLine (h : SameServed s u) (d : Deck) (line : Nat) : SameServed s (u.readDeckLine d line) := by
  unfold State.readDeckLine
  dsimp only
  split
  · exact h
  · split <;> exact ⟨h.tenants, h.serving, h.mem⟩

theorem SameServed.readDeck (d : Deck) : ∀ (lines : List Nat) {u : State}, SameServed s u → SameServed s (u.readDeck d lines)
  | [], _, h => h
  | l :: ls, _, h => SameServed.readDeck d ls (h.readDeckLine d l)

theorem SameServed.countDetok (h : SameServed s u) (d : Deck) (ids : List Nat) (ill bad : Nat) : SameServed s (u.countDetok d ids ill bad) :=
  .readDeck d _ (((h.bump64 _ _).bumpBy _ _).bumpBy _ _)

theorem SameServed.flushHeld (h : SameServed s u) (d : Deck) (held : List Byte) : SameServed s (u.flushHeld (some d) held).1 :=
  h.countDetok d [] _ 0

/-- The same requests are found. -/
theorem SameServed.req? (h : SameServed s u) (id : Nat) : u.req? id = s.req? id := by
  rw [State.req?, h.serving, State.req?]

end Served

/-! ### Emitted tokens (10 R255, R264 to R267) -/

section Emitted
/-- A request after one token: it holds the token and its charge. -/
structure Request.Took (r : Request) (token : Nat) (r' : Request) : Prop where
  id : r'.id = r.id
  output : r'.output = r.output ++ [token]
  decodeCharged : r'.decodeCharged = r.decodeCharged + 1

variable {s : State} {id : Nat} {r : Request}

/-- Emitting a token charges the account one token, and replaces the request by one that took it (10 R255). -/
theorem State.emitToken_took (h : s.req? id = some r) (hlive : r.ended = none) (m : Model) (d : Deck) (ends : List Nat) (mended : Bool)
    (pos : Nat) (e : Nat × Word) :
    ∃ v r', s.emitToken id m d ends mended pos e = v.updReq id (fun _ => r')
      ∧ SameServed (s.chargeAccount r.tenant r.account 256) v ∧ r.Took e.1 r' := by
  have hcharged := (SameServed.refl (s.chargeAccount r.tenant r.account 256)).bump64 0x000B0018 1
  unfold State.emitToken
  simp only [h, hlive, Option.isSome_none, Bool.false_eq_true, if_false]
  split
  next => exact ⟨_, _, rfl, hcharged.countDetok d _ _ _, ⟨rfl, rfl, rfl⟩⟩
  next =>
    split
    next => exact ⟨_, _, rfl, ((hcharged.countDetok d _ _ _).flushHeld d _).bumpBy _ _, ⟨rfl, rfl, rfl⟩⟩
    next => exact ⟨_, _, rfl, hcharged.countDetok d _ _ _, ⟨rfl, rfl, rfl⟩⟩

/-- A token of a live request is charged to its account, joins its output and is counted, and no byte of memory changes (10 R255). -/
theorem State.emitToken_charges (h : s.req? id = some r) (hlive : r.ended = none) (ht : r.tenant < s.tenants.length) (m : Model) (d : Deck)
    (ends : List Nat) (mended : Bool) (pos : Nat) (e : Nat × Word) :
    let u := s.emitToken id m d ends mended pos e
    u.account r.tenant r.account = { id := r.account, balance := (s.account r.tenant r.account).balance - 256
                                     charged := (s.account r.tenant r.account).charged + 256 }
      ∧ (u.req? id).map (fun x => x.output) = some (r.output ++ [e.1])
      ∧ (u.req? id).map (fun x => x.decodeCharged) = some (r.decodeCharged + 1) ∧ u.mem = s.mem := by
  obtain ⟨v, r', hemit, hsame, htook⟩ := s.emitToken_took h hlive m d ends mended pos e
  obtain ⟨x, hx⟩ := State.req?_chargeAccount (t := r.tenant) (a := r.account) (units := 256) h
  have hfound : (v.updReq id (fun _ => r')).req? id = some r' :=
    State.req?_updReq ((hsame.req? id).trans hx) (htook.id.trans (State.req?_id h))
  have haccount : (s.chargeAccount r.tenant r.account 256).account r.tenant r.account = _ :=
    State.account_updAccount ht (s.account_id r.tenant r.account)
  have hledger : (v.updReq id (fun _ => r')).account r.tenant r.account =
      (s.chargeAccount r.tenant r.account 256).account r.tenant r.account := by
    simp only [State.account, State.tenant, State.updReq, State.updServing_tenants, hsame.tenants]
  have hmem : (s.chargeAccount r.tenant r.account 256).mem = s.mem := by
    obtain ⟨z, hshape, -⟩ := s.updAccount_shape r.tenant r.account
      (fun x => { x with balance := x.balance - (256 : Nat), charged := x.charged + 256 })
    rw [State.chargeAccount, hshape]
  rw [hemit]
  refine ⟨?_, by rw [hfound, Option.map_some, htook.output], by rw [hfound, Option.map_some, htook.decodeCharged], hsame.mem.trans hmem⟩
  rw [hledger, haccount, s.account_id]
  rfl

end Emitted

/-! ### Draft trees (10 R247, R248, 09 R233) -/

@[simp] theorem State.onServe_ok (s : State) (id : Nat) (f : State → State) : s.onServe id .ok f = f s := rfl

theorem exec_draftTree (id : Nat) (nodes : List DraftNode) (s : State) : exec (.draftTree id nodes) s = execDraftTree id nodes s := rfl

section Draft
variable {s : State} {id : Nat} {r : Request} {m : Model} {d : Deck}

/-- A request's step in flight waits for its draft: it drafts, has no tree yet, and nothing stands against the pass (10 R247). -/
structure State.DraftDue (s : State) (id : Nat) (r : Request) (m : Model) (d : Deck) : Prop where
  req : s.req? id = some r
  model : s.reqModel r = some m
  deck : s.reqDeck r = some d
  step : s.inStep id = true
  bare : r.tree = []
  drafts : s.drafts r = true
  takes : s.handTakes r.hand r.model 4 = true
  pass : s.passCheck r m = .ok

/-- The nodes of a draft as they join the tree, not yet pruned. -/
abbrev draftTreeNodes (nodes : List DraftNode) : List TreeNode :=
  nodes.map (fun n => { token := n.token, parent := n.parent, depth := n.depth, pruned := false, gstate := none })

/-- A tree of a root and unpruned drafts proposes all its drafts. -/
theorem Request.root_drafts_live (r : Request) (nodes : List DraftNode) :
    ((r.root :: draftTreeNodes nodes).filter (fun n => !n.pruned)).length - 1 = nodes.length := by
  have hall : (r.root :: draftTreeNodes nodes).filter (fun n => !n.pruned) = r.root :: draftTreeNodes nodes :=
    List.filter_eq_self.mpr (by simp [Request.root])
  simp [hall]

/-- Without an automaton a tree within its caps is taken as it is (10 R248). -/
theorem State.DraftDue.taken (h : s.DraftDue id r m d) (haut : r.automaton = none) {nodes : List DraftNode}
    (hok : treeOk d.image r.nodeCap r.depthCap nodes = true) : execDraftTree id nodes s =
      .next ((s.bump64 0x000B0020 nodes.length).updReq id (fun x => x.setTree (r.root :: draftTreeNodes nodes))) := by
  have hlive := r.root_drafts_live nodes
  simp [execDraftTree, h.req, h.model, h.deck, h.step, h.bare, h.drafts, h.takes, h.pass, haut, hok, hlive]
  rfl

/-- Without an automaton any other tree is cut to its root (10 R248). -/
theorem State.DraftDue.cut (h : s.DraftDue id r m d) (haut : r.automaton = none) {nodes : List DraftNode}
    (hbad : treeOk d.image r.nodeCap r.depthCap nodes = false) : execDraftTree id nodes s =
      .next (((s.bump 0x000B0048).bump64 0x000B0020 0).updReq id (fun x => x.setTree [r.root])) := by
  simp [execDraftTree, h.req, h.model, h.deck, h.step, h.bare, h.drafts, h.takes, h.pass, haut, hbad]
  rfl

/-- The tree of a request with an automaton: a draft within its caps is pruned, any other is cut to its root. -/
def State.prunedDraft (s : State) (a : Automaton) (d : Deck) (r : Request) (nodes : List DraftNode) : State × List TreeNode :=
  if treeOk d.image r.nodeCap r.depthCap nodes then s.pruneTree a d [r.root] (draftTreeNodes nodes) else (s.bump 0x000B0048, [r.root])

/-- With an automaton the tree is pruned by it when the lines it reads are at hand (10 R248, 09 R233). -/
theorem State.DraftDue.pruned (h : s.DraftDue id r m d) {n : Nat} {a : Automaton} (haut : r.automaton = some n)
    (hfind : s.automata.find? (fun a => a.number == n) = some a) (nodes : List DraftNode) :
    let p := s.prunedDraft a d r nodes
    let lines := treeLines a.image d.image p.2
    s.walkCheck (.cmd r.cmd) a d lines.1 lines.2 = .ok →
    execDraftTree id nodes s = .next ((p.1.bump64 0x000B0020 ((p.2.filter (fun n => !n.pruned)).length - 1)).updReq id
      (fun x => { x.setTree p.2 with stepRecovered := x.stepRecovered || s.imageParity a lines.1 })) := by
  intro p lines hcheck
  have hp : p = (if treeOk d.image r.nodeCap r.depthCap nodes then s else s.bump 0x000B0048).pruneTree a d [r.root]
      (if treeOk d.image r.nodeCap r.depthCap nodes then draftTreeNodes nodes else []) := by
    show s.prunedDraft a d r nodes = _
    unfold State.prunedDraft
    split <;> rfl
  simp only [lines, hp] at hcheck ⊢
  simp [execDraftTree, h.req, h.model, h.deck, h.step, h.bare, h.drafts, h.takes, h.pass, haut, hfind, hcheck]

end Draft

/-! ### Walks of a tree (10 R250) -/

section Walk
variable (tree : List TreeNode) (cap : Nat) (sample : Nat → Nat → Drawn)

/-- A walk emits one token at each node it meets, but for a last one where it found none. -/
theorem walkTree_path_length : ∀ fuel node n, let w := walkTree tree cap sample fuel node n
    w.path.length = w.emitted.length + boolNat (w.dead || w.nan)
  | 0, _, _ => rfl
  | fuel + 1, node, n => by
    dsimp only
    unfold walkTree
    split
    next => rfl
    next => rfl
    next =>
      dsimp only
      split
      next => rfl
      next c _ =>
        have hrest := walkTree_path_length fuel c (n + 1)
        simp only [List.length_cons] at hrest ⊢
        omega

/-- A walk from a node of the tree meets nodes of the tree. -/
theorem walkTree_path_lt : ∀ fuel node n, node < tree.length → ∀ i ∈ (walkTree tree cap sample fuel node n).path, i < tree.length
  | 0, _, _, _ => by simp [walkTree]
  | fuel + 1, node, n, hnode => by
    unfold walkTree
    split
    next => simpa using hnode
    next => simpa using hnode
    next =>
      dsimp only
      split
      next => simpa using hnode
      next c hkid =>
        have hc : c < tree.length := List.mem_range.mp (List.mem_of_find?_eq_some hkid)
        have hrest := walkTree_path_lt fuel c (n + 1) hc
        simpa [hnode] using hrest

end Walk

/-! ### Accepting steps (10 R250 to R253, 02 R51) -/

theorem exec_acceptStep (id : Nat) (logits : List (List Word)) (mended : Bool) (s : State) :
    exec (.acceptStep id logits mended) s = execAcceptStep id logits mended s := rfl

section Accept
variable {s : State} {id : Nat} {r : Request} {m : Model} {d : Deck}

/-- A request's step in flight is verified: it has its tree, and no unit, seat, hand or page stands against it (02 R51, 10 R250). -/
structure State.AcceptDue (s : State) (id : Nat) (r : Request) (m : Model) (d : Deck) : Prop where
  req : s.req? id = some r
  model : s.reqModel r = some m
  deck : s.reqDeck r = some d
  step : s.inStep id = true
  tree : r.tree ≠ []
  seats : s.noSeats = false
  takes : s.handTakes r.hand r.model 4 = true
  units : s.stepUnitsOut r = false
  pass : s.passCheck r m = .ok

/-- The masks of a step's nodes, the state with them computed, and whether parity made the unit walk or read afresh (09 R232, R233). -/
def State.stepMasks (s : State) (aut : Option Automaton) (r : Request) (d : Deck) : State × List (GState × List Nat) × Bool :=
  match aut with
  | some a => s.draw.treeMasks a d r.tree [] false
  | none => (s.draw, [], false)

/-- The mask of a node; none without an automaton. -/
def State.nodeMask (s : State) (aut : Option Automaton) (r : Request) (d : Deck) (i : Nat) : Option (List Nat) :=
  match aut with
  | none => none
  | some _ => ((r.tree[i]?).bind (fun n => n.gstate)).bind (fun g => ((s.stepMasks aut r d).2.1.find? (fun x => x.1 == g)).map (fun x => x.2))

/-- The walk of a step's tree, over the logits of both batches (10 R250, R253). -/
def State.stepWalk (s : State) (aut : Option Automaton) (r : Request) (d : Deck) (logits : List (List Word)) : Walked :=
  walkTree r.tree r.depthCap (fun node n => sampleToken r (s.nodeMask aut r d node) ((((r.verified ++ logits).getD node []) ++
    List.replicate (deckVocab d.image) 0x7FC00000).take (deckVocab d.image)) s.fresh (node * 2 ^ 20) n) r.tree.length 0 r.output.length

/-- Whether a line that the advance after a walk reads fails its parity (09 R230). -/
def State.advanceParity (s : State) (aut : Option Automaton) (r : Request) (d : Deck) (w : Walked) : Bool :=
  match aut, lastAdvance r.tree w with
  | some a, some (g, t) => s.imageParity a (advanceLines a.image d.image g t).1
  | _, _ => false

/-- A walked step ends: the tokens are accepted, or the request ends for want of a valid logit (10 R250, R253). -/
def State.stepEnd (s : State) (id : Nat) (r : Request) (m : Model) (d : Deck) (aut : Option Automaton) (w : Walked) (again : Bool) : State :=
  if w.nan then (((s.leaveStep id).bump 0x000B0074).updReq id (fun y => { y with recovered := y.recovered || again })).endRequest id 8 St.aborted
  else s.acceptWalk r m d aut r.tree w again

/-- After a walk that met a node without a valid logit the request ends (10 R253). -/
theorem State.stepEnd_nan {aut : Option Automaton} {w : Walked} {again : Bool} (hnan : w.nan = true) :
    s.stepEnd id r m d aut w again = (((s.leaveStep id).bump 0x000B0074).updReq id
      (fun y => { y with recovered := y.recovered || again })).endRequest id 8 St.aborted := if_pos hnan

/-- After any other walk its tokens are accepted (10 R250). -/
theorem State.stepEnd_accepted {aut : Option Automaton} {w : Walked} {again : Bool} (hnan : w.nan = false) :
    s.stepEnd id r m d aut w again = s.acceptWalk r m d aut r.tree w again := if_neg (by simp [hnan])

/-- The first of two batches keeps its logits (02 R51). -/
theorem State.AcceptDue.first (h : s.AcceptDue id r m d) (logits : List (List Word)) (mended : Bool) (hpart : s.stepPart id = 1) :
    execAcceptStep id logits mended s = .next (s.secondBatch id logits mended) := by
  simp [execAcceptStep, h.req, h.model, h.deck, h.step, h.tree, h.seats, h.takes, h.units, h.pass, hpart]

/-- Any other batch walks the tree, and the step ends as its walk did when the lines it reads are at hand. -/
theorem State.AcceptDue.walks (h : s.AcceptDue id r m d) (logits : List (List Word)) (mended : Bool) (hpart : s.stepPart id ≠ 1)
    {aut : Option Automaton} (haut : r.automaton.bind (fun n => s.automata.find? (fun a => a.number == n)) = aut)
    (hcheck : s.stepCheck (.cmd r.cmd) aut d r.tree (s.stepWalk aut r d logits) = .ok) :
    let w := s.stepWalk aut r d logits
    let x := s.stepMasks aut r d
    execAcceptStep id logits mended s =
      .next (x.1.stepEnd id r m d aut w (mended || r.stepRecovered || x.2.2 || s.advanceParity aut r d w)) := by
  intro w x
  have htree : r.tree.isEmpty = false := by simpa using h.tree
  have hgo : (!s.inStep id || r.tree.isEmpty || s.noSeats || !s.handTakes r.hand r.model 4) = false := by
    simp [h.step, htree, h.seats, h.takes]
  have hserve : execAcceptStep id logits mended s = .next (s.onServe id (s.stepCheck (.cmd r.cmd) aut d r.tree w) (fun _ =>
      x.1.stepEnd id r m d aut w (mended || r.stepRecovered || x.2.2 || s.advanceParity aut r d w))) := by
    simp only [execAcceptStep, h.req, Option.bind_some, h.model, h.deck, hgo, h.units, h.pass, if_false, Bool.false_eq_true]
    rw [State.onServe_ok, if_neg hpart, haut]
    cases aut <;> rfl
  rw [hserve, hcheck, State.onServe_ok]

end Accept

/-! ### Requests parked too long (10 R263) -/

theorem exec_ringStall (id : Nat) (s : State) : exec (.ringStall id) s = execRingStall id s := rfl

/-- A request parked beyond its limit, and parked still when its ring has been tried once more, ends with RING_STALL. -/
theorem execRingStall_ends {s : State} {id : Nat} {r r' : Request} (h : s.req? id = some r) (hparked : r.isParked = true)
    (hlimit : (if 63 < r.hand then s.serving.parkLimit else (s.hand r.hand).parkLimit) ≠ 0)
    (hlate : 63 < r.hand ∨ (if 63 < r.hand then s.serving.parkLimit else (s.hand r.hand).parkLimit) < r.parked)
    (h' : (s.writeRing id).req? id = some r') (hparked' : r'.isParked = true) :
    execRingStall id s = .next (((((s.writeRing id).bump 0x000B0058).bumpBy 0x000B005C r'.queue.length).updReq id
      (fun x => { x with queue := [], isParked := false })).finishRequest id St.ringStall) := by
  by_cases hfreed : 63 < r.hand
  · have hlimit' : s.serving.parkLimit ≠ 0 := by simpa [hfreed] using hlimit
    simp [execRingStall, h, hparked, hfreed, hlimit', h', hparked']
  · have hlimit' : (s.hand r.hand).parkLimit ≠ 0 := by simpa [hfreed] using hlimit
    have hlate' : ¬ r.parked ≤ (s.hand r.hand).parkLimit := by simpa [hfreed] using hlate
    simp [execRingStall, h, hparked, hfreed, hlimit', hlate', h', hparked']

/-! ### Rebuilt pages (10 R246) -/

theorem exec_kvRebuild (id page : Nat) (s : State) : exec (.kvRebuild id page) s = execKvRebuild id page s := rfl

/-- A page of a live request is recomputed, and its step marked. -/
theorem execKvRebuild_recomputes {s : State} {id page : Nat} {r : Request} {m : Model} (h : s.req? id = some r)
    (hmodel : s.reqModel r = some m) (hpage : page < r.pages.length) (hlive : r.ended = none) :
    execKvRebuild id page s = .next (((s.bump 0x000B0078).recomputeKv m.image (r.pages.getD page 0)).updReq id
      (fun x => { x with stepRecovered := true, recovered := true })) := by
  have hin : ¬ r.pages.length ≤ page := by omega
  simp [execKvRebuild, h, hmodel, hin, hlive]

/-- Settles O38: a draft tree and an accepting step by cases on the request's automaton, a walk by induction on its fuel, an emitted token
by what it leaves alone (`State.emitToken_took`), a stall and a rebuilt page as the model's own cases. -/
theorem generationSteps : Obligations.GenerationSteps := by
  intro s id r hreq
  refine ⟨fun m d nodes hmodel hdeck hstep hbare hdrafts htakes hpass => ?_,
    fun m d logits mended hmodel hdeck hstep htree hseats htakes hunits hpass => ?_,
    fun m d ends mended pos e hlive ht => s.emitToken_charges hreq hlive ht m d ends mended pos e,
    fun r' hparked hlimit hlate h' hparked' => execRingStall_ends hreq hparked hlimit hlate h' hparked',
    fun m page hmodel hpage hlive => execKvRebuild_recomputes hreq hmodel hpage hlive⟩
  · have hdue : s.DraftDue id r m d := ⟨hreq, hmodel, hdeck, hstep, hbare, hdrafts, htakes, hpass⟩
    exact ⟨fun haut hok => hdue.taken haut hok, fun haut hbad => hdue.cut haut hbad,
      fun n a haut hfind => hdue.pruned haut hfind nodes⟩
  · have hdue : s.AcceptDue id r m d := ⟨hreq, hmodel, hdeck, hstep, htree, hseats, htakes, hunits, hpass⟩
    generalize haut : r.automaton.bind (fun n => s.automata.find? (fun a => a.number == n)) = aut
    refine ⟨walkTree_path_length .., walkTree_path_lt _ _ _ _ _ _ (List.length_pos_iff.mpr htree), hdue.first logits mended,
      fun hpart hcheck => ?_⟩
    cases aut <;> exact
      ⟨fun hnan => (hdue.walks logits mended hpart haut hcheck).trans (congrArg _ (State.stepEnd_accepted hnan)),
        fun hnan => (hdue.walks logits mended hpart haut hcheck).trans (congrArg _ (State.stepEnd_nan hnan))⟩

end Sys2Proof.Machine
end
